-- ==== Sys2Proof/Word.lean ====
section
/-! DEFINITION. Bytes and the plainest operations on byte strings: little-endian fields of host-visible structures
(spec R11), big-endian fields of media structures (spec R12 leaves the order to each structure), slices. -/

namespace Sys2Proof

/-- A byte is 8 bits (R8). -/
abbrev Byte := BitVec 8

/-- A byte string, lowest address first. -/
abbrev Bytes := List Byte

/-- The low byte of a number. -/
def byte (n : Nat) : Byte := BitVec.ofNat 8 n

/-- `n` zero bytes. -/
def zeros (n : Nat) : Bytes := List.replicate n 0

/-- `n` bytes, least significant first (R11). -/
def leBytes : Nat → Nat → Bytes
  | 0, _ => []
  | n + 1, v => byte (v % 256) :: leBytes n (v / 256)

/-- `n` bytes, most significant first. -/
def beBytes (n v : Nat) : Bytes := (leBytes n v).reverse

/-- The number a byte string holds, least significant byte first (R11). -/
def leNat : Bytes → Nat
  | [] => 0
  | b :: r => b.toNat + 256 * leNat r

/-- The number a byte string holds, most significant byte first. -/
def beNat (b : Bytes) : Nat := b.foldl (fun a x => 256 * a + x.toNat) 0

/-- `n` bytes from offset `o`; bytes past the end are zero. -/
def slice (b : Bytes) (o n : Nat) : Bytes :=
  let x := (b.drop o).take n
  x ++ zeros (n - x.length)

/-- Little-endian field of `n` bytes at offset `o`. -/
def getLe (b : Bytes) (o n : Nat) : Nat := leNat (slice b o n)

/-- Big-endian field of `n` bytes at offset `o`. -/
def getBe (b : Bytes) (o n : Nat) : Nat := beNat (slice b o n)

/-- Bits `[lo + w - 1 : lo]` of a number. -/
def bitsOf (v lo w : Nat) : Nat := (v / 2 ^ lo) % 2 ^ w

/-- Bit `i` of a number. -/
def bitAt (v i : Nat) : Bool := (v / 2 ^ i) % 2 = 1

/-- 1 for true. -/
def b2n (b : Bool) : Nat := if b then 1 else 0

/-- A byte string cut or padded with zeros to `n` bytes. -/
def fit (n : Nat) (b : Bytes) : Bytes := slice b 0 n

/-- `b` with `x` written over it from offset `o` (`b` is long enough). -/
def putAt (b : Bytes) (o : Nat) (x : Bytes) : Bytes := b.take o ++ x ++ b.drop (o + x.length)

/-- Exclusive or, byte by byte, over the shorter of the two. -/
def xorBytes (a b : Bytes) : Bytes := List.zipWith (· ^^^ ·) a b

/-- `n` as a two's complement number of `w` bits. -/
def toSigned (w n : Nat) : Int := if n % 2 ^ w < 2 ^ (w - 1) then (n % 2 ^ w : Nat) else (n % 2 ^ w : Nat) - (2 ^ w : Nat)

/-- The two's complement code of `w` bits of an integer. -/
def ofSigned (w : Nat) (i : Int) : Nat := (i % (2 ^ w : Nat)).toNat

/-- Ceiling division. -/
def cdiv (a b : Nat) : Nat := (a + b - 1) / b

/-- `a` limited to `[lo, hi]`. -/
def clampInt (lo hi a : Int) : Int := max lo (min hi a)

/-- A `w`-bit counter that saturates at all ones. -/
def satAdd (w : Nat) (c : BitVec w) (n : Nat) : BitVec w := BitVec.ofNat w (min (c.toNat + n) (2 ^ w - 1))

/-- Element `i` of a list replaced by its image under `f`; a list too short is left as it is. -/
def modAt {α : Type} (l : List α) (i : Nat) (f : α → α) : List α :=
  match l, i with
  | [], _ => []
  | a :: r, 0 => f a :: r
  | a :: r, i + 1 => a :: modAt r i f

/-- An association list with key `k` set to `v`. -/
def assocSet {α β : Type} [DecidableEq α] (l : List (α × β)) (k : α) (v : β) : List (α × β) :=
  (k, v) :: l.filter (fun e => e.1 ≠ k)

/-- The value of key `k`. -/
def assocGet {α β : Type} [DecidableEq α] (l : List (α × β)) (k : α) : Option β :=
  (l.find? (fun e => e.1 = k)).map Prod.snd

end Sys2Proof
end

