-- ==== Sys2Proof/Syntax.lean ====
section
/-! DEFINITION. The commands of the block: one constructor per row of spec/opcode_table.json, and the structures
their operands are made of. An operand is what reaches the die from outside with the command: bytes the formatter
reads from host memory, whether such an access failed, measured values, received words. -/

namespace Sys2Proof

/-- An entry of a scatter list (R289): address, length, the 4 bytes that must be zero. -/
structure SglEntry where
  addr : BitVec 64
  len : BitVec 32
  zero : BitVec 32 := 0
deriving DecidableEq, Repr

/-- What host memory answers while a command runs (R278, R289, R291, R293). -/
structure Io where
  /-- Bytes read from host memory by DMA, in the order the command reads them -/
  data : Bytes := []
  /-- No data access of the command failed in host memory -/
  ok : Bool := true
  /-- Host memory refuses writes of completion entries of the command's pair from now on -/
  cqFail : Bool := false
  /-- Host memory refuses writes of event entries from now on -/
  evFail : Bool := false
deriving DecidableEq, Repr

/-- A mailbox request at its GO (Table 12-3): the mailbox, the header's fields but the opcode (the row names it), the
payload, and what host memory and the tape answer while it runs. -/
structure MbReq where
  mb : Fin 16
  flags : BitVec 16 := 0
  seq : BitVec 32 := 0
  /-- Payload length field -/
  len : BitVec 32
  rsv : BitVec 32 := 0
  payload : Bytes
  io : Io := {}
  /-- Measured or received values, where the command's own rule names some -/
  aux : List Int := []
deriving DecidableEq, Repr

/-- What the host memory read of a fetched SQ entry gives (R291): the entry, the scatter list where its SGL flag names one, and
whether the list could be read. -/
inductive FetchIo where
  | entry (bytes : Bytes) (sgl : List SglEntry) (sglOk : Bool)
  | readFailed
deriving DecidableEq, Repr

/-- The packing descriptor of a billet with its place in the train, as the mirror carries it (R27, Table 15-4). `payload` is filled for
the billets of a ledger or EOD block alone, which no raw data give again. -/
structure PackDesc where
  serial : Nat
  train : Nat
  ingot : Nat
  pos : Nat
  group : Nat
  parity : Bool
  short : Bool
  cls : Nat
  session : Nat
  wrap : Nat
  firstRec : Nat
  firstCu : Nat
  resume : Nat
  cont : Bool
  early : Bool
  descs : Nat
  used : Nat
  recs : List Nat
  firstDesc : Option Nat
  trailers : List Nat
  payload : Bytes := []
deriving DecidableEq, Repr

/-- A heat formed and the forming record behind it: the heat's train, number, billets; the packer's place and the train's counts. -/
structure FormRec where
  train : Nat
  t : Nat
  serials : List Nat
  parity : Bool
  cls : Nat
  nextSerial : Nat
  nextTrain : Nat
  nextT : Nat
  tc : Option Nat
  closing : Bool
  short : Bool
  drain : Bool
  /-- Record, part, CU and offset where the packer stands -/
  pos : Option (Nat × Nat × Nat × Nat)
  lastPacked : Option Nat
  /-- Seal queue as it then is: 2n for record n, 2m + 1 for a close mark -/
  queue : List Nat
deriving DecidableEq, Repr

/-- What the mirror carries (R439, R440, Table 15-4). -/
inductive MirrorItem where
  /-- Fetched SQ entry with its grant number -/
  | entry (pair grant : Nat) (bytes : Bytes)
  /-- SEGMENT WRITE payload: record, offset, bytes -/
  | payload (r off : Nat) (bytes : Bytes)
  /-- OPEN number -/
  | opened (r pair slot : Nat) (encrypted shared : Bool) (setting : BitVec 8) (time : BitVec 32)
  /-- SEAL -/
  | sealed (r len : Nat)
  /-- MARK -/
  | mark (r pair : Nat) (time : BitVec 32)
  /-- ABANDON -/
  | abandon (r : Nat)
  /-- Packing descriptor, as created -/
  | descriptor (d : PackDesc)
  /-- Heat formed -/
  | forming (f : FormRec)
  /-- Form digest: record, CU, compressed length, CRC-32C, CRC-32C of the raw CU, engine -/
  | digest (r cu c : Nat) (crc rawCrc : BitVec 32) (engine : Nat)
  /-- Heat record: position, kind, billets, retired elements, superframe at which it began -/
  | heat (wrap h : Nat) (kind : Nat) (serials retired : List Nat) (superframe : Nat)
  /-- Writing has ended -/
  | ended
  /-- Verify verdict with the CRC-32C of the decoded codeword -/
  | verdict (cls serial j : Nat) (pass : Bool) (crc : BitVec 32)
  /-- Completion entry content, before its write -/
  | completion (pair tag : Nat) (status : BitVec 16) (result : BitVec 64) (ext : BitVec 32)
  /-- Written mark -/
  | written (pair tag : Nat)
  /-- Deferred error -/
  | deferred (r pair : Nat) (status : BitVec 16)
  /-- Event, before it is posted -/
  | event (code status : BitVec 16) (a b : Nat)
  /-- Posted mark of the oldest event of the code and argument A -/
  | posted (code : BitVec 16) (a : Nat)
  /-- Ledger image -/
  | image (bytes : Bytes)
  /-- LEDGER_STORED report -/
  | stored (seq : Nat)
  /-- The cartridge has been unloaded -/
  | unloaded
  /-- Parameter change -/
  | param (id : Nat) (v : Int)
  /-- QP_CREATE with its payload, and QP_DELETE -/
  | qpCreate (payload : Bytes)
  | qpDelete (q : Nat)
  /-- Queue state of a pair, from the sync copy: fetch position, CQ tail, CQ head, phase -/
  | pairAt (q sqFetch cqTail cqHead : Nat) (phase : Bool)
  /-- Event-queue configuration, from the sync copy: base, EVQ_CONFIG, tail, phase -/
  | evq (base : BitVec 64) (config : BitVec 32) (tail : Nat) (phase : Bool)
deriving DecidableEq, Repr

/-- Narrowest margins of a full training (R384): write eye and read eye in ps, Vref margin in 0.1 % of VDDQ. -/
structure Eyes where
  write : BitVec 16 := 0
  read : BitVec 16 := 0
  vref : BitVec 16 := 0
deriving DecidableEq, Repr

/-- A burst that a scrub found other than clean (R391, R397): its Hearth address, the error patterns of the copy and of the
partner or shadow as symbols in error, and whether another write to it came before the repair. -/
structure ScrubHit where
  addr : Nat
  errs : List (Fin 80 × BitVec 8)
  errs2 : List (Fin 80 × BitVec 8) := []
  overwritten : Bool := false
deriving DecidableEq, Repr

/-- What one port's training gives (R418): the physical lanes that aligned and those whose BIP-8 check failed. -/
structure PortTraining where
  aligned : List (Fin 13) := []
  failed : List (Fin 13) := []
deriving DecidableEq, Repr

/-- What one DDR5 channel's training gives (R384). -/
structure ChanTraining where
  ok : Bool := true
  eyes : Eyes := {}
deriving DecidableEq, Repr

/-- What a signing certificate, whose DER encoding and root key the spec does not give, says when it is read: whether it chains to the root of
its image's key class, and its P-384 public key (R353, log 28). -/
structure CertFacts where
  trusted : Bool := false
  x : Nat := 0
  y : Nat := 0
deriving DecidableEq, Repr

/-- What BOOT finds outside the die and in its fuses (R472 to R474, Tables 16-9, 16-10). -/
structure BootEnv where
  /-- Hearth configuration record and its copy, 64 bytes or more each -/
  hearthA : Bytes := []
  hearthB : Bytes := []
  /-- Boot-slot records A and B -/
  slotA : Bytes := []
  slotB : Bytes := []
  /-- Image slots 0 and 1 -/
  image0 : Bytes := []
  image1 : Bytes := []
  /-- The signing certificates of the two images -/
  cert0 : CertFacts := {}
  cert1 : CertFacts := {}
  /-- Serials in the pairing record: this die's and the peer's; none without a record -/
  pairing : Option (Bytes × Bytes) := none
  /-- Fuses: serial, deliverable, floor of the security version -/
  serial : Bytes := []
  deliverable : BitVec 8 := 1
  floor : Nat := 0
  /-- Training of HP0 to HP15, SP0, SP1, of channels A to H, and of M0 and M1 with their rate -/
  ports : List PortTraining := []
  chans : List ChanTraining := []
  m0 : Bool := true
  m1 : Bool := true
  rate : Nat := 32
  /-- EEPROM of the head assembly -/
  eeprom : Bytes := []
  /-- The security self-tests pass, and the AES pairs that pass theirs -/
  selftestOk : Bool := true
  pairs : List (Fin 80) := []
deriving DecidableEq, Repr

/-- The commands: one constructor per row of spec/opcode_table.json. The operands are what arrives from outside with
the command; a docstring is the row's summary and rule. -/
inductive Instr where
  /-- PWRGOOD or RESET_N low resets every domain, register field and the time counter and removes every volatile key. (R471) -/
  | powerOnReset (pwrgood : Bool)
  /-- Release of power-on reset runs the boot timeline (PLLs, Tongs and UCIe training, firmware load, security self-tests, DDR5 training, fill) up to READY. (R473) -/
  | boot (e : BootEnv)
  /-- TAMPER_N held low for at least 1 µs causes a full zeroize and rejects every security service while it stays low. (R271) -/
  | tamperNAssert
  /-- TAMPER_N returning high reseeds the DRBG and offers the UNCOMMISSIONED services again. (R271) -/
  | tamperNRelease
  /-- Function Level Reset stops fetch and DMA, ends writing without EOD, deletes every pair, discards open and unreleased records and releases staging. (R363) -/
  | functionReset
  /-- Entry to D3hot starts an entry to P3 as if by POWER_SET. (R359) -/
  | d3hotEntry
  /-- A D0 transition is a wake event that brings the formatter to P0. (R357) -/
  | d0Transition
  /-- A reference or PLL frequency error or loss of lock sets FATAL, asserts ALERT_N and lowers write gate on every head port. (R457) -/
  | clockMonitorFault
  /-- A rail that leaves its tolerance while PWRGOOD is high is detected by the PVT monitor and handled as a clock-monitor fault. (R470) -/
  | railFault
  /-- Every 100 µs the PVT monitor reads 16 junction sensors and acts on the highest reading. (R476) -/
  | pvtSample (readings : List Int)
  /-- A rising edge of PPS_IN captures the counter into the PPS_IN registers and increments PPS_IN_COUNT. (R463) -/
  | ppsInEdge (steps : Fin 32)
  /-- More than 1.1 s passing after a PPS_IN edge without the next edge sets PPS_IN_MISSED. (R463) -/
  | ppsInMissed
  /-- The counter passing a second boundary less PPS_OUT_OFFSET raises PPS_OUT for the programmed width. (R464) -/
  | ppsOutPulse
  /-- A rise of SPD_ACK following its fall acknowledges the pending speed request and updates SPEED_CUR. (R144) -/
  | spdAckRise
  /-- A fall of SPD_ACK after a request marks the ramp as in progress. (R144) -/
  | spdAckFall
  /-- Once BLW_DWELL has passed with SPD_ACK high, the Bellows changes SPD_REQ[1:0] by one step on a watermark crossing or a speed cap. (R143) -/
  | speedRequest
  /-- SPD_ACK not high within SPD_TIMEOUT of a request sets SPEED_TIMEOUT while writing continues at the measured velocity. (R144) -/
  | speedTimeout
  /-- BLW_FILL at zero for BLW_STARVE_TIME at 6 m/s either ends writing and stops the tape or turns heats into slag rewrite heats. (R145) -/
  | starveStop
  /-- After a starvation stop, writing resumes by appending at EOD once BLW_FILL reaches BLW_HIGH or a SYNC is pending. (R145) -/
  | starveResume
  /-- A failure of M0 or M1 continues the link on the other module and sets LINK_DEGRADED. (R276) -/
  | ucieModuleLoss (module : Bool)
  /-- A write of a new SQ tail makes entries available for fetch, or is ignored and counted when invalid. (R281) -/
  | sqTailDoorbell (q : Fin 256) (v : BitVec 32)
  /-- A write of a new CQ head frees completion entries and may cancel a pending interrupt. (R284) -/
  | cqHeadDoorbell (q : Fin 256) (v : BitVec 32)
  /-- A write of the event-queue head frees entries and lets held events be posted in order of occurrence. (R293) -/
  | evqHeadDoorbell (v : BitVec 32)
  /-- A write of EVQ_CONFIG enables or disables the event queue, or is ignored when invalid; disabling clears EVQ_ERROR. (R293) -/
  | evqConfigWrite (v : BitVec 32)
  /-- A write to a BAR0 register without behaviour of its own acts according to its access code. (R14) -/
  | registerWrite (off : BitVec 20) (size : Nat) (v : BitVec 64) (io : Io) (aux : List Int)
  /-- The fetch arbiter grants the next command from an eligible pair by urgent priority and weighted round robin, fixing its arrival order. (R292) -/
  | fetchGrant (f : FetchIo)
  /-- A command whose overlapping earlier lock entries have been released is admitted to proceed. (R309) -/
  | lockAdmission (q : Fin 256) (tag : BitVec 16)
  /-- A SEGMENT WRITE waiting for staging chunks proceeds when chunks are freed, in arrival order, with the lowest open record's reserve first. (R373) -/
  | stagingChunkGrant (io : Io)
  /-- The oldest unsignalled completion of a pair reaching the coalescing time signals the pair's vector. (R285) -/
  | coalescingTimeExpiry (q : Fin 256)
  /-- OPEN assigns a record number and captures the compression setting and, for an encrypted record, the slot generation. (R304) -/
  | openRec (q : Fin 256) (tag : BitVec 16) (io : Io)
  /-- SEGMENT WRITE places host data at an offset of an open record's staging area and merges its range into the extents. (R306) -/
  | segmentWrite (q : Fin 256) (tag : BitVec 16) (io : Io)
  /-- SEGMENT READ returns bytes of an open record's staging area lying inside the written extents. (R308) -/
  | segmentRead (q : Fin 256) (tag : BitVec 16) (io : Io)
  /-- SEAL fixes a record whose extents are exactly [0, L) and places it in seal order, subject to the capacity check. (R311) -/
  | seal (q : Fin 256) (tag : BitVec 16) (io : Io)
  /-- ABANDON discards an open record's staging area and makes the record ABANDONED. (R314) -/
  | abandon (q : Fin 256) (tag : BitVec 16) (io : Io)
  /-- SYNC enters a close mark into the seal queue and covers every sealed record up to the highest sealed number. (R316) -/
  | sync (q : Fin 256) (tag : BitVec 16) (io : Io)
  /-- Once every covered record is written or has a terminal deferred error and a ledger image reaching the bound is issued, the SYNC completes. (R316) -/
  | syncCompletion (io : Io)
  /-- LOCATE positions the tape at a record under R214 or, with the write flag, sets the write start point. (R323) -/
  | locate (q : Fin 256) (tag : BitVec 16) (io : Io)
  /-- RECORD READ delivers a range of CUs of a record, locating it first if needed, and writes a recovery report. (R325) -/
  | recordRead (q : Fin 256) (tag : BitVec 16) (io : Io)
  /-- MARK assigns a number and seals a mark record with no CUs in one command. (R313) -/
  | mark (q : Fin 256) (tag : BitVec 16) (io : Io)
  /-- QUERY writes the 64-byte state record of a named record and of the formatter. (R327) -/
  | query (q : Fin 256) (tag : BitVec 16) (io : Io)
  /-- ABORT catches the named outstanding command of its pair if it is in a catchable stage, ending it with ABORTED BY REQUEST. (R329) -/
  | abort (q : Fin 256) (tag : BitVec 16) (io : Io)
  /-- STATE_SUMMARY returns a snapshot of the formatter and optionally writes the pair table and deferred-error list to host memory. (R351) -/
  | stateSummary (r : MbReq)
  /-- PARAM_GET returns the accepted values and PENDING flags of up to 254 parameters. (R344) -/
  | paramGet (r : MbReq)
  /-- PARAM_SET validates a whole set of parameter values and accepts all of them at one instant, or none. (R343) -/
  | paramSet (r : MbReq)
  /-- QP_CREATE creates a data or motion queue pair with its revision, class, sizes and coalescing. (R280) -/
  | qpCreate (r : MbReq)
  /-- QP_DELETE aborts the pair's outstanding commands, abandons its open records and deletes the pair. (R280) -/
  | qpDelete (r : MbReq)
  /-- CART_LOAD declares a cartridge, reads and checks its ledger image (or builds one for BLANK or RECOVER) and classifies it. (R346) -/
  | cartLoad (r : MbReq)
  /-- CART_UNLOAD ends writing, issues a final image if needed, discards the temper store and derived keys and clears CARTRIDGE. (R349) -/
  | cartUnload (r : MbReq)
  /-- LEDGER_GET writes one of the eight most recently issued ledger images to host memory. (R350) -/
  | ledgerGet (r : MbReq)
  /-- LEDGER_STORED reports that the host has stored an issued image on its page. (R350) -/
  | ledgerStored (r : MbReq)
  /-- The first frame of a new write session is written once the session's image has been reported stored. (R76) -/
  | sessionFirstFrame
  /-- EOD_SEARCH runs the end-of-data search if one is pending and returns the result of the last search. (R220) -/
  | eodSearch (r : MbReq)
  /-- Before the first write or far read of a load, the formatter reads the EOD block at the image's EOD position and marks the image stale if absent. (R216) -/
  | eodBlockCheck (found : Bool) (io : Io)
  /-- The end-of-data search stops at an EOD block, stale billet, blank run or missing ledger block, sets the record limit and issues an image. (R219) -/
  | eodSearchEnd (noBlock : Bool) (io : Io)
  /-- READ_CHANNEL_STATS returns per-channel read-channel statistics records, optionally clearing them. (R177) -/
  | readChannelStats (r : MbReq)
  /-- SERVO_STATUS returns the latest servo estimate as a 64-byte record. (R202) -/
  | servoStatus (r : MbReq)
  /-- COMPRESS_STATS returns the compression statistics record, optionally clearing it. (R244) -/
  | compressStats (r : MbReq)
  /-- SCRUB reads and classifies every burst of a Hearth range, repairing corrected bursts when REPAIR is set. (R397) -/
  | scrub (r : MbReq)
  /-- The end of a scrub completes SCRUB with its summary and posts SCRUB_DONE. (R397) -/
  | scrubDone (found : List ScrubHit)
  /-- SCALE_LOG_READ returns the scale log of corrected Hearth addresses, optionally emptying it. (R398) -/
  | scaleLogRead (r : MbReq)
  /-- HEARTH_CHANNEL_STATUS returns the Hearth configuration and a status record per channel. (R399) -/
  | hearthChannelStatus (r : MbReq)
  /-- SEC_GET_IDENTITY returns the device identity certificate chain. (R268) -/
  | secGetIdentity (r : MbReq)
  /-- SEC_CHALLENGE issues a fresh login nonce for the mailbox, replacing any unused one. (R266) -/
  | secChallenge (r : MbReq)
  /-- SEC_LOGIN checks a CMAC response against the mailbox nonce and authenticates a role or counts a failure towards lockout. (R266) -/
  | secLogin (r : MbReq)
  /-- SEC_LOGOUT ends the role authentication and KTK of the mailbox. (R266) -/
  | secLogout (r : MbReq)
  /-- SEC_KEY_AGREE validates a host ephemeral key, runs ECDH and sets the mailbox KTK. (R255) -/
  | secKeyAgree (r : MbReq)
  /-- SEC_COMMISSION sets the Crypto Officer key from a wrap and makes the formatter OPERATIONAL in approved mode. (R267) -/
  | secCommission (r : MbReq)
  /-- SEC_SET_AUTH loads a wrapped authentication key for a role. (R256) -/
  | secSetAuth (r : MbReq)
  /-- SEC_KEK_LOAD unwraps a KEK under the mailbox KTK into a KEK slot. (R256) -/
  | secKekLoad (r : MbReq)
  /-- SEC_KEK_ERASE erases a KEK slot. (R268) -/
  | secKekErase (r : MbReq)
  /-- SEC_KEY_LOAD unwraps a data key into a slot, making it the current generation and retaining or zeroizing the old one. (R259) -/
  | secKeyLoad (r : MbReq)
  /-- SEC_KEY_ERASE marks a data-key slot as erasing until its generations have no users. (R260) -/
  | secKeyErase (r : MbReq)
  /-- When both generations of an erasing slot have no users they are zeroized and SEC_KEY_ERASE completes. (R260) -/
  | keyEraseComplete (slot : Fin 64)
  /-- SEC_SLOT_INFO returns state, generations, labels and user counts of data-key slots. (R268) -/
  | secSlotInfo (r : MbReq)
  /-- SEC_SET_MODE changes SEC_APPROVED, zeroizing KEKs, slots and KTKs, or SEC_ALLOW_PLAIN. (R273) -/
  | secSetMode (r : MbReq)
  /-- The SEC_ZEROIZE mailbox command zeroizes one data slot or performs a full zeroize. (R271) -/
  | secZeroize (r : MbReq)
  /-- SEC_SELFTEST runs the power-on security test set again while service continues. (R270) -/
  | secSelftest (r : MbReq)
  /-- The end of a security self-test run serves or rejects the held requests and enters or leaves ERROR. (R270) -/
  | secSelftestEnd (ok : Bool) (pairs : List (Fin 80)) (io : Io)
  /-- A failure of the continuous noise-source health tests withholds DRBG output and enters ERROR after 3 failures within 1 s. (R270) -/
  | entropyHealthFail
  /-- A login nonce becomes invalid 10 s after issue. (R266) -/
  | nonceExpiry (mb : Fin 16)
  /-- 60 s after a lockout began, LOCKED_OUT clears and the failure count returns to zero. (R266) -/
  | lockoutEnd
  /-- A write to the SEC_ZEROIZE register with 0x5A5A and bit 15 set performs a full zeroize without firmware. (R275) -/
  | secZeroizeFullWrite
  /-- A write to the SEC_ZEROIZE register with 0x5A5A and bit 15 clear zeroizes the named data-key slot. (R275) -/
  | secZeroizeSlotWrite (slot : Fin 64)
  /-- FW_INFO returns the running, slot, boot-slot and staged firmware versions and the fuse floor. (R353) -/
  | fwInfo (r : MbReq)
  /-- FW_DOWNLOAD stages a piece of a firmware image in the Hearth. (R353) -/
  | fwDownload (r : MbReq)
  /-- FW_COMMIT checks the staged image, writes it to the inactive flash slot and marks that slot as the boot slot. (R353) -/
  | fwCommit (r : MbReq)
  /-- FW_ACTIVATE reads and rechecks the boot-slot image and waits for the conditions of a hot activation. (R354) -/
  | fwActivate (r : MbReq)
  /-- When the guard, fill and ledger conditions hold, fetch pauses and new mailbox requests are held. (R354) -/
  | activationDrain
  /-- When the drain completes with the guard still holding, Smithy stops and the new image is loaded. (R354) -/
  | blackoutStart
  /-- The new firmware becomes ready, FW_ACTIVATED is posted, fetch resumes and held requests are served. (R354) -/
  | firmwareReady
  /-- New firmware not ready 200 ms after the blackout began restarts the previous image and fails FW_ACTIVATE. (R354) -/
  | activationFallback
  /-- The blackout not started within ACT_DRAIN_MAX resumes fetch and fails FW_ACTIVATE with detail 0x0004. (R354) -/
  | actDrainMaxExpiry
  /-- POWER_SET moves the formatter directly to a target power state. (R356) -/
  | powerSet (r : MbReq)
  /-- Continuous idleness in P0 for PWR_IDLE_P1 enters P1. (R356) -/
  | pwrIdleP1Expiry
  /-- PWR_IDLE_P2 in P1 enters P2. (R356) -/
  | pwrIdleP2Expiry
  /-- PWR_IDLE_P3 in P2 enters P3. (R356) -/
  | pwrIdleP3Expiry
  /-- A wake event brings the formatter to P0, abandoning or completing an entry in progress according to PWR_ARRIVAL. (R357) -/
  | wakeEvent
  /-- Completion of a power-state entry reaches the target state, posts POWER_STATE and exits at once if a wake arrived under PWR_ARRIVAL = 1. (R358) -/
  | powerEntryComplete
  /-- Writing ENABLE = 1 enables the queues, or sets ENABLE_PENDING during an orderly shutdown. (R362) -/
  | globalEnable
  /-- ENABLE from 1 to 0 or SHUTDOWN_REQ 0b01 pauses fetch, completes fetched commands, ends writing and stops the tape. (R360) -/
  | orderlyShutdown (viaEnable : Bool)
  /-- SHUTDOWN_REQ 0b10 deletes every pair, ends writing as at a write abort and stops the tape. (R361) -/
  | abruptShutdown
  /-- When a shutdown's commands and writing have ended, ENABLED clears, SHUTDOWN becomes complete and a pending enable takes effect. (R360) -/
  | shutdownComplete
  /-- SELFTEST_START begins a short or extended self-test of the selected block classes and returns a test identifier. (R364) -/
  | selftestStart (r : MbReq)
  /-- SELFTEST_ABORT ends the running test within one slice. (R365) -/
  | selftestAbort (r : MbReq)
  /-- SELFTEST_RESULT returns the result record of one of the last 16 tests. (R365) -/
  | selftestResult (r : MbReq)
  /-- The end of a self-test quarantines failed units and posts SELFTEST_DONE. (R364) -/
  | selftestDone (failed : List (Nat × Nat))
  /-- A test slice of a singleton block runs, holding or yielding to requests that arrive during it. (R436) -/
  | singletonTestSlice (cls : Nat) (request : Bool)
  /-- Every BIST_INTERVAL the next unit of each pooled class is tested. (R437) -/
  | bistIntervalTick (failed : List Nat)
  /-- CAL_EXPORT writes the EEPROM calibration set to host memory as it stands. (R425) -/
  | calExport (r : MbReq)
  /-- CAL_WRITE checks and writes a new calibration set to the EEPROM and loads it. (R425) -/
  | calWrite (r : MbReq)
  /-- LANE_STATUS returns the calibration state and a status record per port. (R426) -/
  | laneStatus (r : MbReq)
  /-- UNIT_CONTROL quarantines, tests, retrains or swaps a unit. (R431) -/
  | unitControl (r : MbReq)
  /-- TWIN_PAIR exchanges and checks identities over M2 and writes or deletes the pairing record. (R438) -/
  | twinPair (r : MbReq)
  /-- TWIN_SWAP exchanges active and standby roles at a heat boundary while streaming continues. (R445) -/
  | twinSwap (r : MbReq)
  /-- TWIN_STATUS returns the twin status record. (R446) -/
  | twinStatus (r : MbReq)
  /-- BENCH_CONTROL enters, loads, supplies, runs or exits bench-mode replay of a Flaon journal. (R452) -/
  | benchControl (r : MbReq)
  /-- SNAPSHOT_READ copies a range of the journal or a snapshot ring to host memory. (R451) -/
  | snapshotRead (r : MbReq)
  /-- TIME_CMD SET loads the counter from TIME_SET_SEC and TIME_SET_NS and sets VALID. (R462) -/
  | timeSet
  /-- TIME_CMD STEP adds TIME_PHASE to the counter at once. (R462) -/
  | timeStep
  /-- TIME_CMD SLEW absorbs TIME_PHASE by adjusting the increment by ±100 ppm. (R462) -/
  | timeSlew
  /-- A slew ends when its offset has been absorbed and SLEWING clears. (R462) -/
  | slewEnd
  /-- A write of TIME_FREQ changes the counter's rate from the next 400 MHz cycle. (R460) -/
  | timeFreqWrite (v : BitVec 32)
  /-- A read of TIME_NS latches TIME_FRAC and TIME_SEC from the same cycle. (R461) -/
  | timeNsRead
  /-- A write to JNL_TRIGGER triggers snapshot cause 5. (R450) -/
  | jnlTrigger
  /-- A write to JNL_RESUME ends a freeze of the journal and rings. (R450) -/
  | jnlResume
  /-- After a trigger the rings record for SNAP_POST of their length and then freeze if FREEZE is set. (R450) -/
  | snapPostEnd
  /-- Every 1 ms and at every parameter change the journal writes a MARKER entry. (R447) -/
  | journalMarker
  /-- A channel scheduler serves one access in priority order, checking ECC and row-disturbance counts on the way. (R376) -/
  | hearthAccess (req : Nat) (addr : Nat) (kind : Fin 3) (errs : List (Fin 80 × BitVec 8)) (errs2 : List (Fin 80 × BitVec 8)) (feed : Nat) (ra : Nat)
  /-- Each tREFI a rank is due a REFab, which is issued, postponed under panic or forced at a debt of 4. (R378) -/
  | refreshDue (chan : Fin 8) (rank : Fin 4)
  /-- Every 31.2 µs the refresh-rate indicators of all ranks are read, and a change to the doubled rate converts and pays every debt at once. (R379) -/
  | refreshRateIndicatorRead (doubled : Bool) (above : Bool)
  /-- Every 32 ms each sub-channel clears its summary of most frequently activated rows. (R382) -/
  | hotRowWindowClear (chan : Fin 8) (sub : Fin 2)
  /-- A rank with no queued request for HRT_PD_IDLE enters power-down. (R383) -/
  | rankPowerDown (chan : Fin 8) (rank : Fin 4)
  /-- Every HRT_OSC_PERIOD each rank runs its DQS oscillator and drift triggers a micro-retraining. (R385) -/
  | dqsOscillator (chan : Fin 8) (rank : Fin 4) (drift : Int)
  /-- A scheduled full retraining of a channel starts at a turnaround, a stop or HRT_RETRAIN_DEFER. (R386) -/
  | fullRetrainingStart (chan : Fin 8)
  /-- The end of a full retraining returns the channel to service or fails it and settles the loss. (R387) -/
  | fullRetrainingEnd (chan : Fin 8) (ok : Bool) (eyes : Eyes)
  /-- When fewer than FORM_LEAD heats wait and every channel has window, the Forge Sequencer forms the next billet heat. (R121) -/
  | formBilletHeat
  /-- A compression engine compresses one CU with checking decompression, falling back to the stored encoding when abandoned. (R225) -/
  | cuCompress (engine : Fin 24) (mismatch : Bool) (io : Io)
  /-- An AES pair pads, encrypts and authenticates one CU under AES-256-GCM. (R248) -/
  | cuSeal (pair : Fin 80) (mismatch : Bool)
  /-- A C1 encoder pushes a cell onto a channel's write list, or stalls when the list is full or no cell is free. (R126) -/
  | anvilPush (chan : Fin 1024)
  /-- A head port pops a cell from a channel's write list, writing slag fill or cutting an underrun frame when empty. (R125) -/
  | anvilPop (chan : Fin 1024) (word : Fin 8) (err : BitVec 64)
  /-- At each heat boundary the heat controller makes the coming heat a billet heat, a rewrite heat or no heat, and applies retirements and train closes. (R118) -/
  | heatBoundary
  /-- At the end of a wrap's data area the final train closes, the drain is written and the wrap changes. (R62) -/
  | wrapChange
  /-- A verify decode completes and gives a frame PASS, QUALITY, DECODE, COMPARE or POISON, releasing or rewriting it. (R131) -/
  | verifyVerdict (chan : Fin 1024) (cell : Fin 16) (word : Fin 8) (err : BitVec 64)
  /-- A frame without a verdict within VFY_TIMEOUT frame times receives TIMEOUT and is re-formed. (R135) -/
  | verifyTimeout (chan : Fin 1024)
  /-- A frame is re-formed from its raw copy and packing descriptor and pushed to the head of its write list. (R136) -/
  | reform (wrong : List (Fin 24)) (disputed : Bool)
  /-- Every 5 µs the servo unit fits the five-band estimate and runs the fine loop, write-clock steering and Quench checks. (R186) -/
  | servoEstimate
  /-- Every 0.25 µs the fast path computes reader positions and checks the write-inhibit threshold. (R183) -/
  | fastPathEstimate
  /-- Worst-element errors within SV_WI_RESUME for QUENCH_HOLD release Quench. (R190) -/
  | quenchRelease
  /-- On every TL_DIV-th estimate in FULL the tilt loop updates TILT_CMD. (R196) -/
  | tiltUpdate
  /-- TILT_CMD near an end of its range for 1 ms, and every TH_PERIOD after, sends a tension hint to the motion controller. (R197) -/
  | tensionHint
  /-- A servo port receives a servo flit of reader samples, TILT_SENSE and driver status. (R199) -/
  | servoFlit (sp : Fin 2) (flit0 : Bytes) (flit1 : Bytes)
  /-- A head port receives a sample flit, or substitutes zeros and flags bits when it is lost. (R409) -/
  | sampleFlit (port : Fin 16) (flit : Bytes) (aligned : Bool)
  /-- A receive lane status word carries front-end status or a management response. (R408) -/
  | laneStatusWord (port : Fin 18) (logical : Fin 9) (w : BitVec 64)
  /-- A management response completes the port's outstanding register or EEPROM request. (R421) -/
  | managementResponse (port : Fin 18) (w : BitVec 64)
  /-- A management request without response within 64 superframes is resent with the same tag. (R421) -/
  | managementTimeout (port : Fin 18)
  /-- Each 40 ns the formatter sends a transmit superframe with control, steering, write data and management words. (R411) -/
  | transmitSuperframe (port : Fin 18)
  /-- Four consecutive missed markers declare a lane unaligned. (R406) -/
  | laneAlignmentLoss (port : Fin 18) (lane : Fin 13)
  /-- A lane fault or request starts a hitless swap of a logical lane to the spare. (R419) -/
  | laneSwap (port : Fin 18) (logical : Fin 11) (bip : BitVec 16)
  /-- After the spare's BIP-8 check the swap switches the lane, or is abandoned and the port retrained. (R419) -/
  | laneSwapComplete (port : Fin 18) (errors : Bool)
  /-- A port going DOWN is retrained at once, dropping frames and holding write gate off while writing. (R420) -/
  | portDown (port : Fin 18)
  /-- Completion of port training maps the lanes and brings the port UP or leaves it DOWN. (R418) -/
  | portTrainingComplete (port : Fin 18) (aligned : List (Fin 13)) (failed : List (Fin 13)) (eeprom : Bytes)
  /-- A port still DOWN after TL_RETRAIN_MAX ends writing as at a write abort. (R420) -/
  | retrainMaxExpiry (port : Fin 18)
  /-- A lane searches the sync window of a frame item and accepts a data or slag mark, or misses it. (R168) -/
  | syncMarkWindow (lane : Fin 1024)
  /-- A C1 decode of a read copy ends in success or failure and hands the accepted frame to its billet. (R89) -/
  | c1DecodeDone
  /-- Second look retries a captured frame at the next shifted alignment. (R174) -/
  | secondLookTry (lane : Fin 1024)
  /-- A second-look capture is released 64 µs after its last bit. (R173) -/
  | captureExpiry (lane : Fin 1024)
  /-- At home heat + C2_HOLD the formatter first attempts C2 on a billet or parks it. (R97) -/
  | c2Attempt (heat : BitVec 24)
  /-- At home heat + 511 a billet's erased set becomes final. (R97) -/
  | billetFinal (heat : BitVec 24)
  /-- When all 64 positions of an ingot are final, C3 rebuilds its billets and rechecks their CRCs. (R107) -/
  | c3Decode
  /-- When the tape leaves a segment each lane computes the zone's temper entry. (R165) -/
  | temperSegmentEnd
  /-- RA_IDLE after the last queued read completes stops the tape. (R207) -/
  | raIdleExpiry
  /-- Delivery reaching a record with an unrecovered billet starts a reread attempt of its train. (R208) -/
  | rereadStart
  /-- The end of a reread pass repositions for the next attempt or resumes streaming. (R208) -/
  | rereadPassEnd
  /-- A CU is decrypted, decompressed and its tag or CRC checked, and its gating buffer is released to DMA. (R204) -/
  | cuDelivery (io : Io)
  /-- The formatter consumes a motion report from the motion SQ. (R296) -/
  | motionReport (e : Bytes)
  /-- A request without a report within 10 ms, or 10 ms without a report while moving, posts MOTION_FAULT. (R294) -/
  | motionFault
  /-- Every 100 µs the peer-link engine sends a heartbeat over M2. (R439) -/
  | heartbeat
  /-- The standby receives and confirms a mirror item from the active. (R440) -/
  | mirrorItem (m : MirrorItem)
  /-- The active receives the standby's verdict and codeword digest for a frame. (R441) -/
  | standbyVerdict (serial : BitVec 32) (j : Fin 126) (pass : Bool) (crc : BitVec 32)
  /-- A standby whose copy is complete and slots match becomes ARMED. (R439) -/
  | twinArmed (slotsMatch : Bool)
  /-- Die 1 hearing nothing over M2 within 10 s of READY claims every port and runs as active. (R439) -/
  | peerSilentAtBoot
  /-- 1 ms without traffic on M2 starts a takeover on the standby or single operation on the active. (R442) -/
  | m2Silence
  /-- A FAULT from the active starts a takeover on the standby. (R442) -/
  | peerFault
  /-- A HANDOVER from the active during TWIN_SWAP makes the standby claim the ports. (R445) -/
  | handover
  /-- A port refusing the claim for 300 µs abandons the takeover and posts PEER_LINK_DOWN. (R442) -/
  | claimRefusedTimeout
  /-- Every port having honoured the claim makes the standby active and re-forms owed frames. (R443) -/
  | twinTakeover
  /-- The new active die posts replayed completions and events for every pair. (R333) -/
  | replayedCompletions
  /-- The JTAG DEBUG_UNLOCK instruction performs a full zeroize and then opens the debug bridge, forcing APPROVED to 0 until power-on reset. (R475) -/
  | debugUnlock
  /-- A lane in ACQUIRE finds the preamble, acquires phase and accepts the first matching data or slag mark, entering TRACK. (R167) -/
  | acquireMarkAccepted (lane : Fin 1024)
  /-- M2 finishes training after READY (or when a failed die runs again), the peer is heard and a standby begins SYNCING. (R439) -/
  | m2TrainingComplete (rate : Nat) (owned : Bool) (copyMib : BitVec 32)
  /-- The duplicated copies of a streaming singleton (classes 0x10 to 0x13) disagree, ending writing as at a write abort, or sending FAULT in an armed twin. (R432) -/
  | streamingSingletonFault (cls : Fin 4)
  /-- A Smithy pair's lockstep comparison fails and the interrupted task restarts on another pair from its last commit point. (R432) -/
  | smithyLockstepFault (pair : Fin 4)
  /-- At the first tape stop after every 24 h, classes 0x11 to 0x13 run their logic and memory BIST. (R437) -/
  | dailySingletonTest (failed : List (Fin 3))
  /-- The write and read-back of the inactive image slot end, the boot-slot mark is written, the fuse floor is raised if asked, and FW_COMMIT completes. (R353) -/
  | fwCommitComplete
deriving DecidableEq, Repr

end Sys2Proof
end

