-- ==== Sys2Proof/Machine/Gf.lean ====
section
/-! DEFINITION. Arithmetic of GF(2^8) (R81), Reed–Solomon encoding and decoding of errors and erasures in the symbol order
of R82, and the cyclic redundancy checks (Table 02-6, Table 02-7). -/

namespace Sys2Proof.Machine

/-- Product by α: shift, and reduction by 0x11D (R81). -/
def gfX (a : Byte) : Byte := if a.getLsbD 7 then (a <<< 1) ^^^ 0x1D else a <<< 1

/-- Product in GF(2^8): the multiples α^i a of the set bits of b, added. -/
def gfMul (a b : Byte) : Byte :=
  ((List.range 8).foldl (fun (acc : Byte × Byte) i =>
    (if b.getLsbD i then acc.1 ^^^ acc.2 else acc.1, gfX acc.2)) (0, a)).1

/-- α to the power `n`, by `n` products by α. -/
def gfXPow : Nat → Byte
  | 0 => 1
  | n + 1 => gfX (gfXPow n)

/-- α to the power `n`, its order being 255. -/
def alphaPow (n : Nat) : Byte := gfXPow (n % 255)

/-- Inverse of a non-zero element: its 254th power, the product of its powers 2, 4, …, 128. -/
def gfInv (a : Byte) : Byte :=
  ((List.range 7).foldl (fun (s : Byte × Byte) _ => (gfMul s.1 (gfMul s.2 s.2), gfMul s.2 s.2)) (1, a)).1

/-! ## Reed–Solomon codes with first root α^0 -/

/-- The generator of `r` roots α^0 to α^(r−1), highest coefficient (1) left out, from x^(r−1) down to x^0 (R93, R102). -/
def rsGenerator : Nat → List Byte
  | 0 => []
  | n + 1 =>
    let g := rsGenerator n
    List.zipWith (· ^^^ ·) (g ++ [0]) ((1 :: g).map (gfMul (alphaPow n)))

/-- One symbol enters the remainder register of generator `g`. -/
def rsStep (g : List Byte) (reg : List Byte) (d : Byte) : List Byte :=
  let f := d ^^^ reg.headD 0
  List.zipWith (fun a b => a ^^^ gfMul f b) (reg.drop 1 ++ [0]) g

/-- The parity symbols: remainder of d(x) x^r by the generator, first symbol first (R93, R102). -/
def rsParity (r : Nat) (data : Bytes) : Bytes :=
  let g := rsGenerator r
  data.foldl (rsStep g) (List.replicate r 0)

/-- c(α^i) of a word whose position m is the coefficient of x^(n−1−m) (R82). -/
def rsEval (word : Bytes) (i : Nat) : Byte :=
  let x := alphaPow i
  word.foldl (fun a c => gfMul a x ^^^ c) 0

/-- The `r` syndromes of a word. -/
def rsSyndromes (r : Nat) (word : Bytes) : Bytes := (List.range r).map (rsEval word)

/-- Solution of a square linear system over GF(2^8), each row a coefficient list with its right side; none if singular. -/
def gfSolve : Nat → List (Bytes × Byte) → Option Bytes
  | 0, _ => some []
  | n + 1, rows =>
    match rows.find? (fun r => r.1.headD 0 ≠ 0) with
    | none => none
    | some p =>
      let inv := gfInv (p.1.headD 0)
      let pr := p.1.map (gfMul inv)
      let pb := gfMul inv p.2
      let rest := (rows.eraseP (fun r => r.1.headD 0 ≠ 0)).map (fun r =>
        let f := r.1.headD 0
        ((List.zipWith (fun a b => a ^^^ gfMul f b) r.1 pr).drop 1, r.2 ^^^ gfMul f pb))
      match gfSolve n rest with
      | none => none
      | some xs => some ((List.zipWith gfMul (pr.drop 1) xs).foldl (· ^^^ ·) pb :: xs)

/-- Values at given positions that bring the first syndromes of `word` (positions taken as they are) to zero. -/
def rsValues (n : Nat) (syn : Bytes) (pos : List Nat) : Option Bytes :=
  gfSolve pos.length ((List.range pos.length).map (fun i =>
    (pos.map (fun p => alphaPow (i * (n - 1 - p))), syn.getD i 0)))

/-- The word with `vals` added at `pos`. -/
def rsFix (word : Bytes) (pos : List Nat) (vals : Bytes) : Bytes :=
  (pos.zip vals).foldl (fun w pv => modAt w pv.1 (· ^^^ pv.2)) word

/-- Erasure locator: the product of (1 + α^(n−1−p) x) over the positions, lowest coefficient first. -/
def rsLocator (n : Nat) (pos : List Nat) : Bytes :=
  pos.foldl (fun g p =>
    List.zipWith (· ^^^ ·) (g ++ [0]) (0 :: g.map (gfMul (alphaPow (n - 1 - p))))) [1]

/-- Forney syndromes: coefficients e to r−1 of locator × syndromes. -/
def rsForney (r : Nat) (loc syn : Bytes) (e : Nat) : Bytes :=
  (List.range (r - e)).map (fun k =>
    (List.range (e + 1)).foldl (fun a j => a ^^^ gfMul (loc.getD j 0) (syn.getD (e + k - j) 0)) 0)

/-- Positions of `v` unknown errors outside the erasures: the roots of the locator that the Forney syndromes give; none
unless it has exactly `v` distinct roots there (R98). -/
def rsFind (n r : Nat) (syn : Bytes) (er : List Nat) (v : Nat) : Option (List Nat) :=
  let t := rsForney r (rsLocator n er) syn er.length
  -- t(k + v) = Σ_{j=1..v} σ_j t(k + v − j)
  match gfSolve v ((List.range v).map (fun k =>
      ((List.range v).map (fun j => t.getD (k + v - 1 - j) 0), t.getD (k + v) 0))) with
  | none => none
  | some sig =>
    let roots := (List.range n).filter (fun p =>
      let x := alphaPow (255 - (n - 1 - p) % 255)
      ((List.range v).foldl (fun (a : Byte × Byte) j => (a.1 ^^^ gfMul (sig.getD j 0) (gfMul a.2 x), gfMul a.2 x)) (1, 1)).1 = 0)
    if roots.length = v && roots.all (fun p => !er.contains p) then some roots else none

/-- Decoding of erasures and `v` unknown errors: the corrected word and the error positions, accepted only if every
syndrome of the result is zero (R98). Erased positions enter as zero. -/
def rsTry (n r : Nat) (word : Bytes) (er : List Nat) (v : Nat) : Option (Bytes × List Nat) :=
  let syn := rsSyndromes r word
  match (if v = 0 then some [] else rsFind n r syn er v) with
  | none => none
  | some ep =>
    let pos := er ++ ep
    match rsValues n syn pos with
    | none => none
    | some vals =>
      let w := rsFix word pos vals
      if (rsSyndromes r w).all (· = 0) && (vals.drop er.length).all (· ≠ 0) then some (w, ep) else none

/-- Decoding with the least number of unknown errors, up to `vmax` (R98). -/
def rsDecode (n r : Nat) (word : Bytes) (er : List Nat) (vmax : Nat) : Option (Bytes × List Nat) :=
  let word := er.foldl (fun w p => modAt w p (fun _ => 0)) word
  (List.range (vmax + 1)).findSome? (fun v => if 2 * v + er.length ≤ r then rsTry n r word er v else none)

/-! ## Cyclic redundancy checks -/

/-- CRC-16 of Table 02-6: x^16 + x^12 + x^5 + 1, initial value 0xFFFF, not reflected, no final exclusive or. -/
def crc16 (b : Bytes) : BitVec 16 :=
  b.foldl (fun (c : BitVec 16) (x : Byte) =>
    (List.range 8).foldl (fun (c : BitVec 16) _ => if c.getLsbD 15 then (c <<< 1) ^^^ 0x1021 else c <<< 1)
      (c ^^^ (BitVec.ofNat 16 (x.toNat * 256)))) 0xFFFF

/-- The register of CRC-32C after some bytes. -/
def crc32cUpdate (c : BitVec 32) (b : Bytes) : BitVec 32 :=
  b.foldl (fun c x =>
    (List.range 8).foldl (fun (c : BitVec 32) _ => if c.getLsbD 0 then (c >>> 1) ^^^ 0x82F63B78 else c >>> 1)
      (c ^^^ x.setWidth 32)) c

/-- CRC-32C as in RFC 3720 (Table 02-7). -/
def crc32c (b : Bytes) : BitVec 32 := crc32cUpdate 0xFFFFFFFF b ^^^ 0xFFFFFFFF

end Sys2Proof.Machine
end

