-- ==== Sys2Proof/Machine/C1.lean ====
section
/-! DEFINITION. C1 (R83 to R90, R108, R109), C2 and C3 (R93 to R106) on plain data, and the frame's bit construction:
scrambler, modulation, NRZI channel bits (R47 to R52). -/

namespace Sys2Proof.Machine

/-! ## Bits and bytes -/

/-- Bits of a byte, most significant first (R47). -/
def byteBits (b : Byte) : List Bool := (List.range 8).map (fun i => b.getLsbD (7 - i))

/-- Bits of a byte string, each byte most significant bit first. -/
def bytesBits (b : Bytes) : List Bool := b.flatMap byteBits

/-- The number whose binary digits are the list, most significant first. -/
def bitsNat (b : List Bool) : Nat := b.foldl (fun a x => 2 * a + b2n x) 0

/-- Bytes of a bit list, eight bits each, most significant first. -/
def bitsBytes : List Bool → Bytes
  | a :: b :: c :: d :: e :: f :: g :: h :: r => byte (bitsNat [a, b, c, d, e, f, g, h]) :: bitsBytes r
  | _ => []

/-- The `n` low bits of a number, most significant first. -/
def natBits (n v : Nat) : List Bool := (List.range n).map (fun i => bitAt v (n - 1 - i))

/-! ## QC-LDPC (R83 to R85) -/

/-- s(r, c) of R84. -/
def ldpcShift (r c : Nat) : Nat := (r * (5 * c + 3) + 9 * c) % 128

/-- Block columns of block row `r` that are not zero blocks: 0 to 60 + r (Table 03-2). -/
def ldpcCols (r : Nat) : List Nat := List.range (61 + r)

/-- Codeword bits that check `i` of block row `r` covers (R83). -/
def ldpcRow (r i : Nat) : List Nat := (ldpcCols r).map (fun c => 128 * c + (i + ldpcShift r c) % 128)

/-- One parity bit of R85: the sum over block columns 0 to 59 + r. -/
def ldpcParityBit (x : Array Bool) (r i : Nat) : Bool :=
  (List.range (60 + r)).foldl (fun t c => xor t (x.getD (128 * c + (i + ldpcShift r c) % 128) false)) false

/-- The codeword of 7,680 payload bits by back-substitution (R85). -/
def c1EncodeBits (payload : List Bool) : Array Bool :=
  let x0 := (payload ++ List.replicate (8192 - payload.length) false).toArray
  (List.range 4).foldl (fun x r =>
    (List.range 128).foldl (fun y i =>
      y.setIfInBounds (128 * (60 + r) + (i + ldpcShift r (60 + r)) % 128) (ldpcParityBit x r i)) x) x0

/-- C1 of a 960-byte frame payload: the 1,024-byte codeword (R47, R85). -/
def c1Encode (payload : Bytes) : Bytes := bitsBytes (c1EncodeBits (bytesBits (fit 960 payload))).toList

/-- Check `i` of block row `r` is satisfied. -/
def ldpcCheck (x : Array Bool) (r i : Nat) : Bool :=
  !((ldpcRow r i).foldl (fun t n => xor t (x.getD n false)) false)

/-- All 512 checks are satisfied. -/
def ldpcOk (x : Array Bool) : Bool := (List.range 4).all (fun r => (List.range 128).all (ldpcCheck x r))

/-- A codeword satisfies H (R131, COMPARE). -/
def c1Valid (word : Bytes) : Bool := ldpcOk (bytesBits (fit 1024 word)).toArray

/-! ## Layered normalised min-sum (R86, R87) -/

/-- Decoder memory: bit posteriors and check-to-bit messages by check and edge. -/
structure C1Mem where
  post : Array Int
  msg : Array Int

/-- Update of one check: messages floor(3 min ÷ 4) of the other edges, 6-bit sign-magnitude; posteriors saturate at ±127 (R87). -/
def c1Check (m : C1Mem) (r i : Nat) : C1Mem :=
  let row := ldpcRow r i
  let base := (128 * r + i) * 64
  let q := row.mapIdx (fun k n => (n, m.post.getD n 0 - m.msg.getD (base + k) 0))
  let neg := q.foldl (fun t e => xor t (e.2 < 0)) false
  let mags := q.map (fun e => e.2.natAbs)
  let m1 := mags.foldl min 1000
  let once := (mags.filter (· = m1)).length = 1
  let m2 := if once then (mags.filter (· ≠ m1)).foldl min 1000 else m1
  (q.zipIdx).foldl (fun m e =>
    let v := e.1.2
    let other := if v.natAbs = m1 && once then m2 else m1
    let mag : Nat := min 31 (3 * other / 4)
    let w : Int := if xor neg (v < 0) then -(mag : Int) else mag
    { post := m.post.setIfInBounds e.1.1 (clampInt (-127) 127 (v + w)), msg := m.msg.setIfInBounds (base + e.2) w }) m

/-- One full iteration: layers 0 to 3 (R87). -/
def c1Iterate (m : C1Mem) : C1Mem :=
  (List.range 4).foldl (fun m r => (List.range 128).foldl (fun m i => c1Check m r i) m) m

/-- Hard decisions: a posterior of 0 or more is bit 0 (R87). -/
def c1Hard (m : C1Mem) : Array Bool := m.post.map (fun p => decide (p < 0))

/-- Iterations until all checks hold, at most the given number; the decided bits and the count used. -/
def c1Loop : Nat → Nat → C1Mem → Option (Array Bool) × Nat
  | 0, used, _ => (none, used)
  | n + 1, used, m =>
    let m := c1Iterate m
    let x := c1Hard m
    if ldpcOk x then (some x, used + 1) else c1Loop n (used + 1) m

/-- Report of a decode (R90). -/
structure C1Result where
  ok : Bool
  iters : Nat
  flips : Nat
  erased : Nat
  word : Bytes
deriving DecidableEq, Repr

/-- Bits with λ ≠ 0 decided against the sign of λ (R89). -/
def c1Flips (lam : List Int) (x : Array Bool) : Nat :=
  (lam.zip x.toList).foldl (fun n e => if e.1 ≠ 0 && decide (e.1 < 0) != e.2 then n + 1 else n) 0

/-- C1 decode under an iteration limit, C1_ERASE_MAX and C1_FLIP_MAX (R89). -/
def c1Decode (limit eraseMax flipMax : Nat) (lam : List Int) : C1Result :=
  let er := (lam.filter (· = 0)).length
  if eraseMax < er then { ok := false, iters := 0, flips := 0, erased := er, word := [] }
  else
    match c1Loop limit 0 { post := lam.toArray, msg := (List.replicate (512 * 64) (0 : Int)).toArray } with
    | (none, n) => { ok := false, iters := n, flips := 0, erased := er, word := [] }
    | (some x, n) =>
      let f := c1Flips lam x
      if f ≤ flipMax then { ok := true, iters := n, flips := f, erased := er, word := bitsBytes x.toList }
      else { ok := false, iters := n, flips := f, erased := er, word := [] }

/-! ## C1 of GK2 (R108, R109) -/

/-- Interleave `q` of a 1,024-byte codeword: symbols 0 to 255. -/
def gk2Symbols (word : Bytes) (q : Nat) : Bytes := (List.range 256).map (fun s => word.getD (4 * s + q) 0)

/-- One interleave of the extended RS(256,240): the 255-symbol code with its extension symbol treated as read, then as
erased; accepted with v ≤ `vmax` and 2v + e ≤ 16 over all 256 symbols (R109). -/
def gk2Interleave (vmax : Nat) (sym : Bytes) (er : List Nat) : Option Bytes :=
  let body := sym.take 255
  let ext := sym.getD 255 0
  let e255 := er.filter (· < 255)
  let extErased := er.contains 255
  -- the extension symbol is c(α^15): with it the word has 16 syndromes
  let fit := fun (w : Bytes) (v : Nat) =>
    let x := rsEval w 15
    let extBad := !extErased && x ≠ ext
    let vt := v + b2n extBad
    if 2 * vt + er.length ≤ 16 && vt ≤ vmax then some (w ++ [x]) else none
  (List.range (vmax + 1)).findSome? (fun v =>
    if 2 * v + e255.length ≤ 16 then
      -- fifteen syndromes of the inner code, and the sixteenth where the extension symbol is taken as read
      match (if 2 * v + e255.length ≤ 15 then rsTry 255 15 (e255.foldl (fun w p => modAt w p (fun _ => 0)) body) e255 v else none) with
      | some (w, ep) => fit w ep.length
      | none =>
        let full := rsSyndromes 15 (e255.foldl (fun w p => modAt w p (fun _ => 0)) body)
        let s15 := rsEval (e255.foldl (fun w p => modAt w p (fun _ => 0)) body) 15 ^^^ ext
        if extErased then none
        else
          match (if v = 0 then some [] else rsFind 255 16 (full ++ [s15]) e255 v) with
          | none => none
          | some ep =>
            match rsValues 255 (full ++ [s15]) (e255 ++ ep) with
            | none => none
            | some vals =>
              let w := rsFix (e255.foldl (fun w p => modAt w p (fun _ => 0)) body) (e255 ++ ep) vals
              if (rsSyndromes 15 w).all (· = 0) && rsEval w 15 = ext then fit w ep.length else none
    else none)

/-- The GK2 C1 decode of a frame: hard bits, a byte erased when any of its bits is flagged (λ = 0) (R109). -/
def gk2Decode (vmax : Nat) (lam : List Int) : C1Result :=
  let word := bitsBytes (lam.map (fun l => decide (l < 0)))
  let flagged := bitsBytes (lam.map (fun l => decide (l = 0)))
  let erBytes := (List.range 1024).filter (fun n => flagged.getD n 0 ≠ 0)
  let er := (lam.filter (· = 0)).length
  let parts := (List.range 4).map (fun q =>
    gk2Interleave vmax (gk2Symbols word q) ((erBytes.filter (· % 4 = q)).map (· / 4)))
  if parts.all (·.isSome) then
    let ps := parts.map (·.getD [])
    let out := (List.range 1024).map (fun n => (ps.getD (n % 4) []).getD (n / 4) 0)
    { ok := true, iters := 0, flips := 0, erased := er, word := out }
  else { ok := false, iters := 0, flips := 0, erased := er, word := [] }

/-! ## Scrambler, modulation and the frame item (R47 to R52) -/

/-- Seed of the scrambler (R48). -/
def scrSeed (wrap p : Nat) : Nat := 2 ^ 30 + (wrap % 128) * 2 ^ 10 + p % 1024

/-- `n` bits of the scrambler's sequence from a state (R48). -/
def scrBits : Nat → Nat → List Bool
  | 0, _ => []
  | n + 1, s =>
    let o := xor (bitAt s 30) (bitAt s 27)
    o :: scrBits n ((2 * s + b2n o) % 2 ^ 31)

/-- A codeword scrambled, or descrambled, for a wrap and physical channel. -/
def scramble (wrap p : Nat) (bits : List Bool) : List Bool := List.zipWith xor bits (scrBits bits.length (scrSeed wrap p))

/-- Longest run of equal bits. -/
def longestRun : List Bool → Nat → Nat → Option Bool → Nat
  | [], best, _, _ => best
  | b :: r, best, cur, prev =>
    let c := if prev = some b then cur + 1 else 1
    longestRun r (max best c) c (some b)

/-- A candidate of a 32-bit block: the flag, then d[i] xor (f and a[i]), a[i] = 1 for even i (R49). -/
def modCand (f : Bool) (d : List Bool) : List Bool := f :: d.mapIdx (fun i x => xor x (f && i % 2 = 0))

/-- 33 bits of a 32-bit block: the candidate with the shorter longest run, f = 0 on a tie (R49). -/
def modBlock (d : List Bool) : List Bool :=
  if longestRun (modCand true d) 0 0 none < longestRun (modCand false d) 0 0 none then modCand true d else modCand false d

/-- The list cut into blocks of `n`, at most `k` of them. -/
def blocksOf {α : Type} (n : Nat) : Nat → List α → List (List α)
  | 0, _ => []
  | k + 1, l => l.take n :: blocksOf n k (l.drop n)

/-- The modulated codeword: 256 blocks of 33 bits (R49). -/
def modulate (bits : List Bool) : List Bool := (blocksOf 32 (bits.length / 32) bits).flatMap modBlock

/-- Alternating bits 1, 0, the preamble pattern (Table 02-5). -/
def preamble (n : Nat) : List Bool := (List.range n).map (fun i => i % 2 = 0)

/-- Sync marks of data frames and of slag fill, most significant bit first (Table 02-5). -/
def syncData : List Bool := natBits 48 0x8000000001B5
def syncSlag : List Bool := natBits 48 0x80000000014A

/-- The pad 0xAAAA (Table 02-5). -/
def padBits : List Bool := natBits 16 0xAAAA

/-- Preamble and sync mark of a data frame. -/
def frameHead : List Bool := preamble 96 ++ syncData

/-- A slag fill item: preamble, slag mark, preamble pattern, pad (R51). -/
def slagItem : List Bool := preamble 96 ++ syncSlag ++ preamble 8448 ++ padBits

/-- Cell `i` of a codeword as channel bits: 16 blocks of 33 (R47 to R49). -/
def cellBits (word : Bytes) (wrap p i : Nat) : List Bool :=
  modulate (((scramble wrap p (bytesBits (fit 1024 word))).drop (512 * i)).take 512)

/-! ## C2 (R93, R98 to R101) and C3 (R102 to R105) -/

/-- Bytes of C2 column `m` of a list of 944-byte frames. -/
def column (frames : List Bytes) (m : Nat) : Bytes := frames.map (fun f => f.getD m 0)

/-- The 16 parity frames of a 103,840-byte billet payload (R56, R93). -/
def c2Parity (payload : Bytes) : List Bytes :=
  let data := blocksOf 944 110 payload
  let cols := (List.range 944).map (fun m => rsParity 16 (column data m))
  (List.range 16).map (fun i => cols.map (fun c => c.getD i 0))

/-- The 126 protected parts of a billet (R56). -/
def billetFrames (payload : Bytes) : List Bytes := blocksOf 944 110 payload ++ c2Parity payload

/-- Result of C2: columns as decoded (none where failed), suspect positions (R98, R99). -/
structure C2Result where
  cols : List (Option Bytes)
  suspects : List Nat
  /-- Some column needed a correction -/
  corrected : Bool

/-- All 944 columns with erasures E and at most `vmax` unknown errors. -/
def c2Columns (frames : List (Option Bytes)) (er : List Nat) (margin : Nat) (errs : Bool) : List (Option (Bytes × List Nat)) :=
  let fs := frames.map (·.getD (zeros 944))
  let vmax := if errs then (16 - margin - er.length) / 2 else 0
  (List.range 944).map (fun m => if er.length ≤ 16 then rsDecode 126 16 (column fs m) er vmax else none)

/-- C2 of a billet: frames by index, none where erased; the second pass withdraws suspect positions (R98, R99). -/
def c2Decode (frames : List (Option Bytes)) (margin : Nat) : C2Result :=
  let er := (List.range 126).filter (fun j => ((frames[j]?).join).isNone)
  let first := c2Columns frames er margin true
  let sus := (List.range 126).filter (fun j => first.any (fun c => match c with
    | some (_, ep) => ep.contains j
    | none => false))
  let cols := if sus = [] then first
    else if er.length + sus.length ≤ 16 then c2Columns frames (er ++ sus) margin false
    else List.replicate 944 none
  { cols := cols.map (·.map Prod.fst), suspects := sus,
    corrected := er ≠ [] || sus ≠ [] }

/-- The billet payload of decoded columns; a failed column reads as zero (R56). -/
def c2Payload (cols : List (Option Bytes)) : Bytes :=
  let cs := cols.map (·.getD (zeros 126))
  (List.range 110).flatMap (fun j => cs.map (fun c => c.getD j 0))

/-- The billet CRC of a data billet holds (Table 02-7). -/
def billetCrcOk (payload : Bytes) : Bool :=
  decide ((crc32c (payload.take 28 ++ payload.drop 32)).toNat = getBe payload 28 4)

/-- One C3 column: 64 bytes by position, erased positions; the rebuilt column or none (R105). -/
def c3Column (word : Bytes) (er : List Nat) : Option Bytes :=
  if er = [] then some word else if 4 < er.length then none else (rsDecode 64 4 word er 0).map Prod.fst

/-- A billet payload added into a C3 accumulator of four symbols per byte column (R104). -/
def c3Add (acc payload : Bytes) : Bytes :=
  let g := rsGenerator 4
  let a := acc.toArray
  let b := payload.toArray
  -- the accumulator holds the four symbols of x^3 to x^0, each as 103,840 bytes
  let regs := (List.range 103840).map (fun u =>
    rsStep g [a.getD u 0, a.getD (103840 + u) 0, a.getD (207680 + u) 0, a.getD (311520 + u) 0] (b.getD u 0))
  (List.range 4).flatMap (fun k => regs.map (fun r => r.getD k 0))

/-- `n` zero positions added (R103). -/
def c3Zeros (acc : Bytes) (n : Nat) : Bytes := n.repeat (fun a => c3Add a (zeros 103840)) acc

/-- Parity billet `k` of a closed accumulator (R102, R104). -/
def c3Billet (acc : Bytes) (k : Nat) : Bytes := slice acc (103840 * k) 103840

end Sys2Proof.Machine
end

