-- ==== Sys2Proof/Config.lean ====
section
/-! DEFINITION. The free values: what the spec leaves open, as constants that nothing can evaluate. Each is applied to the
State's counter of free values, or to the operands it depends on. -/

namespace Sys2Proof.Config

/-- Header of an inbound request on M0 or M1, as the journal records it (Table 15-9, log 20). -/
opaque linkHeader : Nat → BitVec 128

/-- Reason byte of a mailbox rejection whose detail the spec does not give, by opcode and check (R339, log 24). -/
opaque detail : Nat → Nat → BitVec 8

/-- The device identity private key, a P-384 scalar held in fuses (Table 09-3, log 28). -/
opaque identityKey : Nat

/-- DRBG output: the 16 bytes of a nonce, by the count of free values drawn (R255, R266, log 28). -/
opaque nonce : Nat → BitVec 128

/-- The device identity certificate chain in DER (R268, log 28). -/
opaque identityChain : Unit → List (BitVec 8)

/-- Activation thresholds of the DDR5 devices for RFM, initial and maximum; 0 where RFM is not required (R381, log 35). -/
opaque rfmInitial : Nat
opaque rfmMaximum : Nat

/-- The 8-tap, 64-phase interpolation filter: phase and the last 8 corrected samples, newest first (R152, log 13). -/
opaque interpolate : Nat → List Int → Int

/-- The built-in initial equaliser taps, by format and tap (R154, log 13). -/
opaque initialTap : Nat → Nat → Int

/-- An adapted tap, predictor, weight, phase or frequency word, or what a lane's tentative decisions keep: the adaptation's rounding and
order are not given. By a mark that is 0 while reading and the count of free values drawn, from 1 on, while verifying against known data; by
the lane's own state and parameters (R158); and by the place of the value (R153 to R155, log 13). -/
opaque adapted : Nat → List Int → Nat → Int

/-- A temper value where R165 would divide by zero, by the count of free values drawn (log 43). -/
opaque temperFree : Nat → Int

/-- The detector on its window: noise model, targets, 96 equaliser outputs, index of the bit: hard decision and magnitude of the soft
value (R155, R156, log 13). -/
opaque detectBit : List (Int × Int × Nat) → List Int → List Int → Nat → Bool
opaque detectSoft : List (Int × Int × Nat) → List Int → Nat → List Int → Nat → Nat

/-- A value that the spec does not give a rounding for is rounded up: the place, numerator, denominator (log 14). -/
opaque roundUp : Nat → Int → Int → Bool

/-- Amplitudes of tones A and B in a servo reader's window at a velocity (R183, log 42). -/
opaque toneA : List Int → Int → Nat
opaque toneB : List Int → Int → Nat

/-- Tape velocity in µm/s from the readers' windows and the velocity before (R184, log 42). -/
opaque tapeVelocity : List (List Int) → Int → Int

/-- Advance of LPOS over a window in 2^-8 µm, refined by the phase of tone A (R184, log 42). -/
opaque lposAdvance : List (List Int) → Int → Int

/-- LPOS symbols whose boundaries a reader passed in a window, in order of motion (R181, R182, log 42). -/
opaque lposSymbols : List Int → Int → List Bool

/-- A reader's longitudinal offset in 2^-8 µm from the phase of tone A (R186, log 42). -/
opaque alongOffset : List Int → Int → Int

/-- Place within an LPOS symbol, and offset of the reader from the array centre, in 2^-8 µm, refined by the phase of tone A (R184, log
42). -/
opaque lposPhase : List (List Int) → Int → Int

/-- Step of TILT_CMD while sin α is 0, which R196 divides by, by the count of free values drawn (R196, log 50). -/
opaque tiltStep : Nat → Int

/-- Mean of y over the measured bits, and mean x at the positive and negative peak levels, in quarter LSB (R165, log 43). -/
opaque temperMean : Nat → Int
opaque peakMean : Nat → Int × Int

/-- Channel bits sent where no item is being written (R410, log 44). -/
opaque idleBits : Nat → BitVec 64

/-- Decision log of a bench replay, its stop offset and reason (R452, log 45). -/
opaque benchLog : Nat → List (BitVec 8)
opaque benchStop : Nat → BitVec 64 × BitVec 8

/-- Length byte of a journal entry longer than 255 units of 16 bytes, by its sequence number (Table 15-8, log 55). -/
opaque entryLength : Nat → BitVec 8

/-- The alarms byte of a front-end status word tells of a steering slip (R408, R412, log 51). -/
opaque slipAlarm : BitVec 8 → Bool

/-- Outcome byte of a recovery report where Table 11-5 does not list the status, by the count of free values drawn (R326, log 49). -/
opaque openOutcome : Nat → BitVec 8

end Sys2Proof.Config
end

