-- ==== Sys2Proof/Machine/State.lean ====
section
/-! DEFINITION. The state of the DXF-4810 as plain data: one structure per block of the manual, every register,
queue, counter, mode and pin the spec names. The value after `:=` is the value after power-on reset; a docstring
names the width, the rule of spec/ and, where the spec gives no reset value, the log entry. -/

namespace Sys2Proof.Machine

open Sys2Proof

/-! ## Pins, clocks and time -/

/-- The phase of life: in power-on reset, running (BOOT ended with READY), or stopped at boot (R471, R473, R474). -/
inductive Phase where
  | inReset
  | running
  | bootFailed
deriving DecidableEq, Repr

/-- The pins of Table 16-5 that a rule reads or drives. -/
structure Pins where
  /-- PWRGOOD, 1 bit (16 R470, R471); reset: low is what causes the reset, DESIGN CHOICE false, log 6 -/
  pwrgood : Bool := false
  /-- TAMPER_N low now, 1 bit (09 Table 09-11, TAMPER follows the pin); reset: Pin, DESIGN CHOICE not low, log 6 -/
  tamperLow : Bool := false
  /-- SPD_REQ[1:0], 2 bits (04 R142); reset 0b00 -/
  spdReq : BitVec 2 := 0
  /-- SPD_ACK as last seen, 1 bit (04 R143: treated as low until first sampled high); reset 0 -/
  spdAck : Bool := false
  /-- PPS_OUT, 1 bit (16 R464); reset DESIGN CHOICE low, log 6 -/
  ppsOut : Bool := false
  /-- Cycles of 400 MHz left of the PPS_OUT pulse being driven, at most 255 ms (16 R464); reset 0 -/
  ppsLeft : Nat := 0
  /-- Forwarded references running, 1 bit (14 R404: whenever PWRGOOD is high); reset false -/
  refs : Bool := false
  /-- Write gate held low until power-on reset by a clock-monitor fault or thermal trip, 1 bit (16 R457, R476); reset 0 -/
  gateLocked : Bool := false
deriving DecidableEq, Repr

/-- Time unit (16 R459 to R465, Tables 16-3 and 16-4). -/
structure TimeUnit where
  /-- Seconds of the counter, 48 bits (16 R459); reset 0 -/
  sec : BitVec 48 := 0
  /-- Nanoseconds, 32 bits, 0 to 999,999,999 (16 R459); reset 0 -/
  ns : BitVec 32 := 0
  /-- Fraction and the 24 hidden bits, counted in 2^-40 ns ÷ 125, below 2^40 × 125 (16 R459, log 12); reset 0 -/
  sub : Nat := 0
  /-- Latched seconds TIME_SEC, 48 bits (16 R461); reset DESIGN CHOICE 0, log 6 -/
  latSec : BitVec 48 := 0
  /-- Latched fraction TIME_FRAC, 16 bits (16 R461); reset DESIGN CHOICE 0, log 6 -/
  latFrac : BitVec 16 := 0
  /-- TIME_SET_SEC, 48 bits, RWS (16 Table 16-3); reset 0 -/
  setSec : BitVec 48 := 0
  /-- TIME_SET_NS, 32 bits, RWS (16 Table 16-3); reset 0 -/
  setNs : BitVec 32 := 0
  /-- TIME_PHASE, signed 64 bits, RWS (16 Table 16-3); reset 0 -/
  phase : BitVec 64 := 0
  /-- TIME_FREQ (ADJ), signed 32 bits, RWS (16 R460); reset 0 -/
  adj : BitVec 32 := 0
  /-- Slew offset still to absorb, in 2^-40 ns ÷ 125, signed (16 R462); reset 0 -/
  slewLeft : Int := 0
  /-- SLEWING, 1 bit (16 Table 16-4); reset 0 -/
  slewing : Bool := false
  /-- VALID, 1 bit (16 Table 16-4); reset 0 -/
  valid : Bool := false
  /-- SET_REJECTED, 1 bit (16 Table 16-4); reset 0 -/
  setRejected : Bool := false
  /-- STEP_REJECTED, 1 bit (16 Table 16-4); reset 0 -/
  stepRejected : Bool := false
  /-- PPS_IN_SEEN, 1 bit (16 Table 16-4); reset 0 -/
  ppsSeen : Bool := false
  /-- PPS_IN_MISSED, 1 bit (16 Table 16-4); reset 0 -/
  ppsMissed : Bool := false
  /-- PPS_IN_SEC, 48 bits (16 Table 16-3); reset DESIGN CHOICE 0, log 6 -/
  ppsSec : BitVec 48 := 0
  /-- PPS_IN_NS, 32 bits (16 Table 16-3); reset DESIGN CHOICE 0, log 6 -/
  ppsNs : BitVec 32 := 0
  /-- PPS_IN_FRAC, 16 bits (16 Table 16-3); reset DESIGN CHOICE 0, log 6 -/
  ppsFrac : BitVec 16 := 0
  /-- PPS_IN_COUNT, 32 bits: edges since power-on (16 Table 16-3); reset 0 -/
  ppsCount : BitVec 32 := 0
  /-- PPS_OUT_CTL, 32 bits, RWS (16 Table 16-3); reset 0x0000_6400 -/
  ppsOutCtl : BitVec 32 := 0x6400
  /-- PPS_OUT_OFFSET, signed 32 bits, RWS (16 Table 16-3); reset 0 -/
  ppsOutOffset : BitVec 32 := 0
deriving DecidableEq, Repr

/-! ## Host interface: global block, interrupts, event queue, pairs, motion pair -/

/-- One MSI-X table entry and its pending bit (10 Table 10-4, R285; fields and masked reset PRESUMED from PCIe, log 7). -/
structure MsixEntry where
  /-- Message address, 64 bits; reset PRESUMED 0, log 7 -/
  addr : BitVec 64 := 0
  /-- Message data, 32 bits; reset PRESUMED 0, log 7 -/
  data : BitVec 32 := 0
  /-- Vector masked, 1 bit; reset PRESUMED true, log 7 -/
  masked : Bool := true
  /-- Pending bit, 1 bit; reset 0 -/
  pending : Bool := false
deriving DecidableEq, Repr

/-- Identity and global status block (10 Tables 10-5 to 10-7) and the link (10 R276). -/
structure Glob where
  /-- Phase of life (16 R471, R473); reset inReset -/
  phase : Phase := .inReset
  /-- IDENTITY[7:0] deliverable: 1 KG, 2 KGT, 8 bits (10 Table 10-5); read at boot, DESIGN CHOICE 1, log 6 -/
  deliverable : BitVec 8 := 1
  /-- SERIAL, 128 bits, the identity certificate's serial (10 Table 10-5); fused, DESIGN CHOICE zero until BOOT, log 6 -/
  serial : Bytes := List.replicate 16 0
  /-- READY, 1 bit (10 Table 10-6); reset 0 -/
  ready : Bool := false
  /-- ENABLED, 1 bit (10 Table 10-6); reset 0 -/
  enabled : Bool := false
  /-- GLOBAL_CONTROL ENABLE, 1 bit RW (10 Table 10-7); reset 0 -/
  enable : Bool := false
  /-- ENABLE_PENDING, 1 bit (10 Table 10-6); reset 0 -/
  enablePending : Bool := false
  /-- SHUTDOWN, 2 bits: 0 none, 1 in progress, 2 complete (10 Table 10-6); reset 0b00 -/
  shutdown : BitVec 2 := 0
  /-- The shutdown in progress is abrupt, 1 bit (12 R361); reset false -/
  abrupt : Bool := false
  /-- A shutdown asked for during a hot activation, 0 none, 1 orderly, 2 abrupt (12 R361); reset 0 -/
  shutdownAfterAct : BitVec 2 := 0
  /-- FATAL, 1 bit (10 Table 10-6); reset 0 -/
  fatal : Bool := false
  /-- LINK_DEGRADED, 1 bit (10 Table 10-6); reset 0 -/
  linkDegraded : Bool := false
  /-- Module M0 carries the link, 1 bit (10 R276); reset DESIGN CHOICE false, log 6 -/
  m0Up : Bool := false
  /-- Module M1 carries the link, 1 bit (10 R276); reset DESIGN CHOICE false, log 6 -/
  m1Up : Bool := false
  /-- Link rate in GT/s: 32, 24 or 16 (10 R276); reset DESIGN CHOICE 0, log 6 -/
  rate : Nat := 0
  /-- DOORBELL_ERRORS, 32 bits, saturating, cleared only at power-on reset (10 Table 10-5); reset 0 -/
  doorbellErrors : BitVec 32 := 0
  /-- The signal pending on vector 256 stems from a mailbox (10 R285, 12 R337); reset false -/
  mbSignal : Bool := false
  /-- The 257 MSI-X entries (10 R277, Table 10-3); reset see MsixEntry -/
  msix : List MsixEntry := List.replicate 257 {}
deriving DecidableEq, Repr

/-- One event entry (10 Table 10-14) without its phase bit. -/
structure Event where
  code : BitVec 16
  status : BitVec 16 := 0
  count : Nat := 1
  replayed : Bool := false
  a : Nat := 0
  b : Nat := 0
  time : BitVec 64 := 0
deriving DecidableEq, Repr

/-- Event queue (10 R293, R281, R283). -/
structure EvQueue where
  /-- EVQ_BASE, 64 bits RW, bits [11:0] zero (10 Table 10-5); reset 0 -/
  base : BitVec 64 := 0
  /-- EVQ_BASE has been written since the last power-on or function reset, 1 bit (10 R293); reset false -/
  baseWritten : Bool := false
  /-- EVQ_CONFIG enable, 1 bit (10 Table 10-5); reset 0 -/
  enable : Bool := false
  /-- EVQ_CONFIG log2 of the size, 5 bits (10 Table 10-5); reset 0 -/
  log2 : BitVec 5 := 0
  /-- Head index the host wrote last, 16 bits (10 R281); reset DESIGN CHOICE 0, log 6 -/
  head : Nat := 0
  /-- Tail index of the next entry (10 R283); reset DESIGN CHOICE 0, log 6 -/
  tail : Nat := 0
  /-- Phase of the current pass (10 R283: first pass 1); reset 1 -/
  phase : Bool := true
  /-- EVQ_ERROR, 1 bit (10 Table 10-6); reset 0 -/
  error : Bool := false
  /-- Events held in order of occurrence; HELD_EVENTS is their number (10 R293); reset none -/
  held : List Event := []
deriving DecidableEq, Repr

/-- One queue pair (10 Tables 10-8, 10-10 to 10-12, R280 to R292). -/
structure Pair where
  /-- Revision 1, 2, 3; 0 for the motion pair (10 Table 10-8) -/
  rev : Nat
  /-- Type: true for the motion pair (10 Table 10-8) -/
  motion : Bool
  /-- Class: true urgent (10 Table 10-8) -/
  urgent : Bool
  /-- Weight 1 to 255 (10 Table 10-8) -/
  weight : Nat
  /-- log2 of the SQ entry count (10 Table 10-8) -/
  sqLog : Nat
  /-- log2 of the CQ entry count (10 Table 10-8) -/
  cqLog : Nat
  /-- Coalescing count (10 Table 10-8) -/
  coCount : Nat
  /-- Coalescing time in µs (10 Table 10-8) -/
  coTime : Nat
  /-- SQ base, 64 bits (10 Table 10-8) -/
  sqBase : BitVec 64
  /-- CQ base, 64 bits (10 Table 10-8) -/
  cqBase : BitVec 64
  /-- SQ tail the host wrote last (10 R281) -/
  sqTail : Nat := 0
  /-- SQ fetch position: index after the last entry fetched (10 R282) -/
  sqFetch : Nat := 0
  /-- CQ tail: next entry the formatter writes (10 R283) -/
  cqTail : Nat := 0
  /-- CQ head the host wrote last (10 R284) -/
  cqHead : Nat := 0
  /-- Phase of the current CQ pass (10 R283) -/
  cqPhase : Bool := true
  /-- Error state (10 R291) -/
  error : Bool := false
  /-- Completions posted and not yet signalled (10 R285) -/
  unsignalled : Nat := 0
  /-- After a takeover the pair waits for the host's doorbells (15 R444) -/
  awaitDoorbell : Bool := false
deriving DecidableEq, Repr

/-- Fetch arbiter (10 R292). -/
structure Arbiter where
  /-- Last urgent pair granted, none before the first (10 R292); reset none -/
  lastUrgent : Option Nat := none
  /-- Urgent grants made in a row (10 R292); reset 0 -/
  urgentRun : Nat := 0
  /-- Normal pair served last in the round (10 R292); reset none -/
  rrPair : Option Nat := none
  /-- Grants left to that pair in its visit (10 R292); reset 0 -/
  rrLeft : Nat := 0
  /-- Grant number of the next grant: the arrival order (10 R292, 11 R309); reset 0 -/
  nextGrant : Nat := 0
deriving DecidableEq, Repr

/-- A lock entry of the range-lock table (11 R309): record, byte range [lo, hi), write or read. -/
structure Lock where
  num : Nat
  lo : Nat
  hi : Nat
  write : Bool
deriving DecidableEq, Repr

/-- One outstanding command: fetched and not yet completed (10 R292, 11 R309). -/
structure Cmd where
  /-- Pair it was fetched from -/
  pair : Nat
  /-- Tag (10 Table 10-10) -/
  tag : Nat
  /-- Opcode (10 Table 10-11) -/
  op : Nat
  /-- The fetched entry, 64 or 128 bytes (10 Table 10-10) -/
  entry : Bytes
  /-- Arrival number (11 R309) -/
  arrival : Nat
  /-- Its lock entry (11 R309) -/
  lock : Option Lock := none
  /-- The scatter list as read at the grant, and whether its read succeeded (10 R289) -/
  sgl : List SglEntry := []
  sglOk : Bool := true
  /-- Admitted by the lock table (11 R309) -/
  admitted : Bool := false
  /-- Fence flag (10 R288) -/
  fence : Bool := false
  /-- Waits for staging chunks (13 R373) -/
  waitChunks : Bool := false
  /-- For an ABORT: it caught its target (11 R329) -/
  caughtTarget : Bool := false
  /-- For an ABORT: arrival number of the target it waits for, outstanding when it arrived (11 R329) -/
  target : Option Nat := none
  /-- A SYNC, LOCATE or RECORD READ has begun (11 R316, R322) -/
  started : Bool := false
  /-- For a SYNC: m, the highest record number SEALED at its arrival (11 R316) -/
  syncM : Option Nat := none
  /-- A completed entry was written before a takeover (15 Table 15-4); mirrored commands only -/
  inDoubt : Bool := false
deriving DecidableEq, Repr

/-- A motion request of Table 10-16. -/
structure MotionReq where
  kind : Nat
  dir : Bool := false
  hint : Int := 0
  target : Int := 0
deriving DecidableEq, Repr

/-- Motion pair protocol state (10 R294 to R296). -/
structure Motion where
  /-- Sequence number of the next request, 16 bits (10 R294); reset DESIGN CHOICE 0, log 6 -/
  nextSeq : BitVec 16 := 0
  /-- Requests held while the motion CQ is full, at most one of each type (10 R295); reset none -/
  held : List MotionReq := []
  /-- Requests posted that still owe a report (10 R294); reset none -/
  owed : List (BitVec 16) := []
  /-- Reports consumed since the last request posted (10 R296); reset 0 -/
  consumed : Nat := 0
  /-- State of the last report, Table 10-17; reset 0 STOPPED DESIGN CHOICE, log 6 -/
  state : Nat := 0
  /-- Direction of the last report, 1 decreasing LPOS (10 Table 10-17); reset 0 -/
  dir : Bool := false
  /-- Velocity of the last report, signed µm/s (10 Table 10-17); reset 0 -/
  vel : Int := 0
  /-- LPOS of the last report, 2^-8 µm (10 Table 10-17); reset 0 -/
  lpos : Int := 0
  /-- Sequence number of the RUN or TURNAROUND not yet streaming, and the SPD_REQ level when it was posted (04 R142); reset none -/
  runLevel : Option (BitVec 16 × BitVec 2) := none
  /-- A motion fault has been reported and no report has come since (10 R294); reset false -/
  fault : Bool := false
deriving DecidableEq, Repr

/-- One mailbox (12 R336, R337, Tables 12-1 and 12-2, 09 R266). -/
structure Mailbox where
  /-- STATE, 2 bits: 0 IDLE, 1 BUSY, 2 DONE (12 Table 12-2); reset 0b00 -/
  state : BitVec 2 := 0
  /-- HELD, 1 bit (12 Table 12-2); reset 0 -/
  held : Bool := false
  /-- LAST_SEQ, 16 bits (12 Table 12-2); reset 0x0000 -/
  lastSeq : BitVec 16 := 0
  /-- MB_CONTROL INT_ENABLE, 1 bit RW (12 Table 12-1); reset 0 -/
  intEnable : Bool := false
  /-- Request buffer, 4,096 bytes; bytes past the end of the list read zero (12 R336); reset DESIGN CHOICE zero, log 6 -/
  reqBuf : Bytes := []
  /-- Opcode in progress or last served, 16 bits (12 Table 12-10); reset 0 -/
  opcode : BitVec 16 := 0
  /-- The accepted request while BUSY (12 R337); reset none -/
  req : Option MbReq := none
  /-- Response status, 16 bits (12 Table 12-4); undefined while BUSY, DESIGN CHOICE 0, log 6 -/
  status : BitVec 16 := 0
  /-- Response detail, 16 bits (12 Table 12-4); DESIGN CHOICE 0, log 6 -/
  detail : BitVec 16 := 0
  /-- Sequence echoed in the response, 32 bits (12 Table 12-4); DESIGN CHOICE 0, log 6 -/
  seq : BitVec 32 := 0
  /-- Response payload, up to 4,080 bytes (12 R339); DESIGN CHOICE empty, log 6 -/
  payload : Bytes := []
  /-- Role authenticated on the mailbox, 2 bits: 0 none, 1 Crypto Officer, 2 User (12 Table 12-2, 09 R266); reset 0b00 -/
  role : BitVec 2 := 0
  /-- Unused login nonce, 16 bytes (09 R266); reset none -/
  nonce : Option Bytes := none
  /-- Key-transport key KTK, 32 bytes (09 Table 09-3); reset none -/
  ktk : Option Bytes := none
deriving DecidableEq, Repr

/-! ## Records, seal order, deferred errors -/

/-- Record states of Table 11-1. -/
inductive RecState where
  | opened
  | sealed
  | written
  | synced
  | abandoned
  | discarded
deriving DecidableEq, Repr

/-- Forming state of one CU of a record (04 R114 to R116, 08 R237). -/
structure CuForm where
  /-- CU index (04 R115) -/
  idx : Nat
  /-- Compressed bytes waiting for an AES pair (08 R234); none before compression and after sealing -/
  comp : Option Bytes := none
  /-- The output is the stored encoding (08 R230) -/
  stored : Bool := false
  /-- Form digest: C (08 R237) -/
  c : Nat := 0
  /-- Form digest: CRC-32C of the C compressed bytes (08 R237) -/
  crc : BitVec 32 := 0
  /-- Form digest: engine that produced them (08 R237) -/
  engine : Nat := 0
  /-- CRC-32C of the raw CU (11 Table 11-7) -/
  rawCrc : BitVec 32 := 0
  /-- Sealed CU item waiting for the packer (04 R116) -/
  item : Option Bytes := none
  /-- The 16-byte tag field, kept for the tag chain (02 Table 02-11) -/
  tag : Bytes := []
deriving DecidableEq, Repr

/-- One record known in this load (11 Table 11-1, Table 11-6). -/
structure Rec where
  /-- Record number, below 2^40 (11 R298) -/
  num : Nat
  /-- State (11 Table 11-1) -/
  state : RecState
  /-- Pair of the OPEN or MARK (11 Table 11-6) -/
  pair : Nat
  /-- Opened shared (11 R305) -/
  shared : Bool := false
  /-- Encrypted (09 R252) -/
  encrypted : Bool := false
  /-- Mark record (11 R313) -/
  mark : Bool := false
  /-- Data-key slot captured (09 R259) -/
  slot : Nat := 0
  /-- Slot generation captured, 16 bits (09 R259) -/
  gen : BitVec 16 := 0
  /-- Key label, 8 bytes (02 Table 02-9) -/
  label : Bytes := List.replicate 8 0
  /-- Compression setting captured (08 R224) -/
  setting : BitVec 8 := 0
  /-- Seconds [31:0] of the time counter at open (02 Table 02-9) -/
  openTime : BitVec 32 := 0
  /-- Written extents, disjoint, ascending, [lo, hi) (11 R306) -/
  extents : List (Nat × Nat) := []
  /-- Staging map: chunk index in the record, Hearth chunk (13 R372) -/
  chunks : List (Nat × Nat) := []
  /-- Raw length once SEALED (11 R311) -/
  len : Nat := 0
  /-- Host digest buffer of a revision-3 SEAL; 0 none (11 R328) -/
  digestAddr : BitVec 64 := 0
  /-- A digest entry could not be written (11 R328) -/
  digestFailed : Bool := false
  /-- Last deferred status posted, 0 none (11 Table 11-6) -/
  deferred : BitVec 16 := 0
  /-- Has received UNVERIFIED WRITE (11 R319) -/
  gotUnverified : Bool := false
  /-- Has received a terminal deferred error (11 R319) -/
  terminal : Bool := false
  /-- Forming state of its CUs (04 R114) -/
  cus : List CuForm := []
  /-- Its trailer has been packed (04 R117) -/
  packed : Bool := false
  /-- Train that holds its trailer, as counted in this load (11 R316) -/
  train : Option Nat := none
  /-- Serials of the data billets that hold its bytes (01 R22) -/
  billets : List Nat := []
deriving DecidableEq, Repr

/-- An entry of the seal queue: a record, or the close mark of a SYNC behind record m (04 R114, R117). -/
inductive SealItem where
  | record (num : Nat)
  | closeMark (m : Nat)
deriving DecidableEq, Repr

/-- A SYNC that has begun (11 R316). -/
structure SyncWait where
  pair : Nat
  tag : Nat
  arrival : Nat
  /-- m: highest record number SEALED when the SYNC arrived, none where none was (11 R316) -/
  m : Option Nat
deriving DecidableEq, Repr

/-- An entry of the deferred-error list (12 Table 12-12). -/
structure DeferredEntry where
  num : Nat
  pair : Nat
  status : BitVec 16
  posted : Bool := false
  held : Bool := false
  replayed : Bool := false
deriving DecidableEq, Repr

/-- Records of the load and the commands' bookkeeping (11). -/
structure Records where
  /-- Records known in this load, by rising number (11 Table 11-1); reset none -/
  recs : List Rec := []
  /-- Seal queue in seal order (04 R114, 11 R299); reset none -/
  sealQ : List SealItem := []
  /-- Next record number (11 R298); reset 0 -/
  next : Nat := 0
  /-- Write start point set by LOCATE and not yet used (11 R324); reset none -/
  startSet : Option Nat := none
  /-- SYNCs that have begun, in arrival order (11 R316); reset none -/
  syncs : List SyncWait := []
  /-- Deferred errors since the last SYNC completion, at most 65,536 kept (12 R351); reset none -/
  deferred : List DeferredEntry := []
  /-- Their count, 32 bits (12 R351); reset 0 -/
  deferredCount : Nat := 0
  /-- Outstanding commands in arrival order (10 R292; OUTSTANDING is their number); reset none -/
  cmds : List Cmd := []
deriving DecidableEq, Repr

/-! ## Cartridge and ledger -/

/-- Tape position (02 Table 02-15). -/
structure TapePos where
  wrap : Nat := 0
  heat : Nat := 0
  /-- LPOS in mm -/
  lpos : Int := 0
  serial : Nat := 0
deriving DecidableEq, Repr

/-- Wrap entry of the ledger image (02 Table 02-16). -/
structure WrapEntry where
  /-- 0 unwritten, 1 partial, 2 closed -/
  state : Nat := 0
  mapGen : Nat := 0
  heats : Nat := 0
  /-- First record whose descriptor lies in the wrap, none for all ones -/
  first : Option Nat := none
  firstSerial : Nat := 0
  rewritten : Nat := 0
  rewriteHeats : Nat := 0
  /-- Retired elements, up to four per band: (band, element) -/
  retired : List (Nat × Nat) := []
deriving DecidableEq, Repr

/-- Cartridge ledger image (02 Table 02-14); `index` and `temper` list the entries that are not all ones and not zero. -/
structure LedgerImage where
  /-- Format code 4, 3 or 2, 16 bits -/
  format : Nat := 4
  /-- Sequence number, 64 bits -/
  seq : Nat := 0
  /-- Cartridge serial, 16 bytes -/
  serial : Bytes := List.replicate 16 0
  /-- Write session, 32 bits -/
  session : Nat := 0
  eodValid : Bool := false
  sessionOpen : Bool := false
  writeRefused : Bool := false
  syncedLimit : Nat := 0
  recordLimit : Nat := 0
  eodPos : TapePos := {}
  syncedPos : TapePos := {}
  payloadBytes : Nat := 0
  rawBytes : Nat := 0
  /-- Wrap table, 40, 60 or 80 entries (02 R79) -/
  wraps : List WrapEntry := []
  /-- Locate index: (wrap × 65 + segment, first record, billet heat) -/
  index : List (Nat × Nat × Nat) := []
  /-- Temper summary: ((wrap × 65 + segment) × 4 + band, value) -/
  temper : List (Nat × BitVec 32) := []
deriving DecidableEq, Repr

/-- End-of-data search result (07 Table 07-5). -/
structure EodResult where
  outcome : Nat := 5
  stale : Bool := false
  unclosed : Bool := false
  session : Nat := 0
  recordLimit : Nat := 0
  found : Nat := 0
  withoutC3 : Nat := 0
  heats : Nat := 0
  append : TapePos := {}
deriving DecidableEq, Repr

/-- The loaded cartridge and its ledger (12 R346 to R350, 07 R216 to R220, 09 R253, R254). -/
structure Cart where
  /-- CARTRIDGE, 1 bit (10 Table 10-6); reset 0 -/
  loaded : Bool := false
  /-- Ledger image as it now stands (02 R74); reset DESIGN CHOICE the empty image, log 6 -/
  image : LedgerImage := {}
  /-- The ledger has changed since the last image was issued (12 R349); reset false -/
  changed : Bool := false
  /-- The eight most recently issued images, newest first (12 R350); reset none -/
  issued : List LedgerImage := []
  /-- Last image sequence number issued (12 Table 12-10: all ones if none); reset none -/
  lastIssued : Option Nat := none
  /-- Highest sequence number reported stored (12 R350); reset none -/
  lastStored : Option Nat := none
  /-- The image was built by a BLANK load (12 R347); reset false -/
  blank : Bool := false
  /-- The accepted image has been found stale (07 R216); reset false -/
  stale : Bool := false
  /-- The EOD block at the image's position has been confirmed (07 R216); reset false -/
  eodChecked : Bool := false
  /-- The EOD block at the image's position is being read (07 R216); reset false -/
  eodChecking : Bool := false
  /-- Splice position of the next write at the end of data: EOD block or search result (02 R72, 07 R219); reset zero -/
  appendPos : TapePos := {}
  /-- Splice position of the write start point that a LOCATE with the write flag set (11 R324, 02 R72); reset none -/
  startPos : Option TapePos := none
  /-- End-of-data search pending (07 R216); reset false -/
  searchPending : Bool := false
  /-- End-of-data search running (07 R218); reset false -/
  searching : Bool := false
  /-- Mailboxes whose EOD_SEARCH waits for the search (07 R220); reset none -/
  searchMb : List Nat := []
  /-- Result of the last search (07 Table 07-5: outcome 5 no search run); reset outcome 5 -/
  eod : EodResult := {}
  /-- Session reserved by the last search and not yet used (09 R253); reset none -/
  reserved : Option Nat := none
  /-- Highest write session found in any billet read this load (09 R253); reset 0 -/
  maxSession : Nat := 0
  /-- Session whose first frame waits for LEDGER_STORED of this image (02 R76, 12 R350); reset none -/
  waitStored : Option Nat := none
  /-- A write session has begun in this load (02 R72); reset false -/
  sessionBegun : Bool := false
  /-- The Hearth configuration record was invalid: CART_LOAD rejected (16 R474); reset false -/
  barred : Bool := false
deriving DecidableEq, Repr

/-! ## Write side: Forge Sequencer, Anvil, heat controller, verify -/

/-- A billet from its forming until its frames are settled: packing descriptor, place and verify state
(01 R27, 04 R117, R133, R134). -/
structure Billet where
  /-- Billet serial, 32 bits (02 Table 02-6) -/
  serial : Nat
  /-- Train it belongs to, counted in this load -/
  train : Nat
  /-- Ingot 0 to 31 and position 0 to 63 (02 R60) -/
  ingot : Nat
  pos : Nat
  /-- Group 0 to 7 (02 R36) -/
  group : Nat
  /-- C3 parity billet -/
  parity : Bool
  /-- Write session in its header (02 Table 02-7) -/
  session : Nat := 0
  /-- Packing descriptor: record at payload offset 32 -/
  firstRec : Nat := 0
  firstCu : Nat := 0
  resume : Nat := 0
  cont : Bool := false
  early : Bool := false
  descs : Nat := 0
  used : Nat := 0
  /-- Records with any byte in it -/
  recs : List Nat := []
  /-- Frames not yet passed or exhausted, of 126 -/
  pending : Nat := 126
  /-- Exhausted frames (04 R133) -/
  exhausted : Nat := 0
  /-- Class of its frames: 0 billet, 1 ledger, 2 EOD (02 Table 02-6) -/
  cls : Nat := 0
  /-- First record whose descriptor begins in it, and the records whose trailers it holds (02 Tables 02-14, 02-16) -/
  firstDesc : Option Nat := none
  trailers : List Nat := []
  /-- Wrap it is formed for (02 R57) -/
  wrap : Nat := 0
  /-- Home heat once its billet heat has begun (02 R57) -/
  home : Option Nat := none
deriving DecidableEq, Repr

/-- A frame in a channel's lists (04, R120, R123 to R133). -/
structure Frame where
  /-- Billet serial, frame index, logical channel -/
  serial : Nat
  j : Nat
  l : Nat
  /-- Codeword with the zeroed header fields of R120, 1,024 bytes -/
  word : Bytes
  /-- Class of the frame: 0 billet, 1 ledger, 2 EOD (02 Table 02-6) -/
  cls : Nat := 0
  /-- C3 parity billet and shortened-train bit of its header (02 Table 02-6) -/
  parity : Bool := false
  short : Bool := false
  /-- Cells present of 16 (04 R124) -/
  present : Nat := 16
  /-- Cells already taken by the head port (04 R124) -/
  sent : Nat := 0
  /-- Attempt 0 to 3 (04 R132) -/
  attempt : Nat := 0
  /-- Home heat once begun (04 R118) -/
  home : Option Nat := none
  /-- Patched codeword as written (04 R120) -/
  patched : Bytes := []
  /-- Written heat of the writing in the hold list -/
  written : Nat := 0
  /-- The standby's verdict: PASS with equal digest (15 R441) -/
  standby : Option Bool := none
  /-- This die's own verdict while the standby's is awaited: 0 PASS, 1 QUALITY, 2 DECODE, 3 COMPARE (15 R441) -/
  own : Option Nat := none
deriving DecidableEq, Repr

/-- One physical channel of the Anvil and its head-port bit stream (04 R123 to R128). -/
structure Chan where
  /-- Write list, head first (04); reset empty -/
  wlist : List Frame := []
  /-- Verify-hold list, oldest first (04); reset empty -/
  hold : List Frame := []
  /-- Frames at the C1 encoder, the first being pushed cell by cell (04 R123); reset empty -/
  enc : List Frame := []
  /-- After a flush: pushes discarded until an item-start marker (04 R127); reset false -/
  discarding : Bool := false
  /-- Frame item being written: channel bits still to send (02 Table 02-5, 14 R410); reset empty -/
  bits : List Bool := []
  /-- The head port is inside a frame (04 R125); reset false -/
  inFrame : Bool := false
  /-- Previous NRZI level is not kept: bits are NRZI channel bits (02 R47). Item started in the current heat; reset false -/
  started : Bool := false
  /-- Slag fill or slag frame being written (02 R51, R52); reset false -/
  slag : Bool := false
deriving DecidableEq, Repr

/-- Kinds of a heat position (04 R118, 02 R68, R70, R72). -/
inductive HeatKind where
  | none
  | billet
  | rewrite
  | ledger
  | eod
  | splice
deriving DecidableEq, Repr

/-- A formed billet heat waiting to begin (04 R121). -/
structure FormedHeat where
  train : Nat
  t : Nat
  serials : List Nat
  parity : Bool
  /-- 0 billet heat, 1 ledger heat, 2 EOD heat (02 R68, R70) -/
  cls : Nat := 0
deriving DecidableEq, Repr

/-- Where the packer stands: record, CU, offset in that CU's item after its header (02 Table 02-7). -/
structure PackPos where
  num : Nat
  /-- 0 descriptor, 1 CU header, 2 CU body, 3 trailer -/
  part : Nat
  cu : Nat := 0
  off : Nat := 0
deriving DecidableEq, Repr

/-- Forge Sequencer (04 R114 to R122, 02 R60 to R67, 03 R104). -/
structure Forge where
  /-- Writing is under way (04 R142 MODE write); reset false -/
  writing : Bool := false
  /-- Writing is being ended: trains close, drain and EOD follow (11 R322); reset false -/
  ending : Bool := false
  /-- Why writing ends: a stop of tape follows (04 R145); reset false -/
  starveEnd : Bool := false
  /-- Billet serial of the next billet, 32 bits (02 Table 02-6); reset 0 -/
  nextSerial : Nat := 0
  /-- Number of the open train (02 R60); reset 0 -/
  train : Nat := 0
  /-- Next billet heat of the train, 0 to 255 (02 R60); reset 0 -/
  t : Nat := 0
  /-- A billet of this train has closed early for SYNC or end of writing (02 R62); reset false -/
  closing : Bool := false
  /-- Data heats t_c once the train has closed, 240 or less (02 R62); reset none -/
  tc : Option Nat := none
  /-- Trains that closed short, for R63 coding (02 R63); reset none -/
  shortTrains : List Nat := []
  /-- Packer position inside a record that continues; reset none -/
  pos : Option PackPos := none
  /-- Number of the last record whose trailer was packed; reset none (02 R63) -/
  lastPacked : Option Nat := none
  /-- Formed billet heats waiting to begin (04 R121); reset none -/
  formed : List FormedHeat := []
  /-- Billets not settled: packing descriptors and verify state (04 R117); reset none -/
  billets : List Billet := []
  /-- Position after the last parity heat of each closed train (02 Table 02-14, 11 R316); reset none -/
  ends : List (Nat × TapePos) := []
  /-- C3 accumulators: ingot, 4 × 103,840 bytes (03 R104); reset none -/
  acc : List (Nat × Bytes) := []
  /-- The accumulators of the open train must be rebuilt after a takeover (15 R443); reset false -/
  rebuild : Bool := false
  /-- FORM_PAUSED, 1 bit (04 Table 04-9); reset 0 -/
  paused : Bool := false
  /-- Position of the EOD block once its first heat has begun (02 R70); reset none -/
  eodAt : Option TapePos := none
  /-- Payloads of the ledger or EOD block being written, by serial (02 R68, R70); reset none -/
  block : List (Nat × Bytes) := []
  /-- Frames whose cells were freed and that wait to be re-formed, oldest first (04 R136); reset none -/
  reforms : List Frame := []
deriving DecidableEq, Repr

/-- Anvil pool (04 R123 to R130). -/
structure Anvil where
  /-- The 1,024 physical channels (02 R36); reset empty lists -/
  chans : List Chan := List.replicate 1024 {}
  /-- Free cells, 0 to 524,288 (04 R123, ANVIL_FREE); reset 524,288 -/
  free : Nat := 524288
  /-- Protection mode in force: SECDED, 1 bit (04 R130, Table 04-9); reset 0 -/
  secded : Bool := false
  /-- TIMEOUT verdicts counted (04 R135); reset 0 -/
  timeouts : Nat := 0
  /-- ANVIL_WINDOW in force (04 R147); reset 32, its default -/
  window : Nat := 32
deriving DecidableEq, Repr

/-- Heat controller, map and wrap state (04 R118, R119, R137 to R140, 02 R37, R38, R60 to R72). -/
structure Heat where
  /-- Wrap being written or read, 0 to 79 (02 R43); reset 0 -/
  wrap : Nat := 0
  /-- Heat position of the next heat (02 R44); reset 0 -/
  h : Nat := 0
  /-- Kind of the heat now passing (04 R118); reset none -/
  kind : HeatKind := .none
  /-- Heats of a ledger or EOD block still to write (02 R68, R70); reset 0 -/
  blockLeft : Nat := 0
  /-- Splice heat due before anything else (02 R72); reset false -/
  splice : Bool := false
  /-- The wrap's final train has closed: the drain is being written (02 R64); reset false -/
  drain : Bool := false
  /-- The wrap's data area has ended (02 R45); reset false -/
  wrapEnd : Bool := false
  /-- Physical channel of each logical channel, 1,008 entries in GK4 (02 R37); reset DESIGN CHOICE empty until a cartridge is loaded, log 6 -/
  map : List Nat := []
  /-- Map generation modulo 128 (02 Table 02-6); reset 0 -/
  mapGen : Nat := 0
  /-- Retired physical channels of the current map (04 R139); reset none -/
  retired : List Nat := []
  /-- Logical channels whose retirement waits for the next billet heat boundary (04 R138); reset none -/
  retireDue : List Nat := []
  /-- Last RET_WINDOW verdicts of each logical channel, newest first, true = failed and counted (04 R137); reset none -/
  verdicts : List (Nat × List Bool) := []
  /-- No billet heat of this writing has begun yet (04 R139); reset false -/
  first : Bool := false
  /-- Quench holds write gate off, 1 bit (04 R141); reset 0 -/
  quench : Bool := false
  /-- Write gate as sent to the head ports, 1 bit (14 Table 14-6); reset 0 -/
  gate : Bool := false
  /-- Positions left at the last boundary, from the running LPOS (02 R62); reset 0 -/
  left : Nat := 0
deriving DecidableEq, Repr

/-- Bellows status block and speed handshake (04 R142 to R148). -/
structure Bellows where
  /-- BLW_INT_STATUS, 11 bits RW1C (04 Table 04-10); reset 0 -/
  intStatus : BitVec 32 := 0
  /-- BLW_INT_MASK, 32 bits RW (04 Table 04-8); reset 0x0000_0000 -/
  intMask : BitVec 32 := 0
  /-- SPEED_CUR, 2 bits (04 Table 04-9); reset 0b00 -/
  speedCur : BitVec 2 := 0
  /-- ACK_PENDING, 1 bit (04 Table 04-9); reset 0 -/
  ackPending : Bool := false
  /-- SPD_ACK has fallen since the pending request (04 R144); reset false -/
  fell : Bool := false
  /-- A starvation stop waits to resume (04 R145); reset false -/
  starveStopped : Bool := false
  /-- SPARES_EXHAUSTED of BLW_STATE, 1 bit (04 R140); reset 0 -/
  sparesExhausted : Bool := false
  /-- LEVEL_UP is armed (04 R146); reset true -/
  levelArmed : Bool := true
  /-- Fill at the last LEVEL_UP evaluation, bytes (04 R146); reset 0 -/
  lastFill : Nat := 0
  /-- FRAMES_FIRST, 64 bits saturating (04 Table 04-8); reset 0 -/
  framesFirst : BitVec 64 := 0
  /-- FRAMES_REWRITTEN, 64 bits saturating (04 Table 04-8); reset 0 -/
  framesRewritten : BitVec 64 := 0
  /-- REWRITE_HEATS, 64 bits saturating (04 Table 04-8); reset 0 -/
  rewriteHeats : BitVec 64 := 0
  /-- SLAG_FRAMES, 64 bits saturating (04 Table 04-8); reset 0 -/
  slagFrames : BitVec 64 := 0
  /-- POISONED_WORDS, 64 bits saturating (04 Table 04-8); reset 0 -/
  poisonedWords : BitVec 64 := 0
  /-- CORRECTED_WORDS, 64 bits saturating (04 Table 04-8); reset 0 -/
  correctedWords : BitVec 64 := 0
  /-- QUENCH_COUNT, 64 bits saturating (04 Table 04-8); reset 0 -/
  quenchCount : BitVec 64 := 0
  /-- EXHAUSTED_FRAMES, 64 bits saturating (04 Table 04-8); reset 0 -/
  exhaustedFrames : BitVec 64 := 0
deriving DecidableEq, Repr
/-! ## Read side: lanes, second look, billets, read-ahead, reads -/

/-- A channel bit out of a lane's detector (05 R156, R159): hard NRZI decision, soft value, defect flag. -/
structure ChanBit where
  b : Bool
  soft : Int
  flag : Bool
  /-- Equaliser output it was decided from (05 R165) -/
  q : Int := 0
deriving DecidableEq, Repr

/-- What a lane has measured of its zone (05 R165): frames, their C1 flips, Σd², Σ(q − d)², Σ(q × d). -/
structure Meas where
  frames : Nat := 0
  flips : Nat := 0
  dd : Nat := 0
  ee : Nat := 0
  qd : Int := 0
  /-- Measured on slag fill -/
  slag : Bool := false
deriving DecidableEq, Repr

/-- One read-channel lane (05 R149 to R171). -/
structure Lane where
  /-- Parameter values the lane still uses until its next frame item (05 R176); reset none -/
  old : List (Nat × Int) := []
  /-- OFFSET in force, signed 8 bits (05 R150); reset DESIGN CHOICE 0, log 6 -/
  offset : Int := 0
  /-- ASYM in force, signed 8 bits (05 R150); reset DESIGN CHOICE 0, log 6 -/
  asym : Int := 0
  /-- GAIN in force, 12 bits, 0x100 is 1.0 (05 R150); reset DESIGN CHOICE 0x100, log 6 -/
  gain : Nat := 0x100
  /-- Phase accumulator, 24 bits (05 R152); reset DESIGN CHOICE 0, log 6 -/
  acc : BitVec 24 := 0
  /-- Frequency word ρ, 24 bits (05 R152); reset DESIGN CHOICE 0, log 6 -/
  rho : BitVec 24 := 0
  /-- Last 8 corrected samples z, newest first, with their lost marks (05 R152, 14 R409); reset none -/
  z : List (Int × Bool) := []
  /-- Last 16 interpolated samples u with their defect flags, newest first (05 R154, R159); reset none -/
  u : List (Int × Bool) := []
  /-- Equaliser taps c_0 to c_15, 12 bits signed (05 R154); reset DESIGN CHOICE all 0, log 6 -/
  taps : List Int := List.replicate 16 0
  /-- Noise model of the 16 branch conditions: two predictor taps and a metric weight, 8 bits each (05 R155); reset DESIGN CHOICE
  none, log 6 -/
  pred : List (Int × Int × Nat) := []
  /-- What the tentative decisions rest on beyond the windows held here (05 R153, R154): the MODEL's own free value; reset DESIGN CHOICE
  0, log 13 -/
  path : Int := 0
  /-- Equaliser outputs with their defect flags, the detector's window of 96 bits, oldest first (05 R156); reset none -/
  q : List (Int × Bool) := []
  /-- Channel bits decided and not yet consumed, oldest first (05 R156); reset none -/
  bits : List ChanBit := []
  /-- Sum of |u| over the last 256 unflagged bits: the values, newest first (05 R159); reset none -/
  env : List Int := []
  /-- Consecutive bits below the dropout threshold (05 R159); reset 0 -/
  dropRun : Nat := 0
  /-- Consecutive bits beyond the asperity threshold (05 R159); reset 0 -/
  taRun : Nat := 0
  /-- Bits still to flag after a span, DD_GUARD (05 R159); reset 0 -/
  guard : Nat := 0
  /-- Channel bits since OFFSET, ASYM and GAIN were loaded (05 R151); reset 0 -/
  sinceLoad : Nat := 0
  /-- TRACK (true) or ACQUIRE (false) (05 R167); reset ACQUIRE -/
  track : Bool := false
  /-- Channel bits to the expected mark position E from the front of `bits` (05 R167); reset 0 -/
  toMark : Nat := 0
  /-- Consecutive missed marks (05 R169); reset 0 -/
  misses : Nat := 0
  /-- Phase acquisition due on the next preamble (05 R153, R169); reset false -/
  reacquire : Bool := false
  /-- Timing loop runs with the tracking gains (05 R153); reset false -/
  tracking : Bool := false
  /-- LPOS of the lane's read element at the last load, 2^-8 µm (05 R151, 06 R184); reset 0 -/
  lpos : Int := 0
  /-- Temper measurement of the segment (05 R165); reset zeros -/
  meas : Meas := {}
  /-- Segment being measured, 0 to 64 (05 R165); reset 0 -/
  seg : Nat := 0
deriving DecidableEq, Repr

/-- Read-channel statistics of one physical channel, saturating (05 Table 05-8); all reset 0. -/
structure ChanStats where
  /-- FRAMES, 32 bits; reset 0 -/
  frames : BitVec 32 := 0
  /-- C1_FAIL, 32 bits; reset 0 -/
  c1Fail : BitVec 32 := 0
  /-- SYNC_MISSED, 32 bits; reset 0 -/
  syncMissed : BitVec 32 := 0
  /-- SYNC_OFFSET, 32 bits; reset 0 -/
  syncOffset : BitVec 32 := 0
  /-- ACQUISITIONS, 16 bits; reset 0 -/
  acquisitions : BitVec 16 := 0
  /-- SL_CAPTURED, 16 bits; reset 0 -/
  slCaptured : BitVec 16 := 0
  /-- SL_RECOVERED, 16 bits; reset 0 -/
  slRecovered : BitVec 16 := 0
  /-- SL_REFUSED, 16 bits; reset 0 -/
  slRefused : BitVec 16 := 0
  /-- DEFECT_SPANS, 32 bits; reset 0 -/
  defectSpans : BitVec 32 := 0
  /-- FLAGGED_BITS, 32 bits; reset 0 -/
  flaggedBits : BitVec 32 := 0
deriving DecidableEq, Repr

/-- A temper entry (05 Table 05-3). -/
structure Temper where
  gainRel : Nat := 0x100
  offsetRel : Int := 0
  asymRel : Int := 0
  snr : Nat := 0
  frames : Nat := 0
  flipMean : Nat := 0
  slag : Bool := false
  caldef : Bool := false
  valid : Bool := false
deriving DecidableEq, Repr

/-- A second-look capture (05 R172, R173). -/
structure Capture where
  lane : Nat
  wrap : Nat
  /-- Written-heat estimate -/
  heat : Nat
  lpos : Int
  /-- Reason: 0 off E, 1 disagreements, 2 ACQUIRE, 3 missed mark, 4 forced -/
  reason : Nat
  /-- 8,454 soft channel bits, flags already zeroed -/
  soft : List Int
  /-- Tries left, in the order of R174 -/
  tries : List Int
  /-- Second look has begun -/
  begun : Bool := false
deriving DecidableEq, Repr

/-- A frame copy waiting for a C1 decoder core (03 R91). -/
structure C1Job where
  lane : Nat
  /-- λ in codeword order, 8,192 values (03 R86) -/
  lam : List Int
  /-- Verify (true) or read path -/
  verify : Bool
  /-- The mark was accepted within VFY_SYNC_TOL (04 R131, 05 Table 05-6) -/
  syncOk : Bool
  /-- Written-heat estimate of the copy -/
  heat : Nat
  /-- Equaliser outputs and flags of its channel bits (05 R165) -/
  qs : List (Int × Bool) := []
deriving DecidableEq, Repr

/-- Result of a verify decode waiting for its verdict (03 R90). -/
structure VerifyResult where
  chan : Nat
  ok : Bool
  iters : Nat
  flips : Nat
  erased : Nat
  syncOk : Bool
  /-- Decoded codeword, 1,024 bytes -/
  word : Bytes
  /-- Written heat of the copy (05 R151, 06 R184) -/
  heat : Nat := 0
  /-- Equaliser outputs and flags of its channel bits (05 R165) -/
  qs : List (Int × Bool) := []
deriving DecidableEq, Repr

/-- States of a billet after C2 and C3 (03 R101, R106). -/
inductive BilletState where
  | waiting
  | complete
  | partly
  | failed
  | unrecovered
deriving DecidableEq, Repr

/-- A billet being read (03 R95 to R107). -/
structure RBillet where
  serial : Nat
  /-- Class of its frames: 0 billet, 1 ledger, 2 EOD (02 Table 02-6) -/
  cls : Nat := 0
  group : Nat := 0
  parity : Bool := false
  /-- Shortened-train bit of its frames (02 R62) -/
  short : Bool := false
  /-- Home heat and wrap -/
  home : Nat
  wrap : Nat
  /-- LPOS in mm when its first frame was accepted (11 Table 11-2) -/
  lpos : Int := 0
  /-- Highest written heat of any of its copies (02 R72) -/
  lastWritten : Nat := 0
  /-- Accepted frames: index j, 944 protected bytes (03 R95) -/
  frames : List (Nat × Bytes) := []
  /-- Positions withdrawn after a copy conflict (03 R96) -/
  conflicts : List Nat := []
  state : BilletState := .waiting
  /-- Failed C2 columns of a partial billet (03 R101) -/
  badCols : List Nat := []
  /-- Payload, 103,840 bytes, meaningful once complete or partial -/
  data : Bytes := []
  /-- Parked in read-ahead (03 R97) -/
  parked : Bool := false
  /-- The recovery ladder has ended without it (07 R211) -/
  lost : Bool := false
  /-- Erased set final (03 R97) -/
  final : Bool := false
  /-- Counts for the recovery report (07 Table 07-4) -/
  c2corr : Bool := false
  c3built : Bool := false
  suspects : Nat := 0
  nconf : Nat := 0
  slCopies : Nat := 0
  /-- Reread attempt in which it became complete, 0 first pass (07 R213) -/
  attempt : Nat := 0
deriving DecidableEq, Repr

/-- Stage of the delivery of a RECORD READ (07 R204 to R213, 11 R325). -/
structure ReadJob where
  pair : Nat
  tag : Nat
  num : Nat
  first : Nat
  count : Nat
  cut : Bool
  addr : BitVec 64
  /-- Destination length in bytes (10 R289) -/
  len : Nat
  report : BitVec 64
  /-- Billet serial and payload offset of the descriptor, once located (07 R214) -/
  desc : Option (Nat × Nat) := none
  /-- The descriptor has been parsed: flags, setting, raw length, CU count, label (11 R325) -/
  parsed : Bool := false
  encrypted : Bool := false
  setting : BitVec 8 := 0
  rawLen : Nat := 0
  cuCount : Nat := 0
  label : Bytes := []
  /-- Slot generation found by label (09 R262) -/
  key : Option (Nat × BitVec 16) := none
  /-- Next CU to deliver, CUs delivered -/
  nextCu : Nat := 0
  delivered : Nat := 0
  /-- Bytes of the failing CU delivered in cut-through (09 R265) -/
  partBytes : Nat := 0
  /-- Ladder: reread attempts made (07 R213) -/
  attempts : Nat := 0
  /-- Highest step of Table 07-2 taken -/
  step : Nat := 1
  /-- Off-track estimates while its heats were read -/
  offtrack : Nat := 0
  /-- Position of the descriptor's billet -/
  pos : TapePos := {}
deriving DecidableEq, Repr

/-- A locate in progress (07 R214): target, its command, and whether it sets the write start point. -/
structure LocateJob where
  num : Nat
  write : Bool
  /-- pair and tag of the LOCATE; none when a RECORD READ locates its record -/
  cmd : Option (Nat × Nat)
  /-- The descriptor found, while a LOCATE with the write flag reads on to the end of the train before it (02 R72) -/
  found : Option (Nat × Nat) := none
deriving DecidableEq, Repr

/-- Reread state (07 R208 to R211). -/
structure Reread where
  /-- Billet whose train is read again: serial and wrap -/
  serial : Nat
  wrap : Nat
  /-- Attempt 1 to 6 in progress -/
  k : Nat
  /-- First and last heat of the pass: the train's first heat, the home heat of its last parity billet + 511 -/
  first : Nat
  last : Nat
  /-- Where streaming resumes: wrap × 2^24 + heat -/
  resume : Nat
  /-- Billets completed by each attempt: (k, count) -/
  done : List (Nat × Nat) := []
  /-- Equaliser taps of every lane at the end of each attempt: (k, taps by lane) -/
  taps : List (Nat × List (List Int)) := []
deriving DecidableEq, Repr

/-- Read path (07, 03, 05). -/
structure ReadSide where
  /-- Reading is under way (04 R142 MODE read); reset false -/
  reading : Bool := false
  /-- The tape streams forward for reads (07 R207); reset false -/
  streaming : Bool := false
  /-- Reading has been stopped by RA_LIMIT (07 R207); reset false -/
  raStopped : Bool := false
  /-- First heat position not yet read: wrap × 2^24 + heat (07 R207); reset 0 -/
  nextHeat : Nat := 0
  /-- Highest heat read in the pass, the clock of C2_HOLD and the 511 limit (03 R97); reset 0 -/
  heatNow : Nat := 0
  /-- The 1,024 lanes (05 R149); reset see Lane -/
  lanes : List Lane := List.replicate 1024 {}
  /-- Statistics per physical channel (05 R177); reset 0 -/
  stats : List ChanStats := List.replicate 1024 {}
  /-- Temper store: wrap, segment, element p, entry (05 R162); reset none -/
  temper : List (Nat × Nat × Nat × Temper) := []
  /-- Recovery copy (05 R166); reset none -/
  recovery : List (Nat × Nat × Nat × Temper) := []
  /-- Second-look store, at most 96 captures (05 R173); reset none -/
  captures : List Capture := []
  /-- Forced-capture set of elements (05 R172); reset none -/
  forced : List Nat := []
  /-- Frame copies waiting for a C1 core: the backlog (03 R91); reset none -/
  c1q : List C1Job := []
  /-- Verify decodes waiting for a verdict (04 R131); reset none -/
  vresults : List VerifyResult := []
  /-- Billets held: being assembled, in read-ahead, parked or kept (07 R203, R209); reset none -/
  billets : List RBillet := []
  /-- Bytes of read-ahead the host has not consumed (04 BLW_FILL while reading); reset 0 -/
  raBytes : Nat := 0
  /-- Serial from which the item parser takes data billets, none until a billet has come (07 R203); reset none -/
  parseNext : Option Nat := none
  /-- Frames given to C1 on the read path, the frame sequence of an ORDER entry (15 Table 15-10); reset 0 -/
  c1Count : Nat := 0
  /-- C1_ITER_BUSY applies to the frame decoded last (03 R91); reset false -/
  busyLimit : Bool := false
  /-- Highest written heat of an accepted frame in the pass (07 R214, R218: EOD_BLANK); reset 0 -/
  lastFrame : Nat := 0
  /-- Heat positions read by the search (07 Table 07-5); reset 0 -/
  scanned : Nat := 0
  /-- First-pass C1 or header failures: wrap × 2^24 + heat, group (07 Table 07-4); reset none -/
  fails : List (Nat × Nat) := []
  /-- Captures taken: wrap × 2^24 + heat, group (07, recovery ladder); reset none -/
  capt : List (Nat × Nat) := []
  /-- Record reads in arrival order (07 R205); reset none -/
  jobs : List ReadJob := []
  /-- Locate in progress (07 R214); reset none -/
  locate : Option LocateJob := none
  /-- Reread in progress (07 R208); reset none -/
  reread : Option Reread := none
  /-- Copy conflicts counted (03 R96), 32 bits; reset 0 -/
  copyConflicts : Nat := 0
  /-- C2-detected C1 errors counted (03 R99), 32 bits; reset 0 -/
  c2Detected : Nat := 0
deriving DecidableEq, Repr

/-! ## Servo unit -/

/-- State of one biquad: x1, x2, y1, y2, 40 bits each (06 R195); reset 0. -/
structure Biquad where
  x1 : Int := 0
  x2 : Int := 0
  y1 : Int := 0
  y2 : Int := 0
deriving DecidableEq, Repr

/-- One servo reader's window (06 R183, R185). -/
structure Reader where
  /-- Samples of the 5 µs window, newest first, 8 bits, none where a servo flit was lost (06 R183, R185, R199); reset none -/
  samples : List (Option Int) := []
  /-- LPOS symbols of the last word length, newest first (06 R182); reset none -/
  symbols : List Bool := []
  /-- Tape moved since a word with the expected band number was decoded, nm (06 R185); reset DESIGN CHOICE 16,000,000, log 6 -/
  sinceNm : Nat := 16000000
  /-- Band number of the last word decoded (06 R182, R189); reset none -/
  band : Option Nat := none
deriving DecidableEq, Repr

/-- Servo unit (06, Table 06-6). -/
structure Servo where
  /-- Estimator mode: 0 FULL, 1 OFFSET_ONLY, 2 LOST (06 R187); reset DESIGN CHOICE 2 LOST, log 6 -/
  mode : Nat := 2
  /-- Confirmed wrap (06 R189; 0xFF if none); reset none -/
  wrap : Option Nat := none
  /-- Valid readers, 10 bits (06 Table 06-6); reset DESIGN CHOICE 0, log 6 -/
  valid : BitVec 10 := 0
  /-- o, 2^-8 nm, signed (06 R186); reset DESIGN CHOICE 0, log 6 -/
  o : Int := 0
  /-- m, 2^-16 ppm, signed (06 R186); reset DESIGN CHOICE 0, log 6 -/
  m : Int := 0
  /-- (s − 1), 2^-8 ppm, signed (06 R186); reset DESIGN CHOICE 0, log 6 -/
  sFac : Int := 0
  /-- α, 2^-8 µrad, signed (06 R186); reset DESIGN CHOICE 0, log 6 -/
  alpha : Int := 0
  /-- ψ, 2^-8 µrad, signed (06 R186); reset DESIGN CHOICE 0, log 6 -/
  psi : Int := 0
  /-- Velocity, µm/s, negative in reverse (06 R184); reset DESIGN CHOICE 0, log 6 -/
  vel : Int := 0
  /-- Last frequency word F, 32 bits (06 R198); reset DESIGN CHOICE 0, log 6 -/
  f : BitVec 32 := 0
  /-- LPOS_ref, 2^-8 µm (06 R184); reset DESIGN CHOICE 0, log 6 -/
  lpos : Int := 0
  /-- TILT_CMD, 0 to 52,360 (06 R196); reset DESIGN CHOICE 0, log 6 -/
  tiltCmd : Nat := 0
  /-- TILT_SENSE, 16 bits (06 R199); reset DESIGN CHOICE 0, log 6 -/
  tiltSense : Int := 0
  /-- FINE_CMD, signed 16 bits (06 R194); reset DESIGN CHOICE 0, log 6 -/
  fineCmd : Int := 0
  /-- FLAGS[1] READ_OFFTRACK, 1 bit (06 R191); reset 0 -/
  offtrack : Bool := false
  /-- FLAGS[2] TENSION_HINT active, 1 bit (06 R197); reset 0 -/
  hint : Bool := false
  /-- OFFTRACK_COUNT, 64 bits (06 Table 06-6); reset 0 -/
  offtrackCount : BitVec 64 := 0
  /-- Time of the estimate (06 Table 06-6); reset 0 -/
  time : BitVec 64 := 0
  /-- Ten readers, index 2v + t (06 R180); reset see Reader -/
  readers : List Reader := List.replicate 10 {}
  /-- Servo target, 2^-8 nm (06 R188); reset DESIGN CHOICE 0, log 6 -/
  target : Int := 0
  /-- Fine-loop biquads FA_BQ[0] to [5] (06 R195); reset 0 -/
  fa : List Biquad := List.replicate 6 {}
  /-- Tilt-loop biquads TL_BQ[0] and [1] (06 R196); reset 0 -/
  tl : List Biquad := List.replicate 2 {}
  /-- Estimates since the last tilt update (06 R196); reset 0 -/
  tiltDiv : Nat := 0
  /-- Estimates spent in OFFSET_ONLY in a row (06 R190); reset 0 -/
  offsetOnly : Nat := 0
  /-- Tape moved since any valid word was decoded, nm (06 R190); reset 0 -/
  sinceNm : Nat := 0
  /-- Worst-element errors of the 5 µs estimate and of the fast path, in 2^-16 ÷ 1,000 nm (06 R190); reset 0 -/
  worst : Nat := 0
  fastWorst : Nat := 0
  /-- Velocity of the estimate before, µm/s (06 R198); reset 0 -/
  velPrev : Int := 0
  /-- Actuator word sequence number, 8 bits (14 R416); reset 0 -/
  actSeq : BitVec 8 := 0
  /-- Driver status words of SP0 and SP1, 16 bits each (06 R199); reset DESIGN CHOICE 0, log 6 -/
  drv0 : BitVec 16 := 0
  drv1 : BitVec 16 := 0
deriving DecidableEq, Repr

/-! ## Tongs link -/

/-- A management request (14 R421). -/
structure MgmtReq where
  op : Nat
  tag : BitVec 8
  addr : BitVec 16
  data : BitVec 32
deriving DecidableEq, Repr

/-- A lane swap under way (14 R419): logical lane, receive or transmit, superframe of the decision. -/
structure LaneSwap where
  logical : Nat
  transmit : Bool
  start : Nat
deriving DecidableEq, Repr

/-- One port: HP0 to HP15 (0 to 15), SP0 (16), SP1 (17) (14 R401 to R422, Table 14-14). -/
structure Port where
  /-- State: 0 DOWN, 1 training, 2 UP, 3 UP without spare, 4 quarantined (14 Table 14-14); reset 0 -/
  state : Nat := 0
  /-- Physical lane of each logical lane, 11 on a head port (14 Table 14-10); reset none -/
  map : List Nat := []
  /-- Receive spare, none when used (14 Table 14-14); reset none -/
  rxSpare : Option Nat := none
  /-- Transmit spare (14 Table 14-14); reset none -/
  txSpare : Option Nat := none
  /-- Aligned lanes, by physical number (14 R406); reset none -/
  aligned : List Nat := []
  /-- Lanes marked failed (14 Table 14-8); reset none -/
  failed : List Nat := []
  /-- Transmit superframe number, 16 bits (14 R405); reset DESIGN CHOICE 0, log 6 -/
  superframe : BitVec 16 := 0
  /-- Write-clock accumulator A, 24 bits (14 R411: 0 at link-up); reset 0 -/
  acc : BitVec 24 := 0
  /-- F in force, 32 bits (14 R412); reset DESIGN CHOICE 0, log 6 -/
  f : BitVec 32 := 0
  /-- F waiting for its APPLY superframe (14 R412); reset none -/
  fNext : Option (BitVec 32 × BitVec 16) := none
  /-- APPLY sent: the superframe in which F took effect (14 R412); reset 0 -/
  apply : BitVec 16 := 0
  /-- Write-gate level in force (14 Table 14-6); reset 0 -/
  gate : Bool := false
  /-- Servo port: the next superframe carries the actuator word (14 R416); reset false -/
  actDue : Bool := false
  /-- CLAIM to be sent, RELEASE to be sent (14 R417); reset false -/
  claim : Bool := false
  release : Bool := false
  /-- Superframe and index of the next sample flit (14 R405, R407); reset DESIGN CHOICE 0, log 6 -/
  rxSuper : BitVec 16 := 0
  rxFlit : Nat := 0
  /-- This die owns the port (14 R417); reset false -/
  owner : Bool := false
  /-- Outstanding management request and superframes since it was sent (14 R421); reset none -/
  mgmt : Option (MgmtReq × Nat) := none
  /-- Requests waiting (14 R421: at most one outstanding); reset none -/
  mgmtQ : List MgmtReq := []
  /-- Next tag (14 R421); reset DESIGN CHOICE 0, log 6 -/
  mgmtTag : BitVec 8 := 0
  /-- Lane swap under way (14 R419); reset none -/
  swap : Option LaneSwap := none
  /-- Flits lost, 32 bits saturating (14 Table 14-14); reset 0 -/
  flitsLost : BitVec 32 := 0
  /-- Superframes lost, 32 bits (14 Table 14-14); reset 0 -/
  framesLost : BitVec 32 := 0
  /-- Steering slips, 32 bits (14 Table 14-14); reset 0 -/
  slips : BitVec 32 := 0
  /-- Swaps, 32 bits (14 Table 14-14); reset 0 -/
  swaps : BitVec 32 := 0
  /-- Retrains, 32 bits (14 Table 14-14); reset 0 -/
  retrains : BitVec 32 := 0
  /-- BIP-8 errors of physical lanes 0 to 12, 16 bits each (14 Table 14-14); reset 0 -/
  bip : List (BitVec 16) := List.replicate 13 0
  /-- Last retrain, seconds [31:0] (14 Table 14-14); reset 0 -/
  lastRetrain : BitVec 32 := 0
  /-- Retrains in a row that left the port DOWN (14 R420); reset 0 -/
  failedRetrains : Nat := 0
  /-- Front-end status word of logical lane 0, bits [63:16] (14 R408); reset DESIGN CHOICE 0, log 6 -/
  feStatus : BitVec 48 := 0
  /-- Receive superframe and transmit superframes lost as last reported (14 R408) -/
  feLost : BitVec 6 := 0
deriving DecidableEq, Repr

/-- Tongs link (14). -/
structure Tongs where
  /-- HP0 to HP15, SP0, SP1 (14 Table 14-1); reset see Port -/
  ports : List Port := List.replicate 18 {}
  /-- Calibration set: 33,280 bytes as in the EEPROM, empty before it is read (14 R423); reset empty -/
  eeprom : Bytes := []
  /-- The set is failed: built-in defaults in force (14 R424); reset DESIGN CHOICE true, log 6 -/
  calFailed : Bool := true
  /-- Mean amplitude at the first servo acquisition, the nominal with a failed set (14 R424); reset 0 -/
  meanAmp : Nat := 0
deriving DecidableEq, Repr

/-! ## Hearth -/

/-- State of a rank: debt of refresh, power-down, self-refresh (13 R378, R383). -/
structure Rank where
  /-- Refreshes postponed, 0 to 4 (13 R378, R379); reset 0 -/
  debt : Nat := 0
  /-- Power-down (13 R383); reset false -/
  powerDown : Bool := false
  /-- Drift accumulated since the last update, ps (13 R385); reset 0 -/
  drift : Int := 0
deriving DecidableEq, Repr

/-- One DDR5 channel (13, Table 13-14). -/
structure HChan where
  /-- 0 in service, 1 retraining, 2 scheduled, 3 failed, 4 excluded, 5 partner failed (13 Table 13-14); reset 4 DESIGN CHOICE until trained, log 6 -/
  state : Nat := 4
  /-- Ranks, index 2 × sub-channel + rank (13 R366); reset see Rank -/
  ranks : List Rank := List.replicate 4 {}
  /-- Full retrainings, 16 bits; reset 0 -/
  retrainings : BitVec 16 := 0
  /-- Micro-retraining slots, 32 bits; reset 0 -/
  microSlots : BitVec 32 := 0
  /-- Corrected, class D, 64 bits; reset 0 -/
  corrD : BitVec 64 := 0
  /-- Corrected, class M, 64 bits; reset 0 -/
  corrM : BitVec 64 := 0
  /-- Uncorrectable, 32 bits; reset 0 -/
  uncorr : BitVec 32 := 0
  /-- Debt conversions, 32 bits; reset 0 -/
  conversions : BitVec 32 := 0
  /-- Forced refreshes, 32 bits; reset 0 -/
  forced : BitVec 32 := 0
  /-- RFM issued, 32 bits; reset 0 -/
  rfm : BitVec 32 := 0
  /-- Throttles, 32 bits; reset 0 -/
  throttles : BitVec 32 := 0
  /-- Write eye, ps, 16 bits (13 R384); reset DESIGN CHOICE 0, log 6 -/
  wEye : BitVec 16 := 0
  /-- Read eye, ps, 16 bits (13 R384); reset DESIGN CHOICE 0, log 6 -/
  rEye : BitVec 16 := 0
  /-- Vref margin, 16 bits (13 R384); reset DESIGN CHOICE 0, log 6 -/
  vref : BitVec 16 := 0
  /-- Drift since the last full training, ps, signed 16 bits (13 R386); reset 0 -/
  drift : Int := 0
  /-- Trained at, seconds [31:0]; reset 0 -/
  trainedAt : BitVec 32 := 0
  /-- Corrected bursts within the hour (13 R386); reset 0 -/
  hourCorr : Nat := 0
  /-- Row of the last uncorrectable burst and its time in ns (13 R386: two rows within 1 s); reset none -/
  lastBadRow : Option (Nat × Nat) := none
  /-- Time in ns at which the hour of `hourCorr` began (13 R386); reset 0 -/
  hourStart : Nat := 0
  /-- Rolling activation counts: bank key, count (13 R381); reset none -/
  raa : List (Nat × Nat) := []
  /-- Hot rows of each sub-channel: (sub-channel, row key, activations), at most 128 each (13 R382); reset none -/
  hot : List (Nat × Nat × Nat) := []
  /-- Throttled requesters in the window: (requester, bank key) (13 R382); reset none -/
  throttled : List (Nat × Nat) := []
deriving DecidableEq, Repr

/-- A scale-log entry (13 Table 13-13). -/
structure ScaleEntry where
  addr : Nat
  chan : Nat
  subRank : Nat
  device : Nat
  bank : Nat
  row : Nat
  count : Nat
  recurrent : Bool := false
  repaired : Bool := false
  requester : Nat
  time : BitVec 64
deriving DecidableEq, Repr

/-- A scrub under way and its summary (13 R397, Tables 13-11 and 13-12). -/
structure Scrub where
  mb : Nat
  start : Nat
  len : Nat
  repair : Bool
  /-- Time of its start -/
  time : BitVec 64
  read : Nat := 0
  skipped : Nat := 0
  corrD : Nat := 0
  corrM : Nat := 0
  uncorr : Nat := 0
  repaired : Nat := 0
  abandoned : Nat := 0
  firstBad : Option Nat := none
deriving DecidableEq, Repr

/-- The Hearth (13). -/
structure Hearth where
  /-- Data rate in MT/s ÷ 100 (13 Table 13-3); from flash at boot, DESIGN CHOICE 48 before, log 6 -/
  rate : Nat := 48
  /-- Density in Gb; DESIGN CHOICE 8 before boot, log 6 -/
  density : Nat := 8
  /-- Ranks per sub-channel; DESIGN CHOICE 1 before boot, log 6 -/
  nranks : Nat := 1
  /-- log2 of the interleave grain; DESIGN CHOICE 12 before boot, log 6 -/
  grain : Nat := 12
  /-- Mirror mode; DESIGN CHOICE false before boot, log 6 -/
  mirror : Bool := false
  /-- N: working channels, or working pairs in mirror mode, at power-on (13 R369); DESIGN CHOICE 0 before boot, log 6 -/
  nwork : Nat := 0
  /-- CRC of the configuration record in force, 32 bits; zero when both records were invalid (16 R474); reset 0 -/
  cfgCrc : BitVec 32 := 0
  /-- Rotation table T: channel, none for a hole (13 R369, R370); reset empty -/
  rot : List (Option Nat) := []
  /-- Channels A to H (13); reset see HChan -/
  chans : List HChan := List.replicate 8 {}
  /-- Contents: bytes that are not zero, by rising address (13 R395 fill with zero; before it undefined, log 10); reset none -/
  mem : List Host.Cell := []
  /-- Bursts that hold an uncorrectable error until a whole-burst write (13 R394); reset none -/
  bad : List Nat := []
  /-- Chunks of the data pool in use (13 R372); reset none -/
  used : List Nat := []
  /-- Filled (13 R395); reset false -/
  filled : Bool := false
  /-- Doubled refresh rate in force (13 R379); reset false -/
  doubled : Bool := false
  /-- Forming-feeder FIFO level, bytes (13 R377); reset DESIGN CHOICE 524,288, log 6 -/
  feedFifo : Nat := 524288
  /-- Read-ahead fill FIFO level, bytes (13 R377); reset 0 -/
  raFifo : Nat := 0
  /-- Token buckets: (bucket, bytes), each holds at most 64 KiB (13 R376); reset none -/
  tokens : List (Nat × Nat) := []
  /-- Time in ns of the last refill of the buckets (13 R376); reset 0 -/
  tokenTime : Nat := 0
  /-- Scale log, at most 32 entries (13 R393); reset none -/
  scale : List ScaleEntry := []
  /-- Scale-log overflow count, 32 bits (13 R393); reset 0 -/
  scaleOver : BitVec 32 := 0
  /-- Scrub under way (13 R397); reset none -/
  scrub : Option Scrub := none
  /-- All ranks in self-refresh (13 R383); reset false -/
  selfRefresh : Bool := false
deriving DecidableEq, Repr
/-! ## Security monitor and compression -/

/-- One slot generation (09 R259). -/
structure KeyGen where
  /-- Slot key, 32 bytes -/
  key : Bytes
  /-- Label, 8 bytes -/
  label : Bytes
  /-- Generation number, 16 bits -/
  gen : BitVec 16
  /-- Users: open or sealed records and record reads (09, Slot generations) -/
  users : Nat := 0
deriving DecidableEq, Repr

/-- A data-key slot (09 R259, R260). -/
structure KeySlot where
  /-- Current generation; reset none -/
  cur : Option KeyGen := none
  /-- Retained generation; reset none -/
  old : Option KeyGen := none
  /-- Last generation number, 16 bits (09 R259); reset DESIGN CHOICE 0, log 6 -/
  lastGen : BitVec 16 := 0
  /-- Erasing: the mailboxes whose SEC_KEY_ERASE waits (09 R260); reset none -/
  erasing : List Nat := []
deriving DecidableEq, Repr

/-- Security states of Table 09-11. -/
inductive SecState where
  | selfTest
  | uncommissioned
  | operational
  | error
deriving DecidableEq, Repr

/-- Security monitor and security block (09). -/
structure Sec where
  /-- STATE, 3 bits (09 Table 09-11); reset 0b000 self-test running -/
  state : SecState := .selfTest
  /-- State to return to after SEC_SELFTEST passes is computed; the mailbox that waits for the run (09 R270); reset none -/
  testMb : Option Nat := none
  /-- The power-on set passed (09 R272); reset false -/
  postPassed : Bool := false
  /-- SEC_APPROVED, 1 bit (09 R272, R267); reset 0 -/
  approved : Bool := false
  /-- SEC_ALLOW_PLAIN, 1 bit (09 R267); reset 1 -/
  allowPlain : Bool := true
  /-- WRITE_REFUSED, 1 bit (09 Table 09-11); reset 0 -/
  writeRefused : Bool := false
  /-- LOCKED_OUT, 1 bit (09 Table 09-11); reset 0 -/
  lockedOut : Bool := false
  /-- Consecutive failed logins (09 R266); reset 0 -/
  fails : Nat := 0
  /-- Debug bridge open (16 R475); reset false -/
  debug : Bool := false
  /-- Crypto Officer authentication key, 32 bytes (09 Table 09-3); reset none -/
  coKey : Option Bytes := none
  /-- User authentication key, 32 bytes (09 Table 09-3); reset none -/
  userKey : Option Bytes := none
  /-- KEK slots 0 to 3: key and identifier (09 Table 09-3); reset none -/
  keks : List (Option (Bytes × Bytes)) := List.replicate 4 none
  /-- Data-key slots 0 to 63 (09 Table 09-3); reset empty -/
  slots : List KeySlot := List.replicate 64 {}
  /-- Working copy of the identity key present (09 Table 09-3); reset false -/
  identity : Bool := false
  /-- DRBG seeded and its output offered (09 Table 09-3, R270); reset false -/
  drbg : Bool := false
  /-- Times of noise-source failures within the last 1 s, in ns of the time counter (09 Table 09-8); reset none -/
  entropyFails : List Nat := []
  /-- AES pairs in service, by number (09 R246, PAIRS_IN_SERVICE); reset DESIGN CHOICE none before the self-tests, log 6 -/
  pairs : List Nat := []
  /-- Requests held during SEC_SELFTEST, in order of arrival: mailboxes (09 R270); reset none -/
  heldMb : List Nat := []
  /-- SEC_INT_STATUS, 7 bits RW1C (09 Table 09-12); reset 0 -/
  intStatus : BitVec 32 := 0
  /-- SEC_INT_MASK, 32 bits RW (09 Table 09-10); reset 0x0000_0000 -/
  intMask : BitVec 32 := 0
  /-- TAG_FAIL_COUNT, 64 bits saturating (09 Table 09-10); reset 0 -/
  tagFails : BitVec 64 := 0
  /-- AUTH_FAIL_COUNT, 32 bits saturating (09 Table 09-10); reset 0 -/
  authFails : BitVec 32 := 0
  /-- LOCKSTEP_FAULTS, 32 bits saturating (09 Table 09-10); reset 0 -/
  lockstep : BitVec 32 := 0
deriving DecidableEq, Repr

/-- Compression engines and statistics (08 R236, R238, Table 08-6). -/
structure Comp where
  /-- CUS_COMPRESSED, 64 bits saturating; reset 0 -/
  compressed : BitVec 64 := 0
  /-- CUS_STORED, 64 bits; reset 0 -/
  stored : BitVec 64 := 0
  /-- PROBE_ABANDONS, 32 bits; reset 0 -/
  probeAb : BitVec 32 := 0
  /-- LATE_ABANDONS, 32 bits; reset 0 -/
  lateAb : BitVec 32 := 0
  /-- CHECK_MISMATCHES, 32 bits; reset 0 -/
  mismatches : BitVec 32 := 0
  /-- DIGEST_MISMATCHES, 32 bits; reset 0 -/
  digestMis : BitVec 32 := 0
  /-- DIGEST_EXHAUSTED, 32 bits; reset 0 -/
  digestExh : BitVec 32 := 0
  /-- STREAM_ERRORS, 32 bits; reset 0 -/
  streamErrs : BitVec 32 := 0
  /-- RAW_BYTES, 64 bits; reset 0 -/
  rawBytes : BitVec 64 := 0
  /-- SEALED_C_BYTES, 64 bits; reset 0 -/
  cBytes : BitVec 64 := 0
deriving DecidableEq, Repr

/-! ## Units, self-test, twin, journal, bench -/

/-- A unit identifier: class and number (15 R429). -/
structure UnitId where
  cls : Nat
  num : Nat
deriving DecidableEq, Repr

/-- A self-test result record (12 Table 12-17). -/
structure TestResult where
  id : BitVec 32
  kind : Nat
  outcome : Nat := 6
  scope : BitVec 32
  tested : Nat := 0
  failed : Nat := 0
  yielded : Nat := 0
  first : Nat := 0
  /-- Times of start and end, for the duration -/
  start : BitVec 64 := 0
  duration : Nat := 0
deriving DecidableEq, Repr

/-- Units and self-test (15 R429 to R437, 12 R364, R365). -/
structure Units where
  /-- Quarantined units (15 R431); reset none -/
  quarantined : List UnitId := []
  /-- Units under test (15 R435); reset none -/
  underTest : List UnitId := []
  /-- Events of a C1 encoder counted so far (15 Table 15-2); reset none -/
  events : List (UnitId × Nat) := []
  /-- Next unit of each pooled class for the periodic test (15 R437); reset all 0 -/
  nextUnit : List (Nat × Nat) := []
  /-- Next self-test identifier, 32 bits (12 R364); reset DESIGN CHOICE 1, log 6 -/
  nextTest : BitVec 32 := 1
  /-- Running self-test (12 R364); reset none -/
  running : Option TestResult := none
  /-- Results of the last 16 tests, newest first (12 R365); reset none -/
  results : List TestResult := []
  /-- Slice of a singleton under test: class, and times it yielded in a row (15 R436); reset none -/
  slice : Option (Nat × Nat) := none
  /-- Requests held by a holding slice (15 R436); reset 0 -/
  sliceHeld : Nat := 0
deriving DecidableEq, Repr

/-- A verdict of one die on a frame, as the standby keeps it until the other's is known (15 R441). -/
structure TwinVerdict where
  /-- The standby's own -/
  mine : Bool
  cls : Nat
  serial : Nat
  j : Nat
  pass : Bool
  /-- CRC-32C of the decoded codeword -/
  crc : BitVec 32
deriving DecidableEq, Repr

/-- Twin configuration (15 R438 to R446, Table 15-6). -/
structure Twin where
  /-- TWIN_ROLE: 0 single, 1 active, 2 standby (10 Table 10-6); reset 0 -/
  role : BitVec 2 := 0
  /-- Peer state: 0 DETACHED, 1 SYNCING, 2 ARMED, 3 unpaired (15 Table 15-6); reset 3 DESIGN CHOICE until the record is read, log 6 -/
  peer : Nat := 3
  /-- Die 0 or 1 (15 R438); reset 0 -/
  die : Nat := 0
  /-- Pairing record valid (15 R438); read from flash at boot; reset false -/
  paired : Bool := false
  /-- Peer serial, 16 bytes, from the pairing record (15 Table 15-6); reset DESIGN CHOICE zero, log 6 -/
  peerSerial : Bytes := List.replicate 16 0
  /-- Slots match (15 R439); reset false -/
  slotsMatch : Bool := false
  /-- M2 up (15 Table 15-6); reset false -/
  m2Up : Bool := false
  /-- M2 rate GT/s (15 Table 15-6); reset DESIGN CHOICE 0, log 6 -/
  m2Rate : Nat := 0
  /-- Swap in progress, with the mailbox that waits (15 R445); reset none -/
  swap : Option Nat := none
  /-- Bytes still to copy, MiB (15 Table 15-6); reset 0 -/
  toCopy : Nat := 0
  /-- Verify disagreements, 32 bits; reset 0 -/
  disagreements : BitVec 32 := 0
  /-- Takeovers, 32 bits; reset 0 -/
  takeovers : BitVec 32 := 0
  /-- Swaps, 32 bits; reset 0 -/
  swaps : BitVec 32 := 0
  /-- Mirror resends, 32 bits; reset 0 -/
  resends : BitVec 32 := 0
  /-- Time of the last takeover; reset 0 -/
  lastTakeover : BitVec 64 := 0
  /-- Heartbeats sent (15 Table 15-4), 32 bits; reset 0 -/
  beats : BitVec 32 := 0
  /-- Standby: completions, deferred errors and events whose written or posted mark has not come (15 Table 15-4); reset none -/
  doubt : List MirrorItem := []
  /-- Standby: verdicts waiting for the other die's (15 R441); reset none -/
  verdicts : List TwinVerdict := []
  /-- Standby: frames with two PASS verdicts, and failed attempts of frames: class, serial, index (15 R443); reset none -/
  passes : List (Nat × Nat × Nat) := []
  fails : List (Nat × Nat × Nat) := []
  /-- Standby: the active writes (15 Table 15-4); reset false -/
  peerWrites : Bool := false
  /-- The takeover under way follows a HANDOVER (15 R445); reset false -/
  handed : Bool := false
  /-- The standby is claiming ports (15 R442); reset false -/
  claiming : Bool := false
  /-- Replayed completions and events are owed (11 R333); reset false -/
  replayDue : Bool := false
  /-- FAULT has been sent (15 R442); reset false -/
  faultSent : Bool := false
deriving DecidableEq, Repr

/-- A journal entry (15 Tables 15-8 and 15-9): region offset, type, source, payload. -/
structure JnlEntry where
  off : Nat
  type : Nat
  source : Nat
  seq : Nat
  payload : Bytes
  time : BitVec 64
deriving DecidableEq, Repr

/-- Flaon journal and snapshots (15 R447 to R451, Table 15-11). -/
structure Journal where
  /-- JNL_CONTROL, 32 bits RW (15 Table 15-11); reset 0x0000_0003 -/
  control : BitVec 32 := 3
  /-- JNL_STATUS[1] frozen, 1 bit; reset 0 -/
  frozen : Bool := false
  /-- JNL_STATUS[10:8] cause of the last trigger; reset DESIGN CHOICE 0, log 6 -/
  cause : BitVec 3 := 0
  /-- JNL_HEAD, 64 bits (15 Table 15-11); reset DESIGN CHOICE 0, log 6 -/
  head : Nat := 0
  /-- JNL_WRAPS, 64 bits; reset DESIGN CHOICE 0, log 6 -/
  wraps : BitVec 64 := 0
  /-- JNL_LOST, 64 bits; reset DESIGN CHOICE 0, log 6 -/
  lost : BitVec 64 := 0
  /-- SNAP_HEAD, 64 bits; reset DESIGN CHOICE 0, log 6 -/
  snapHead : Nat := 0
  /-- TRIGGER_TIME, 64 bits; reset DESIGN CHOICE 0, log 6 -/
  triggerTime : BitVec 64 := 0
  /-- TRIGGERS_IGNORED, 32 bits; reset DESIGN CHOICE 0, log 6 -/
  ignored : BitVec 32 := 0
  /-- A trigger has come and SNAP_POST of the rings is being recorded (15 R450); reset false -/
  post : Bool := false
  /-- Entries of the stream, newest first (15 R447); reset none -/
  entries : List JnlEntry := []
  /-- Next sequence of each (type, source) (15 Table 15-8); reset none -/
  seqs : List (Nat × Nat × Nat) := []
  /-- Snapshot records, newest first: ring, ring offset, record bytes (15 R450); reset none -/
  rings : List (Nat × Nat × Bytes) := []
  /-- Samples of a ring gathered towards its next record, oldest first, with their lost marks: ring, samples (15 R450); reset none -/
  gather : List (Nat × List (Int × Bool)) := []
deriving DecidableEq, Repr

/-- Bench mode (15 R452, R453). -/
structure Bench where
  /-- JNL_STATUS[2] bench mode, 1 bit; reset 0 -/
  on : Bool := false
  /-- Journal image loaded; reset empty -/
  image : Bytes := []
  /-- Ring images loaded; reset none -/
  rings : List Bytes := []
  /-- Raw data supplied: record number, bytes; reset none -/
  supply : List (Nat × Bytes) := []
deriving DecidableEq, Repr

/-! ## Firmware, power states, thermal -/

/-- Activation phases of Table 12-14. -/
inductive ActPhase where
  | none
  | preparing
  | draining
  | blackout
deriving DecidableEq, Repr

/-- Firmware images and activation (12 R352 to R355, 16 R472). -/
structure Firmware where
  /-- FW_VERSION running, 64 bits (10 Table 10-5); read at boot, DESIGN CHOICE 0, log 6 -/
  running : BitVec 64 := 0
  /-- Images of slots 0 and 1: header and body bytes (16 Table 16-9); flash, read at boot, DESIGN CHOICE empty, log 6 -/
  slot0 : Bytes := []
  slot1 : Bytes := []
  /-- Boot slot, 1 bit (16 R472); read at boot, DESIGN CHOICE 0, log 6 -/
  bootSlot : Bool := false
  /-- Sequence number of the boot-slot record in force, 32 bits (16 R472) -/
  bootSeq : BitVec 32 := 0
  /-- The boot-slot record in force is record B (16 R472); read at boot, DESIGN CHOICE true before the first mark, log 6 -/
  bootRecB : Bool := true
  /-- Staged image bytes (12 R353); reset empty -/
  staged : Bytes := []
  /-- Fuse floor of the security version (12 R353); fuses, DESIGN CHOICE 0, log 6 -/
  floor : Nat := 0
  /-- The running image is a signed Staurnen image (09 R272); reset false -/
  signed : Bool := false
  /-- FW_COMMITs in GO order, mailbox and RAISE_FLOOR, the first in progress (12 R338, R353); reset none -/
  commit : List (Nat × Bool) := []
  /-- Activation phase (12 Table 12-14); reset none -/
  act : ActPhase := .none
  /-- Mailbox of the FW_ACTIVATE (12 R354); reset none -/
  actMb : Option Nat := none
  /-- Previous image's slot, for the fallback (12 R354); reset false -/
  prevSlot : Bool := false
  /-- Mailboxes holding a request in GO order (12 R337, R354); reset none -/
  heldMb : List Nat := []
deriving DecidableEq, Repr

/-- Power states (12 R356 to R359). -/
structure Power where
  /-- POWER_STATE, 2 bits: P0 to P3 (10 Table 10-6); reset 0b00 -/
  state : BitVec 2 := 0
  /-- Entry under way to this state (12 R358); reset none -/
  entering : Option (BitVec 2) := none
  /-- A wake arrived during the entry under PWR_ARRIVAL = 1 (12 R358); reset false -/
  wake : Bool := false
  /-- Mailbox of the POWER_SET that waits (12 R356); reset none -/
  mb : Option Nat := none
  /-- Targets asked for during the entry, in GO order, with their mailboxes (12 R358); reset none -/
  deeper : List (BitVec 2 × Nat) := []
  /-- The function is in D3hot (12 R359); reset false -/
  d3hot : Bool := false
deriving DecidableEq, Repr

/-- PVT monitor (16 R476). -/
structure Pvt where
  /-- Highest junction reading, 0.125 °C units (16 R476); reset DESIGN CHOICE 0, log 6 -/
  temp : Int := 0
  /-- THERMAL at 100 °C armed (16 R476); reset true -/
  armed : Bool := true
  /-- 9 m/s cap in force (16 R476); reset false -/
  cap : Bool := false
  /-- A thermal trip has occurred (16 R476); reset false -/
  trip : Bool := false
deriving DecidableEq, Repr

/-! ## Parameters -/

/-- The mailbox parameters: values accepted, values in force, identifiers PENDING. An identifier that no list
names holds its default (12 R341 to R345). -/
structure Params where
  /-- Accepted values by identifier (12 R343); reset every default -/
  accepted : List (Nat × Int) := []
  /-- Values in force where an accepted one has not taken effect (12 R344); reset none -/
  inForce : List (Nat × Int) := []
deriving DecidableEq, Repr

/-! ## What leaves the die -/

/-- A completion entry (10 Table 10-12). -/
structure Completion where
  pair : Nat
  tag : Nat
  sqHead : Nat
  status : BitVec 16
  phase : Bool
  replayed : Bool := false
  result : BitVec 64 := 0
  context : BitVec 32 := 0
  ext : BitVec 32 := 0
  time : BitVec 64 := 0
deriving DecidableEq, Repr

/-- Everything the formatter sends out of the die, in order (the model's own record of it, log 4). -/
inductive Output where
  /-- Completion entry written to a CQ (10 Table 10-12) -/
  | completion (c : Completion)
  /-- Event entry written to the event queue, with its phase (10 Table 10-14) -/
  | event (e : Event) (phase : Bool)
  /-- MSI-X message of a vector (10 R285) -/
  | msix (vector : Nat)
  /-- Mailbox response written and STATE set to DONE (12 R337) -/
  | response (mb : Nat)
  /-- DMA write to host memory (10 R278) -/
  | dma (addr : BitVec 64) (bytes : Bytes)
  /-- Motion request entry, with its phase bit and time (10 Table 10-16) -/
  | motion (seq : BitVec 16) (r : MotionReq) (sqHead : Nat) (phase : Bool) (time : BitVec 64)
  /-- Transmit superframe of a port: control word, steering word, per-channel bits, management word (14 Table 14-5) -/
  | superframe (port : Nat) (words : List (BitVec 64))
  /-- Message over M2 (15 Table 15-4) -/
  | peer (m : MirrorItem)
  /-- The standby's confirmation of a mirror item (15 R440) -/
  | confirm
  /-- Heartbeat, FAULT and HANDOVER over M2 (15 R439, R442, R445) -/
  | heartbeat
  | peerFault
  | handover
  /-- Register value returned by a read with an effect of its own (16 R461) -/
  | regValue (off : Nat) (v : BitVec 64)
  /-- Write to the boot flash or the fuses (16 Table 16-9, 12 R353) -/
  | flash (off : Nat) (bytes : Bytes)
  | fuse (floor : Nat)
  /-- Calibration set written to the EEPROM (14 R425) -/
  | eeprom (bytes : Bytes)
deriving DecidableEq, Repr

/-- What host memory does with the entries the formatter writes to it, as the last command with host-memory accesses
reported it (the model's own record of the environment, log 15). -/
structure Env where
  /-- Writes of event entries fail (10 R293); reset false -/
  evFail : Bool := false
  /-- Pairs whose completion-entry writes fail (10 R291); reset none -/
  cqFail : List Nat := []
deriving DecidableEq, Repr

/-! ## The machine -/

/-- The state of the formatter. -/
structure State where
  /-- Commands waiting, first in first out (the model's queue, log 1); reset empty -/
  pending : List Instr := []
  pins : Pins := {}
  time : TimeUnit := {}
  glob : Glob := {}
  evq : EvQueue := {}
  /-- Pairs 0 to 255 (10 R280); reset none -/
  pairs : List (Option Pair) := List.replicate 256 none
  arb : Arbiter := {}
  motion : Motion := {}
  /-- Mailboxes 0 to 15 (12 R336) -/
  mail : List Mailbox := List.replicate 16 {}
  params : Params := {}
  recs : Records := {}
  cart : Cart := {}
  forge : Forge := {}
  anvil : Anvil := {}
  heat : Heat := {}
  blw : Bellows := {}
  rd : ReadSide := {}
  servo : Servo := {}
  tongs : Tongs := {}
  hearth : Hearth := {}
  sec : Sec := {}
  comp : Comp := {}
  units : Units := {}
  twin : Twin := {}
  jnl : Journal := {}
  bench : Bench := {}
  fw : Firmware := {}
  pwr : Power := {}
  pvt : Pvt := {}
  /-- What has left the die, oldest first (model's own, log 4); reset empty -/
  out : List Output := []
  env : Env := {}
  /-- Counter of free values drawn (model's own); reset DESIGN CHOICE 0, log 5 -/
  free : Nat := 0
deriving DecidableEq, Repr

/-- Reasons a step stops with a fault. -/
inductive Fault where
  /-- Raised by no command of this model: kept for the interface. Safe. -/
  | unreachable
deriving DecidableEq, Repr

/-- Reasons a step is refused. -/
inductive Refusal where
  /-- Raised by a dispatch arm of a command that has no meaning yet. Safe. -/
  | notModelled (mnemonic : String)
deriving DecidableEq, Repr

/-- The formatter right after power-on reset has begun (16 R471): every field at the value beside it. -/
def State.reset : State := {}

end Sys2Proof.Machine
end

