-- ==== Sys2Proof/Machine/Params.lean ====
section
/-! DEFINITION. The mailbox parameters (R341 to R345): identifiers, ranges, defaults, the moment an accepted value takes
effect, and the rules between parameters (R92, R147, R176, R201, R222, R243, R400, R427, R454). -/

namespace Sys2Proof.Machine

/-- When an accepted value takes effect (R344). -/
inductive PWhen where
  | atOnce
  | heat
  | frame
  | billet
  | gk2Frame
  | item
  | estimate
  | poolEmpty
  | session
  | reread
deriving DecidableEq, Repr

/-- A row of a parameter table: identifier of its first element, number of elements, range, default, the encoding that
stands for none, when it takes effect. -/
structure ParamRow where
  id : Nat
  elems : Nat := 1
  lo : Int
  hi : Int
  dflt : Int
  none : Bool := false
  eff : PWhen := .atOnce

/-- Identifier of element `e` of row `r` of a table (R341). -/
def pid (table r e : Nat) : Nat := table * 0x10000 + r * 0x100 + e

/-- 1 MiB and 1 GiB in bytes (R8, R342). -/
def mib : Nat := 1048576
def gib : Nat := 1073741824

/-- Table 03-4. -/
def params03 : List ParamRow := [
  { id := 0x03040100, lo := 4, hi := 32, dflt := 24, eff := .frame },
  { id := 0x03040200, lo := 4, hi := 32, dflt := 8, eff := .frame },
  { id := 0x03040300, lo := 16, hi := 256, dflt := 64, eff := .frame },
  { id := 0x03040400, lo := 64, hi := 512, dflt := 192, eff := .frame },
  { id := 0x03040500, lo := 256, hi := 2048, dflt := 1024, eff := .frame },
  { id := 0x03040600, lo := 0, hi := 4, dflt := 2, eff := .billet },
  { id := 0x03040700, lo := 1, hi := 16, dflt := 4, eff := .billet },
  { id := 0x03040800, lo := 4, hi := 8, dflt := 6, eff := .gk2Frame }]

/-- Table 04-7. -/
def params04 : List ParamRow := [
  { id := 0x04070100, lo := 1, hi := 16, dflt := 4, eff := .heat },
  { id := 0x04070200, lo := 16, hi := 32, dflt := 32, eff := .poolEmpty },
  { id := 0x04070300, lo := 64, hi := 512, dflt := 512, eff := .heat },
  { id := 0x04070400, lo := 0, hi := 65536, dflt := 8192, eff := .heat },
  { id := 0x04070500, lo := 8, hi := 32, dflt := 28, eff := .heat },
  { id := 0x04070600, lo := 0, hi := 1, dflt := 0, eff := .poolEmpty },
  { id := 0x04070700, lo := 1, hi := 8, dflt := 3, eff := .heat },
  { id := 0x04070800, lo := 2, hi := 24, dflt := 16, eff := .heat },
  { id := 0x04070900, lo := 1, hi := 24, dflt := 6, eff := .heat },
  { id := 0x04070A00, lo := 0, hi := 192, dflt := 48, eff := .heat },
  { id := 0x04070B00, lo := 0, hi := 1024, dflt := 128, eff := .heat },
  { id := 0x04070C00, lo := 0, hi := 8, dflt := 2, eff := .heat },
  { id := 0x04070D00, lo := 12, hi := 30, dflt := 24, eff := .heat },
  { id := 0x04070E00, lo := 0, hi := 4, dflt := 2, eff := .heat },
  { id := 0x04070F00, lo := 256, hi := 16384, dflt := 2048, eff := .heat },
  { id := 0x04071000, lo := 4, hi := 1024, dflt := 48, eff := .heat },
  { id := 0x04071100, elems := 16, lo := 0, hi := 1023, dflt := 0xFFFF, none := true, eff := .session },
  { id := 0x04071200, lo := 2, hi := 200, dflt := 16, eff := .heat },
  { id := 0x04071300, lo := 256 * mib, hi := 64 * gib, dflt := 2 * gib, eff := .heat },
  { id := 0x04071400, lo := 1 * gib, hi := 128 * gib, dflt := 10 * gib, eff := .heat },
  { id := 0x04071500, lo := 256 * mib, hi := 64 * gib, dflt := 4 * gib, eff := .heat },
  { id := 0x04071600, lo := 1 * gib, hi := 512 * gib, dflt := 16 * gib, eff := .heat },
  { id := 0x04071700, lo := 0, hi := 1000000, dflt := 20000, eff := .heat },
  { id := 0x04071800, lo := 10000, hi := 5000000, dflt := 500000, eff := .heat },
  { id := 0x04071900, lo := 0, hi := 1024 * gib, dflt := 192 * gib, eff := .heat },
  { id := 0x04071A00, lo := 10000, hi := 10000000, dflt := 100000, eff := .heat },
  { id := 0x04071B00, lo := 0, hi := 1, dflt := 1, eff := .heat }]

/-- Table 05-2: the detector targets of GK4, GK3 and GK2. -/
def detTargets : List Int := [14, 10, -10, -14, 16, 12, -12, -16, 16, 16, -16, -16]

/-- Table 05-7 without DET_TARGET, whose 12 elements have defaults of their own. -/
def params05 : List ParamRow := [
  { id := 0x05070200, lo := 0, hi := 7, dflt := 3, eff := .item },
  { id := 0x05070300, lo := 8, hi := 16, dflt := 12, eff := .item },
  { id := 0x05070400, lo := 0, hi := 1, dflt := 0, eff := .item },
  { id := 0x05070500, lo := 8, hi := 16, dflt := 10, eff := .item },
  { id := 0x05070600, lo := 2, hi := 12, dflt := 6, eff := .item },
  { id := 0x05070601, lo := 6, hi := 20, dflt := 14, eff := .item },
  { id := 0x05070700, lo := 1, hi := 8, dflt := 3, eff := .item },
  { id := 0x05070701, lo := 4, hi := 16, dflt := 10, eff := .item },
  { id := 0x05070800, lo := 0, hi := 3, dflt := 2, eff := .item },
  { id := 0x05070900, lo := 0, hi := 3, dflt := 0, eff := .item },
  { id := 0x05070A00, lo := 1, hi := 8, dflt := 2, eff := .item },
  { id := 0x05070B00, lo := 25, hi := 75, dflt := 50, eff := .item },
  { id := 0x05070C00, lo := 4, hi := 64, dflt := 12, eff := .item },
  { id := 0x05070D00, lo := 10, hi := 100, dflt := 40, eff := .item },
  { id := 0x05070E00, lo := 10, hi := 100, dflt := 60, eff := .item },
  { id := 0x05070F00, lo := 2, hi := 32, dflt := 4, eff := .item },
  { id := 0x05071000, lo := 0, hi := 32, dflt := 8, eff := .item },
  { id := 0x05071100, lo := 0, hi := 1, dflt := 1, eff := .item },
  { id := 0x05071200, lo := 16, hi := 4095, dflt := 256, eff := .item },
  { id := 0x05071300, lo := 0, hi := 1, dflt := 0, eff := .item }]

/-- Table 06-5 without TL_BQ, whose first coefficient of five defaults to 1.0 (R195). -/
def params06 : List ParamRow := [
  { id := 0x06050100, lo := 10, hi := 40, dflt := 20 },
  { id := 0x06050200, lo := 5, hi := 40, dflt := 12 },
  { id := 0x06050300, lo := 5, hi := 40, dflt := 12 },
  { id := 0x06050400, lo := 20, hi := 100, dflt := 69 },
  { id := 0x06050500, lo := 25, hi := 90, dflt := 50 },
  { id := 0x06050600, lo := 0, hi := 20000, dflt := 2000 },
  { id := 0x06050700, lo := 2, hi := 64, dflt := 16 },
  { id := 0x06050800, lo := 0, hi := 1, dflt := 0 },
  { id := 0x06050900, elems := 30, lo := -8388608, hi := 8388607, dflt := 0, eff := .estimate },
  { id := 0x06050A00, lo := 0, hi := 31, dflt := 0 },
  { id := 0x06050C00, lo := 1, hi := 64, dflt := 8 },
  { id := 0x06050D00, lo := 100, hi := 1000, dflt := 500 },
  { id := 0x06050E00, lo := 100, hi := 100000, dflt := 1000 }]

/-- Table 07-8. -/
def params07 : List ParamRow := [
  { id := 0x07080100, lo := 500, hi := 20000, dflt := 3000, eff := .reread },
  { id := 0x07080200, lo := 0, hi := 6, dflt := 6, eff := .reread },
  { id := 0x07080300, lo := 8, hi := 64, dflt := 24, eff := .reread },
  { id := 0x07080400, lo := 1 * gib, hi := 512 * gib, dflt := 64 * gib, eff := .reread },
  { id := 0x07080500, lo := 0, hi := 10000000, dflt := 50000, eff := .reread },
  { id := 0x07080600, lo := 256, hi := 65536, dflt := 1024, eff := .reread },
  { id := 0x07080700, lo := 0, hi := 1, dflt := 1, eff := .reread }]

/-- Table 08-5; the encodings of CMP_DEFAULT are checked by `cmpSetting`. -/
def params08 : List ParamRow := [
  { id := 0x08050100, lo := 1, hi := 31, dflt := 0x0C },
  { id := 0x08050200, lo := 0, hi := 3, dflt := 2 },
  { id := 0x08050300, lo := 0, hi := 3, dflt := 0 }]

/-- Table 12-7. -/
def params12 : List ParamRow := [
  { id := 0x0C070100, lo := 0, hi := 60000000, dflt := 50000 },
  { id := 0x0C070200, lo := 0, hi := 3600000000, dflt := 30000000 },
  { id := 0x0C070300, lo := 0, hi := 86400000000, dflt := 0 },
  { id := 0x0C070400, lo := 0, hi := 1, dflt := 0 },
  { id := 0x0C070500, lo := 10000, hi := 10000000, dflt := 100000 },
  { id := 0x0C070600, lo := 8000, hi := 64000, dflt := 8000 },
  { id := 0x0C070700, lo := 0, hi := 512 * gib, dflt := 32 * gib }]

/-- Tables 13-15, 14-15 and 15-12. -/
def params13 : List ParamRow := [
  { id := 0x0D0F0100, lo := 65536, hi := 458752, dflt := 262144 },
  { id := 0x0D0F0200, lo := 131072, hi := 983040, dflt := 786432 },
  { id := 0x0D0F0300, lo := 0, hi := 1000, dflt := 1 },
  { id := 0x0D0F0400, lo := 256, hi := 65536, dflt := 2048 },
  { id := 0x0D0F0500, lo := 1, hi := 100, dflt := 2 },
  { id := 0x0D0F0600, lo := 1000, hi := 1000000, dflt := 10000 },
  { id := 0x0D0F0700, lo := 1, hi := 65535, dflt := 1000 },
  { id := 0x0D0F0800, lo := 0, hi := 60000000, dflt := 10000000 },
  { id := 0x0E0F0100, lo := 0, hi := 1, dflt := 1 },
  { id := 0x0E0F0200, lo := 1, hi := 65535, dflt := 64 },
  { id := 0x0E0F0300, lo := 500, hi := 20000, dflt := 2000 },
  { id := 0x0F0C0100, lo := 0, hi := 3600000000, dflt := 10000000 },
  { id := 0x0F0C0200, elems := 2, lo := 0, hi := 1023, dflt := 0xFFFF, none := true },
  { id := 0x0F0C0300, lo := 0, hi := 0x7F, dflt := 0x3F },
  { id := 0x0F0C0400, lo := 0, hi := 100, dflt := 50 }]

/-- DET_TARGET (R176, R341): element 4f + i. -/
def paramsDet : List ParamRow :=
  detTargets.mapIdx (fun i d => { id := 0x05070100 + i, lo := -31, hi := 31, dflt := d, eff := .item })

/-- TL_BQ (R195, R341): element 5n + k, bypass by default. -/
def paramsTl : List ParamRow :=
  (List.range 10).map (fun i =>
    { id := 0x06050B00 + i, lo := -8388608, hi := 8388607, dflt := if i % 5 = 0 then 4194304 else 0, eff := .estimate })

/-- Every parameter table. -/
def paramTable : List ParamRow :=
  params03 ++ params04 ++ paramsDet ++ params05 ++ params06 ++ paramsTl ++ params07 ++ params08 ++ params12 ++ params13

/-- The row that defines an identifier. -/
def paramRow (id : Nat) : Option ParamRow := paramTable.find? (fun r => r.id ≤ id && id < r.id + r.elems)

/-- The default of an identifier, 0 for an unknown one. -/
def paramDefault (id : Nat) : Int := match paramRow id with
  | some r => r.dflt
  | none => 0

/-- The value last accepted, or the default (R344). -/
def State.accepted (s : State) (id : Nat) : Int := (assocGet s.params.accepted id).getD (paramDefault id)

/-- The value in force (R344). -/
def State.param (s : State) (id : Nat) : Int := (assocGet s.params.inForce id).getD (s.accepted id)

/-- The value in force as a natural number. -/
def State.paramN (s : State) (id : Nat) : Nat := (s.param id).toNat

/-- The event at which accepted values of class `w` take effect has occurred: PENDING clears (R344). -/
def State.applyParams (w : PWhen) (s : State) : State :=
  { s with params := { s.params with inForce := s.params.inForce.filter (fun e => (paramRow e.1).map (·.eff) ≠ some w) } }

/-! ## Parameters that wait for the pool (R130, R147) -/

/-- The pool is empty: no list holds a frame, none is formed or waits for a verdict (R130). -/
def State.poolEmpty (s : State) : Bool :=
  s.anvil.free = 524288 && s.forge.formed = [] && s.forge.reforms = [] && s.anvil.chans.all (fun c => c.enc = [])

/-- ANVIL_PROTECT and ANVIL_WINDOW take effect on an empty pool. -/
def State.takePool (s : State) : State :=
  if s.poolEmpty then
    let s := s.applyParams .poolEmpty
    { s with anvil := { s.anvil with secded := s.paramN 0x04070600 = 1, window := s.paramN 0x04070200 } }
  else s

/-! ## Ranges and rules -/

/-- A compression setting that Table 08-2 defines. -/
def cmpSetting (v : Nat) : Bool :=
  v < 32 && ((v % 8 = 1 && v / 8 = 0) || ((v % 8 = 2 || v % 8 = 3 || v % 8 = 4) && v / 8 ≠ 0))

/-- An entry's own range (R343). -/
def paramInRange (id : Nat) (v : Int) : Bool :=
  match paramRow id with
  | none => false
  | some r => ((r.lo ≤ v && v ≤ r.hi) || (r.none && v = 0xFFFF)) && (id ≠ 0x08050100 || cmpSetting v.toNat)

/-- The rules between parameters on a set of values `g`: each with the identifiers it relates (R147, R176, R201, R222). -/
def paramRules (pool : Nat) (g : Nat → Int) : List (List Nat × Bool) := [
  ([0x04070A00, 0x03040400], g 0x04070A00 ≤ g 0x03040400),
  ([0x04070900, 0x03040100], g 0x04070900 ≤ g 0x03040100),
  ([0x04071400, 0x04071300], g 0x04071300 + gib ≤ g 0x04071400),
  ([0x04071600, 0x04071500], g 0x04071500 + gib ≤ g 0x04071600),
  ([0x05070100], g 0x05070100 ≠ 0),
  ([0x05070104], g 0x05070104 ≠ 0),
  ([0x05070108], g 0x05070108 ≠ 0),
  ([0x05070E00, 0x05070D00], g 0x05070D00 ≤ g 0x05070E00),
  ([0x05070900, 0x05070800], g 0x05070900 ≤ g 0x05070800),
  ([0x06050200, 0x06050100], g 0x06050200 ≤ g 0x06050100),
  ([0x07080400, 0x04071600], g 0x04071600 + gib ≤ g 0x07080400),
  ([0x07080400], g 0x07080400 ≤ pool)]

end Sys2Proof.Machine
end

