-- ==== Sys2Proof/Machine/HMap.lean ====
section
/-! DEFINITION. The Hearth's size, address map and regions (R366 to R372, Tables 13-1, 13-4, 13-5), and reads and writes of
its contents in canonical form. -/

namespace Sys2Proof.Machine

/-- Capacity of one channel in bytes: 2 sub-channels × ranks × 8 devices × density (Table 13-1). -/
def Hearth.chanBytes (h : Hearth) : Nat := gib * (2 * h.nranks * h.density)

/-- Capacity that the address map covers: N channels or pairs (R368, R369). -/
def Hearth.capacity (h : Hearth) : Nat := h.nwork * h.chanBytes

/-- Banks of a rank: 16 for 8 Gb devices, 32 for larger (R369). -/
def Hearth.banks (h : Hearth) : Nat := if h.density = 8 then 16 else 32

/-- Training rows: 8 KiB × banks × ranks × 2 sub-channels × N (R371). -/
def Hearth.trainingBytes (h : Hearth) : Nat := 8192 * h.banks * h.nranks * 2 * h.nwork

/-- Rows of a bank (Table 13-4). -/
def Hearth.rows (h : Hearth) : Nat := if h.density = 24 then 98304 else if h.density = 32 then 131072 else 65536

/-- The interleave grain G in bytes (Table 13-3). -/
def Hearth.G (h : Hearth) : Nat := 2 ^ h.grain

/-- First addresses of the regions: both copies of the system region, journal, snapshots, data pool, in the order of
Table 13-5 (DEDUCED, log 16). -/
def journalBase : Nat := 1 * gib
def snapBase : Nat := 5 * gib
def poolBase : Nat := 13 * gib

/-- Size of the data pool (Table 13-5). -/
def Hearth.poolBytes (h : Hearth) : Nat := h.capacity - (13 * gib + h.trainingBytes)

/-- The read-ahead region: the data pool less 4 GiB (R372). -/
def Hearth.readAheadBytes (h : Hearth) : Nat := h.capacity - (17 * gib + h.trainingBytes)

/-- Highest address + 1: the capacity less the training rows. -/
def Hearth.limit (h : Hearth) : Nat := h.capacity - h.trainingBytes

/-- The rotation table over the working channels (R369). -/
def rotTable (working : List Nat) : List (Option Nat) :=
  let n := working.length
  (List.range (n * (64 / n))).map (fun i => working[i % n]?)

/-- Channel and channel-local address of a Hearth address; none for a hole or an address outside the map (R369, R370). -/
def Hearth.place (h : Hearth) (a : Nat) : Option (Nat × Nat) :=
  let len := h.rot.length
  if a < h.limit then
    let c := a / h.G
    let i := c % len
    match (h.rot[i]?).join with
    | none => none
    | some ch =>
      let k := ((h.rot.take i).filter (· = some ch)).length
      let per := (h.rot.filter (· = some ch)).length
      some (ch, (c / len * per + k) * h.G + a % h.G)
  else none

/-- DRAM fields of a channel-local address (Table 13-4). -/
structure DramAddr where
  byte : Nat
  sub : Nat
  group : Nat
  bank : Nat
  rank : Nat
  column : Nat
  row : Nat
deriving DecidableEq, Repr

/-- Table 13-4, from low bits to high, with the bank-group hash. -/
def Hearth.dram (h : Hearth) (u : Nat) : DramAddr :=
  let nba := if h.density = 8 then 1 else 2
  let nrk := if h.nranks = 1 then 0 else 1
  let o := 12 + nba + nrk
  let row := u / 2 ^ (o + 5)
  { byte := u % 64, sub := bitsOf u 6 1, group := (bitsOf u 9 3) ^^^ (row % 8), bank := bitsOf u 12 nba,
    rank := bitsOf u (12 + nba) nrk, column := 16 * (4 * bitsOf u o 5 + bitsOf u 7 2), row := row }

/-- The contents in canonical form: addresses strictly rising, no byte equal to what an unlisted address reads (zero). -/
abbrev Mem.wf (m : List Host.Cell) : Prop := (m.map Prod.fst).Pairwise (· < ·) ∧ ∀ c ∈ m, c.2 ≠ 0

/-- The byte at an address; zero where nothing is listed (R395, log 10). -/
def Mem.read : List Host.Cell → Nat → Byte
  | [], _ => 0
  | (a, b) :: r, x => if a = x then b else Mem.read r x

/-- The contents with the byte at `x` set to `v`, in canonical form. -/
def Mem.write : List Host.Cell → Nat → Byte → List Host.Cell
  | [], x, v => if v = 0 then [] else [(x, v)]
  | (a, b) :: r, x, v =>
    if x < a then (if v = 0 then (a, b) :: r else (x, v) :: (a, b) :: r)
    else if x = a then (if v = 0 then r else (x, v) :: r)
    else (a, b) :: Mem.write r x v

/-- A byte string written from an address on. -/
def Mem.writes : List Host.Cell → Nat → Bytes → List Host.Cell
  | m, _, [] => m
  | m, a, b :: r => Mem.writes (Mem.write m a b) (a + 1) r

/-- `n` bytes read from an address on. -/
def Mem.reads (m : List Host.Cell) (a n : Nat) : Bytes := (List.range n).map (fun i => Mem.read m (a + i))

/-- Bytes of the chunks of a staging map: `n` bytes from offset `o` of the record (R372). -/
def Hearth.stageRead (h : Hearth) (chunks : List (Nat × Nat)) (o n : Nat) : Bytes :=
  (List.range n).map (fun i =>
    match assocGet chunks ((o + i) / h.G) with
    | some c => Mem.read h.mem (c * h.G + (o + i) % h.G)
    | none => 0)

/-- `data` written from offset `o` of the record; bytes without a chunk go nowhere (R306, R372). -/
def Hearth.stageWrite (h : Hearth) (chunks : List (Nat × Nat)) : Nat → Bytes → Hearth
  | _, [] => h
  | o, b :: r =>
    let h' := match assocGet chunks (o / h.G) with
      | some c => { h with mem := Mem.write h.mem (c * h.G + o % h.G) b }
      | none => h
    Hearth.stageWrite h' chunks (o + 1) r
termination_by structural _ d => d

/-- The lowest free chunk of the data pool that lies on a working channel (R370, R372; the choice is log 11). -/
def Hearth.freeChunk (h : Hearth) : Option Nat :=
  let first := poolBase / h.G
  let count := h.poolBytes / h.G
  -- among the first `used + holes + 1` chunks one is free, unless the pool is exhausted
  let look := min count (64 * (h.used.length + 1))
  (List.range look).findSome? (fun i =>
    let c := first + i
    if c ∈ h.used then none else if (h.place (c * h.G)).isSome then some c else none)

/-- Chunks of the pool not in use, holes apart. -/
def Hearth.freeBytes (h : Hearth) : Nat :=
  let live := (h.rot.filter (·.isSome)).length
  h.poolBytes / h.G * live / max 1 h.rot.length * h.G - h.used.length * h.G

end Sys2Proof.Machine
end

