-- ==== Sys2Proof/Machine/Status.lean ====
section
/-! DEFINITION. The status codes of Table 10-18 (R297). -/

namespace Sys2Proof.Machine.Status

def success : BitVec 16 := 0x0000
def abortCaught : BitVec 16 := 0x0001
def abortNotCaught : BitVec 16 := 0x0002
def invalidOpcode : BitVec 16 := 0x0101
def invalidField : BitVec 16 := 0x0102
def invalidRecord : BitVec 16 := 0x0103
def tagInUse : BitVec 16 := 0x0104
def dataTransferError : BitVec 16 := 0x0105
def sequenceError : BitVec 16 := 0x0106
def noCartridge : BitVec 16 := 0x0107
def formatNotWritable : BitVec 16 := 0x0108
def recordAbsent : BitVec 16 := 0x0201
def endOfData : BitVec 16 := 0x0202
def authFailed : BitVec 16 := 0x0203
def decompressError : BitVec 16 := 0x0204
def recordSealed : BitVec 16 := 0x0205
def recordTooLarge : BitVec 16 := 0x0206
def unrecoveredRecord : BitVec 16 := 0x0301
def unverifiedWrite : BitVec 16 := 0x0302
def servoNotReady : BitVec 16 := 0x0303
def servoLost : BitVec 16 := 0x0304
def cartridgeFull : BitVec 16 := 0x0305
def calibrationDegraded : BitVec 16 := 0x0306
def motionFault : BitVec 16 := 0x0307
def bufferDiscarded : BitVec 16 := 0x0401
def bufferLoss : BitVec 16 := 0x0402
def bufferError : BitVec 16 := 0x0403
def keyNotAvailable : BitVec 16 := 0x0501
def keyErasing : BitVec 16 := 0x0502
def keyZeroized : BitVec 16 := 0x0503
def plaintextRefused : BitVec 16 := 0x0504
def sessionExhausted : BitVec 16 := 0x0505
def cutThroughRefused : BitVec 16 := 0x0506
def wrapInvalid : BitVec 16 := 0x0507
def labelInvalid : BitVec 16 := 0x0508
def roleRequired : BitVec 16 := 0x0509
def loginLocked : BitVec 16 := 0x050A
def selfTestFailed : BitVec 16 := 0x050B
def tampered : BitVec 16 := 0x050C
def uncommissioned : BitVec 16 := 0x050D
def loginFailed : BitVec 16 := 0x050E
def slotBusy : BitVec 16 := 0x0601
def openLimit : BitVec 16 := 0x0602
def resourceBusy : BitVec 16 := 0x0603
def abortedByRequest : BitVec 16 := 0x0701
def abortedQueueDeleted : BitVec 16 := 0x0702
def abortedPreempted : BitVec 16 := 0x0703
def abortedWriteAbort : BitVec 16 := 0x0704

end Sys2Proof.Machine.Status
end

