-- ==== Sys2Proof/Machine/Ops.lean ====
section
/-! DEFINITION. The shared operations of the host side: time stamps, journal entries, MSI-X, events, doorbell errors,
completions, motion requests, mailbox responses. Every command's effect on these goes through here. -/

namespace Sys2Proof.Machine

/-! ## Access to parts of the state -/

/-- Pair `q`, if it exists. -/
def State.pair? (s : State) (q : Nat) : Option Pair := (s.pairs[q]?).join

/-- Pair `q` changed. -/
def State.modPair (q : Nat) (f : Pair → Pair) (s : State) : State :=
  { s with pairs := modAt s.pairs q (Option.map f) }

/-- Mailbox `m` as it stands. -/
def State.mbox (s : State) (m : Nat) : Mailbox := (s.mail[m]?).getD {}

/-- Mailbox `m` changed. -/
def State.modMbox (m : Nat) (f : Mailbox → Mailbox) (s : State) : State := { s with mail := modAt s.mail m f }

/-- One output appended (log 4). -/
def State.emit (o : Output) (s : State) : State := { s with out := s.out ++ [o] }

/-- The time stamp of R466 as Table 10-12 lays it out: seconds [31:0] above, nanoseconds below. -/
def State.now (s : State) : BitVec 64 := BitVec.ofNat 64 (2 ^ 32 * (s.time.sec.toNat % 2 ^ 32) + s.time.ns.toNat)

/-- Seconds [31:0] of the time counter. -/
def State.nowSec (s : State) : BitVec 32 := BitVec.ofNat 32 s.time.sec.toNat

/-- An item sent to the standby, by an active die whose peer is not detached (R440, Table 15-4). -/
def State.mirror (m : MirrorItem) (s : State) : State :=
  if s.twin.role = 1 && s.twin.m2Up && (s.twin.peer = 1 || s.twin.peer = 2) then s.emit (.peer m) else s

/-- One more free value has been drawn (log 5). -/
def State.drew (s : State) : State := { s with free := s.free + 1 }

/-! ## Journal (R447 to R449) -/

/-- Bytes of the journal region (Table 13-5). -/
def journalBytes : Nat := 4 * gib

/-- Entries are being recorded: ENABLE set, not frozen, the journal's domain not gated (R447, R450, Table 16-2). -/
def State.jnlOn (s : State) : Bool := s.jnl.control.getLsbD 0 && !s.jnl.frozen && !s.hearth.selfRefresh

/-- Entry placed at the head, or at the begin of the region where it does not fit before its end; entries it covers whole are gone;
JNL_HEAD and JNL_WRAPS moved (R447). -/
def Journal.put (j : Journal) (type src : Nat) (payload : Bytes) (time : BitVec 64) : Journal :=
  let n := 16 * (1 + cdiv payload.length 16)
  let wrap := j.head + n > journalBytes
  let off := if wrap then 0 else j.head
  let seq := ((assocGet j.seqs (65536 * type + src)).getD (0, 0)).2
  let keep := fun (e : JnlEntry) => !(off ≤ e.off && e.off + 16 * (1 + cdiv e.payload.length 16) ≤ off + n)
  { j with
    entries := { off := off, type := type, source := src, seq := seq, payload := payload, time := time } :: j.entries.filter keep
    seqs := assocSet j.seqs (65536 * type + src) (0, (seq + 1) % 2 ^ 32)
    head := (off + n) % journalBytes
    wraps := if wrap || off + n = journalBytes then j.wraps + 1 else j.wraps }

/-- An entry of a type and source (R447); one that lands in a hole is counted in JNL_LOST and a GAP entry with its offset
and length follows (R448). -/
def State.journal (type src : Nat) (payload : Bytes) (s : State) : State :=
  if s.jnlOn then
    let j := s.jnl.put type src payload s.now
    let off := (j.entries.head?.map (·.off)).getD 0
    let n := 16 * (1 + cdiv payload.length 16)
    if (s.hearth.place (journalBase + off)).isSome then { s with jnl := j }
    else
      let j := { j with entries := j.entries.drop 1, lost := j.lost + 1 }
      { s with jnl := j.put 0x0E 0 (leBytes 8 off ++ leBytes 8 n) s.now }
  else s

/-- An ORDER entry at a crossing point of Table 15-10 (R449). -/
def State.order (point : Nat) (stamp : Bytes) (s : State) : State := s.journal 0x09 point stamp

/-- A DMA_DIGEST entry for data read from host memory: tag, byte offset, length of up to 64 KiB, CRC-32C (Table 15-9). -/
def State.dmaDigest (q tag : Nat) (o : Nat) (piece : Bytes) (s : State) : State :=
  s.journal 0x02 q (leBytes 4 tag ++ leBytes 8 o ++ leBytes 4 piece.length ++ leBytes 4 (crc32c piece).toNat)

/-- The DMA_DIGEST entries of a command's data, one for each 64 KiB. -/
def State.dmaDigests (q tag : Nat) (data : Bytes) (s : State) : State :=
  (List.range (cdiv data.length 65536)).foldl (fun s i => s.dmaDigest q tag (65536 * i) ((data.drop (65536 * i)).take 65536)) s

/-- A LINK_IN entry: the header of an inbound request, which the spec does not lay out (Table 15-9, log 20). -/
def State.linkIn (s : State) : State :=
  (s.journal 0x01 (if s.glob.m0Up then 0 else 1) (leBytes 16 (Config.linkHeader s.free).toNat)).drew

/-! ## MSI-X (R285) -/

/-- Vector `v` is signalled: a message if it is not masked and interrupts are not held, otherwise the pending bit
(R285, R359). -/
def State.signal (v : Nat) (s : State) : State :=
  match s.glob.msix[v]? with
  | none => s
  | some e =>
    if e.masked || s.pwr.d3hot then
      { s with glob := { s.glob with msix := modAt s.glob.msix v (fun e => { e with pending := true }) } }
    else s.emit (.msix v)

/-- A signal still pending on vector `v` is cancelled and its pending bit cleared (R285). -/
def State.cancelSignal (v : Nat) (s : State) : State :=
  { s with glob := { s.glob with msix := modAt s.glob.msix v (fun e => { e with pending := false }) } }

/-- Vectors that are pending and no longer masked send their message, as at unmask or D0 (R285, R359). -/
def State.flushSignals (s : State) : State :=
  (List.range 257).foldl (fun t v =>
    match t.glob.msix[v]? with
    | some e => if e.pending && !e.masked && !t.pwr.d3hot then (t.cancelSignal v).emit (.msix v) else t
    | none => t) s

/-! ## Event queue (R293) -/

/-- Entries of the event ring. -/
def EvQueue.size (e : EvQueue) : Nat := 2 ^ e.log2.toNat

/-- Written and unconsumed entries. -/
def EvQueue.inUse (e : EvQueue) : Nat := (e.tail + e.size - e.head) % e.size

/-- An event entry can be written now (R283, R293). -/
def EvQueue.canPost (e : EvQueue) : Bool := e.enable && !e.error && e.inUse + 1 < e.size

/-- The deferred-error list entry of a posted or held DEFERRED_ERROR event (Table 12-12). -/
def markDeferred (l : List DeferredEntry) (num : Nat) (st : BitVec 16) (posted : Bool) : List DeferredEntry :=
  l.map (fun d => if d.num = num && d.status = st && !d.posted then { d with posted := posted, held := !posted } else d)

/-- An event joins the held events: merged into an entry of its code while any event is held, DEFERRED_ERROR excepted (R293). -/
def State.holdEvent (e : Event) (s : State) : State :=
  let same := fun (h : Event) => h.code = e.code && e.code ≠ 0x0001
  let held := if s.evq.held.any same then
      s.evq.held.map (fun h => if same h then { h with count := h.count + e.count } else h)
    else s.evq.held ++ [e]
  let s := { s with evq := { s.evq with held := held } }
  if e.code = 0x0001 then
    { s with recs := { s.recs with deferred := markDeferred s.recs.deferred e.a e.status false } }
  else s

/-- An event entry is written at the tail, the phase inverts at the wrap, vector 256 is signalled, the posting order is
stamped (R283, R293, Table 15-10). -/
def State.writeEvent (e : Event) (s : State) : State :=
  let q := s.evq
  let t := (q.tail + 1) % q.size
  let s := { s with evq := { q with tail := t, phase := if t = 0 then !q.phase else q.phase } }
  let s := ((s.emit (.event e q.phase)).order 7 (leBytes 2 e.code.toNat ++ leBytes 2 e.count)).mirror (.posted e.code e.a)
  let s := if e.code = 0x0001 then
      { s with recs := { s.recs with deferred := markDeferred s.recs.deferred e.a e.status true } }
    else s
  s.signal 256

/-- Events that wait for firmware during a blackout: all but the hardware groups 0x01 and 0x02 (R355; the split is log 17). -/
def firmwareEvent (e : Event) : Bool := e.code.toNat / 256 ≠ 1 && e.code.toNat / 256 ≠ 2

/-- An event occurs: written, or held (R293). A write that fails puts the queue into the error state and holds the event. -/
def State.postEvent (e : Event) (s : State) : State :=
  let s := s.mirror (.event e.code e.status e.a e.b)
  if s.evq.held ≠ [] || !s.evq.canPost || (s.fw.act = .blackout && firmwareEvent e) then s.holdEvent e
  else if s.env.evFail then { s with evq := { s.evq with error := true } }.holdEvent e
  else s.writeEvent e

/-- An event with arguments, at the present time. -/
def State.event (code : Nat) (a b : Nat) (s : State) : State :=
  s.postEvent { code := BitVec.ofNat 16 code, a := a, b := b, time := s.now }

/-- A trigger of SNAP_TRIG bit `cause` (R450): ignored and counted while the rings are frozen, otherwise a TRIGGER entry,
JOURNAL_TRIGGER, and the rings record SNAP_POST of their length more. -/
def State.trigger (cause : Nat) (s : State) : State :=
  if !bitAt (s.paramN 0x0F0C0300) cause then s
  else if s.jnl.frozen then { s with jnl := { s.jnl with ignored := s.jnl.ignored + 1 } }
  else
    let s := (s.journal 0x0D cause [byte cause]).event 0x0406 cause 0
    { s with jnl := { s.jnl with cause := BitVec.ofNat 3 cause, triggerTime := s.now, post := true } }

/-- Held events posted in order of occurrence while the ring has space (R293). -/
def drainHeld : List Event → State → State
  | [], s => s
  | e :: r, s =>
    if !s.evq.canPost || (s.fw.act = .blackout && firmwareEvent e) then s
    else if s.env.evFail then { s with evq := { s.evq with error := true } }
    else drainHeld r ({ s with evq := { s.evq with held := r } }.writeEvent e)

/-- Held events posted as space allows. -/
def State.drainEvents (s : State) : State := drainHeld s.evq.held s

/-! ## Doorbell errors (R286) -/

/-- DOORBELL_ERRORS counts one write or report (Table 10-5). -/
def State.countError (s : State) : State :=
  { s with glob := { s.glob with doorbellErrors := satAdd 32 s.glob.doorbellErrors 1 } }

/-- An ignored doorbell write: counted, and DOORBELL_INVALID names the pair (R286). -/
def State.doorbellInvalid (who v : Nat) (s : State) : State := s.countError.event 0x0500 who v

/-! ## Completions (R283 to R285, R290, R291) -/

/-- Outstanding command of a pair and tag. -/
def State.cmd? (s : State) (q tag : Nat) : Option Cmd := s.recs.cmds.find? (fun c => c.pair = q && c.tag = tag)

/-- The command of a pair and tag changed. -/
def State.modCmd (q tag : Nat) (f : Cmd → Cmd) (s : State) : State :=
  { s with recs := { s.recs with cmds := s.recs.cmds.map (fun c => if c.pair = q && c.tag = tag then f c else c) } }

/-- The command leaves the outstanding ones; its lock entry is released with it (R309). -/
def State.dropCmd (q tag : Nat) (s : State) : State :=
  { s with recs := { s.recs with cmds := s.recs.cmds.filter (fun c => !(c.pair = q && c.tag = tag)) } }

/-- The completion entry of a pair as it stands (Table 10-12). -/
def Pair.entryFor (p : Pair) (q : Nat) (tag : Nat) (ctx : BitVec 32) (st : BitVec 16) (res : BitVec 64) (ext : BitVec 32)
    (time : BitVec 64) (replayed : Bool) : Completion :=
  { pair := q, tag := tag, sqHead := p.sqFetch, status := st, phase := p.cqPhase, replayed := replayed, result := res,
    context := if p.rev = 1 then 0 else ctx, ext := if p.rev = 1 then 0 else ext,
    time := if p.rev = 1 then 0 else time }

/-- The pair after one completion entry: tail moved, phase inverted at the wrap (R283). -/
def Pair.advanceCq (p : Pair) : Pair :=
  let t := (p.cqTail + 1) % 2 ^ p.cqLog
  { p with cqTail := t, cqPhase := if t = 0 then !p.cqPhase else p.cqPhase }

/-- A completion calls for its interrupt at once: status class not 0x00, the coalescing count reached, or a coalescing time
of zero (R285). -/
def Pair.signalsNow (p : Pair) (st : BitVec 16) : Bool :=
  st.toNat / 256 ≠ 0 || p.coTime = 0 || p.coCount ≤ p.unsignalled + 1

/-- A completion entry of pair `q` is written, or its failing write puts the pair into the error state (R290, R291). -/
def State.writeEntry (q tag : Nat) (ctx : BitVec 32) (st : BitVec 16) (res : BitVec 64) (ext : BitVec 32)
    (replayed : Bool) (s : State) : State :=
  match s.pair? q with
  | none => s
  | some p =>
    if p.error then s
    else if q ∈ s.env.cqFail then (s.modPair q (fun p => { p with error := true })).event 0x0501 q 0
    else
      let now := p.signalsNow st
      let s := s.modPair q (fun p => { p.advanceCq with unsignalled := if now then 0 else p.unsignalled + 1 })
      let s := s.mirror (.completion q tag st res ext)
      let s := (s.emit (.completion (p.entryFor q tag ctx st res ext s.now replayed))).mirror (.written q tag)
      if now then s.signal q else s

/-- The pair's commands stay as they stand in its error state (R291). -/
def State.pairError (s : State) (q : Nat) : Bool := match s.pair? q with
  | some p => p.error
  | none => false

/-- A completion entry of an outstanding command, which then is outstanding no longer; in the error state the command
stays (R291). -/
def State.writeCompletion (q tag : Nat) (ctx : BitVec 32) (st : BitVec 16) (res : BitVec 64) (ext : BitVec 32)
    (replayed : Bool) (s : State) : State :=
  let s := s.writeEntry q tag ctx st res ext replayed
  if s.pairError q then s else s.dropCmd q tag

/-- The outstanding command of a pair and tag completes with a status, a result and a result extension, with REPLAYED set where a failed
die fetched it (R333). -/
def State.complete (q tag : Nat) (st : BitVec 16) (res : BitVec 64) (ext : BitVec 32) (s : State) : State :=
  match s.cmd? q tag with
  | none => s
  | some c => s.writeCompletion q tag (BitVec.ofNat 32 (getLe c.entry 4 4)) st res ext c.inDoubt

/-! ## Motion requests (R294 to R296) -/

/-- Number of the motion pair. -/
def State.motionPair (s : State) : Option Nat :=
  (List.range 256).find? (fun q => match s.pair? q with
    | some p => p.motion
    | none => false)

/-- The CQ of a pair has a free entry (R283). -/
def Pair.cqFree (p : Pair) : Nat := 2 ^ p.cqLog - 1 - (p.cqTail + 2 ^ p.cqLog - p.cqHead) % 2 ^ p.cqLog

/-- A motion request entry is written with the next sequence number and signals the vector at once (R285, R294). -/
def State.writeMotion (q : Nat) (r : MotionReq) (s : State) : State :=
  match s.pair? q with
  | none => s
  | some p =>
    let n := s.motion.nextSeq
    let s := s.modPair q Pair.advanceCq
    let run := r.kind = 2 || r.kind = 4
    let s := { s with motion := { s.motion with
      nextSeq := n + 1, consumed := 0,
      owed := if r.kind = 6 then s.motion.owed else s.motion.owed ++ [n],
      runLevel := if run then some (n, s.pins.spdReq) else s.motion.runLevel } }
    (s.emit (.motion n r p.sqFetch p.cqPhase s.now)).signal q

/-- Held requests after a new one of the same type replaces the old, and a STOP cancels LOCATE, RUN and TURNAROUND (R295). -/
def holdMotion (held : List MotionReq) (r : MotionReq) : List MotionReq :=
  let held := held.filter (fun h => h.kind ≠ r.kind)
  let held := if r.kind = 3 then held.filter (fun h => !(h.kind = 1 || h.kind = 2 || h.kind = 4)) else held
  held ++ [r]

/-- A motion request is posted, or held while the motion CQ is full or firmware is in its blackout (R295, R355). -/
def State.motionReq (r : MotionReq) (s : State) : State :=
  match s.motionPair with
  | none => { s with motion := { s.motion with held := holdMotion s.motion.held r } }
  | some q =>
    match s.pair? q with
    | none => s
    | some p =>
      if p.cqFree = 0 || s.fw.act = .blackout || s.motion.held ≠ [] then
        { s with motion := { s.motion with held := holdMotion s.motion.held r } }
      else s.writeMotion q r

/-- Held requests in the order they are posted: STOP first (R295). -/
def motionOrder (held : List MotionReq) : List MotionReq :=
  held.filter (fun h => h.kind = 3) ++ held.filter (fun h => h.kind ≠ 3)

/-- Held requests posted while the motion CQ has space (R295). -/
def postHeldMotion : List MotionReq → Nat → State → State
  | [], _, s => s
  | r :: rest, q, s =>
    match s.pair? q with
    | none => s
    | some p => if p.cqFree = 0 then s
      else postHeldMotion rest q ({ s with motion := { s.motion with held := rest } }.writeMotion q r)

/-- Held motion requests posted as space allows. -/
def State.drainMotion (s : State) : State :=
  match s.motionPair with
  | none => s
  | some q => if s.fw.act = .blackout then s else postHeldMotion (motionOrder s.motion.held) q s

/-- A STOP request (Table 10-16). -/
def State.stopTape (s : State) : State := s.motionReq { kind := 3 }

/-- A RUN request in a direction (Table 10-16). -/
def State.runTape (dir : Bool) (s : State) : State := s.motionReq { kind := 2, dir := dir }

/-- The tape is stopped, as the last report has it (Table 10-17: STOPPED, AT_TARGET, UNLOADED). -/
def State.tapeStopped (s : State) : Bool := s.motion.state = 0 || s.motion.state = 2 || s.motion.state = 7

/-! ## Mailbox responses (R337) -/

/-- The response of mailbox `m` is written, STATE becomes DONE, vector 256 is signalled if INT_ENABLE is set (R337). -/
def State.respond (m : Nat) (st : BitVec 16) (detail : Nat) (payload : Bytes) (s : State) : State :=
  let s := s.modMbox m (fun b => { b with
    state := 2, held := false, req := none, status := st, detail := BitVec.ofNat 16 detail, payload := payload })
  let s := s.emit (.response m)
  if (s.mbox m).intEnable then
    { s with glob := { s.glob with mbSignal := true } }.signal 256
  else s

/-- SUCCESS with a payload. -/
def State.done (m : Nat) (payload : Bytes) (s : State) : State := s.respond m Status.success 0 payload

/-! ## FATAL and ALERT_N (R457, R478) -/

/-- FATAL set, service stopped, write gate held low until power-on reset (R457). -/
def State.setFatal (s : State) : State :=
  { s with glob := { s.glob with fatal := true }, pins := { s.pins with gateLocked := true },
           heat := { s.heat with gate := false } }

/-- ALERT_N is low (R478). -/
def State.alertLow (s : State) : Bool :=
  s.glob.fatal || s.pvt.trip || s.sec.intStatus.getLsbD 0 || s.sec.intStatus.getLsbD 1 || s.sec.intStatus.getLsbD 2

end Sys2Proof.Machine
end

