-- ==== Sys2Proof/Machine/Media.lean ====
section
/-! DEFINITION. The recording format (R34 to R79): numbering of channels, groups and frames, maps and spares, headers, items,
billets, and the cartridge ledger image as bytes. -/

namespace Sys2Proof.Machine

/-! ## Formats (Tables 02-2, 02-19) -/

/-- Format code in force: that of the loaded image. -/
def State.fmt (s : State) : Nat := s.cart.image.format

/-- Wraps of a format. -/
def fmtWraps (f : Nat) : Nat := if f = 4 then 40 else if f = 3 then 60 else 80

/-- Heat positions per wrap of a format. -/
def fmtHeats (f : Nat) : Nat := if f = 4 then 8424721 else if f = 3 then 4212360 else 2106180

/-- Groups per heat G of a format. -/
def fmtGroups (f : Nat) : Nat := if f = 4 then 8 else if f = 3 then 4 else 2

/-- Logical channels per band of a format. -/
def fmtPerBand (f : Nat) : Nat := if f = 4 then 252 else if f = 3 then 126 else 63

/-- Elements used: every one, every second, every fourth. -/
def fmtStride (f : Nat) : Nat := if f = 4 then 1 else if f = 3 then 2 else 4

/-- Logical channels of a format. -/
def fmtChans (f : Nat) : Nat := 4 * fmtPerBand f

/-- Header ID of a format. -/
def fmtId (f : Nat) : Nat := if f = 4 then 0x41 else if f = 3 then 0x31 else 0x21

/-- Heat length in units of 10^-6 mm: 122.971 µm at 70.0 kbit/mm, in proportion for the legacy densities (R44). -/
def fmtHeatNm (f : Nat) : Nat := 122971 * fmtStride f

/-- Logical channel of frame `j` of group `g` (Tables 02-2, 02-19). -/
def chanOf (f g j : Nat) : Nat :=
  if f = 4 then 252 * (g / 2) + 2 * j + g % 2
  else if f = 3 then 126 * g + j
  else 63 * (2 * g + j / 63) + j % 63

/-- Group of logical channel `l`. -/
def groupOf (f l : Nat) : Nat :=
  let b := l / fmtPerBand f
  let k := l % fmtPerBand f
  if f = 4 then 2 * b + k % 2 else if f = 3 then b else b / 2

/-- Frame index of logical channel `l`. -/
def frameOf (f l : Nat) : Nat :=
  let b := l / fmtPerBand f
  let k := l % fmtPerBand f
  if f = 4 then k / 2 else if f = 3 then k else 63 * (b % 2) + k

/-- Physical channel of logical channel `l` in the initial map (R37, Table 02-19). -/
def initialChan (f l : Nat) : Nat :=
  let b := l / fmtPerBand f
  let k := l % fmtPerBand f
  256 * b + (if f = 4 then k + k / 63 else if f = 3 then 2 * (k + k / 63) else 4 * k)

/-- The initial map. -/
def initialMap (f : Nat) : List Nat := (List.range (fmtChans f)).map (initialChan f)

/-- Spare for the element `p`: a used element of the format that carries no logical channel and is not retired, on the same
head port, else the lowest of the same band (R38). -/
def spareFor (f : Nat) (map retired : List Nat) (p : Nat) : Option Nat :=
  let free := (List.range 256).filterMap (fun e =>
    let x := 256 * (p / 256) + e
    if e % fmtStride f = 0 && !map.contains x && !retired.contains x then some x else none)
  match free.find? (fun x => x / 64 = p / 64) with
  | some x => some x
  | none => free.head?

/-- Ingot in group `g` at billet heat `t` (R60, Table 02-19). -/
def ingotAt (f t g : Nat) : Nat := t % 4 + 4 * ((g + fmtGroups f - t / 4 % fmtGroups f) % fmtGroups f)

/-- Group of ingot `i` at billet heat `t` (R60). -/
def ingotGroup (f i t : Nat) : Nat := (i / 4 + t / 4) % fmtGroups f

/-- Nominal LPOS in mm of heat `h` of wrap `w` (R44). -/
def heatLpos (f w h : Nat) : Int :=
  if w % 2 = 0 then 12000 + (h * fmtHeatNm f / 1000000 : Nat) else 1048000 - (h * fmtHeatNm f / 1000000 : Nat)

/-- Heat positions that remain from LPOS (2^-8 µm) to the end of the data area (R62). -/
def positionsLeft (f w : Nat) (lpos : Int) : Nat :=
  let mmEnd : Int := if w % 2 = 0 then 1048000 else 12000
  -- distance in 2^-8 µm; heat length 8,608 ÷ D µm
  let d : Int := if w % 2 = 0 then mmEnd * 256000 - lpos else lpos - mmEnd * 256000
  if d < 0 then 0 else d.toNat * 70 / (8608 * 256 * fmtStride f)

/-! ## Frame headers (Table 02-6, R54, R120) -/

/-- Fields of a frame header. -/
structure FrameHdr where
  id : Nat
  cls : Nat
  attempt : Nat
  rewrite : Bool
  short : Bool
  parity : Bool
  wrap : Nat
  written : Nat
  mapGen : Nat
  offset : Nat
  l : Nat
  serial : Nat
deriving DecidableEq, Repr

/-- Bytes 0 to 13 of a header. -/
def FrameHdr.head (h : FrameHdr) : Bytes :=
  [byte h.id, byte (h.cls % 8 * 32 + h.attempt % 4 * 8 + b2n h.rewrite * 4 + b2n h.short * 2 + b2n h.parity), byte (h.wrap % 128)]
  ++ beBytes 3 h.written ++ beBytes 2 (h.mapGen % 128 * 512 + h.offset % 512) ++ beBytes 2 (h.l % 1024) ++ beBytes 4 h.serial

/-- The 16-byte header with its CRC. -/
def FrameHdr.bytes (h : FrameHdr) : Bytes := h.head ++ beBytes 2 (crc16 h.head).toNat

/-- The header with the fields of R120 zero. -/
def FrameHdr.zeroed (h : FrameHdr) : Bytes :=
  { h with attempt := 0, rewrite := false, wrap := 0, written := 0, mapGen := 0, offset := 0 }.head ++ [0, 0]

/-- The header a frame payload begins with. -/
def parseHdr (b : Bytes) : FrameHdr :=
  let c := getBe b 1 1
  let m := getBe b 6 2
  { id := getBe b 0 1, cls := c / 32, attempt := c / 8 % 4, rewrite := bitAt c 2, short := bitAt c 1, parity := bitAt c 0,
    wrap := getBe b 2 1 % 128, written := getBe b 3 3, mapGen := m / 512, offset := m % 512,
    l := getBe b 8 2 % 1024, serial := getBe b 10 4 }

/-- The header CRC matches and the ID is the format's (R54). -/
def hdrOk (f : Nat) (b : Bytes) : Bool :=
  decide ((crc16 (b.take 14)).toNat = getBe b 14 2) && decide (getBe b 0 1 = fmtId f)

/-! ## Items (Tables 02-8 to 02-11) -/

/-- Record descriptor (Table 02-9). -/
def descriptorBytes (enc mark : Bool) (setting num len cus : Nat) (label : Bytes) (time : Nat) : Bytes :=
  [0x52, byte (b2n enc + 2 * b2n mark), byte setting, 0] ++ beBytes 5 num ++ zeros 3 ++ beBytes 4 len ++ beBytes 2 cus
  ++ zeros 2 ++ fit 8 label ++ beBytes 4 time

/-- CU header (Table 02-10). -/
def cuHeader (last : Bool) (idx l raw c : Nat) : Bytes :=
  [0x43, byte (b2n last)] ++ beBytes 2 idx ++ beBytes 4 l ++ beBytes 4 raw ++ beBytes 4 c

/-- Record trailer (Table 02-11). -/
def trailerBytes (cus num len : Nat) (chain : BitVec 32) : Bytes :=
  [0x54, 0] ++ beBytes 2 cus ++ beBytes 5 num ++ zeros 3 ++ beBytes 4 len ++ beBytes 4 chain.toNat ++ zeros 12

/-- CU count of a raw length (R115, R311). -/
def cuCount (len : Nat) : Nat := cdiv len 262144

/-- Raw length of CU `i` of a record (R115). -/
def cuRaw (len i : Nat) : Nat := min 262144 (len - 262144 * i)

/-! ## Billet headers (Table 02-7) -/

/-- Fields of a billet header. -/
structure BilletHdr where
  kind : Nat := 0xD1
  early : Bool := false
  cont : Bool := false
  descs : Nat := 0
  session : Nat := 0
  first : Nat := 0
  cu : Nat := 0
  resume : Nat := 0
  used : Nat := 0
  serial : Nat := 0
deriving DecidableEq, Repr

/-- Bytes 0 to 27 of a billet header; `flags` for a ledger billet is its piece number (R69). -/
def BilletHdr.head (h : BilletHdr) : Bytes :=
  [byte h.kind, byte (b2n h.early + 2 * b2n h.cont)] ++ beBytes 2 h.descs ++ beBytes 4 h.session ++ beBytes 5 h.first
  ++ beBytes 2 h.cu ++ [0] ++ beBytes 4 h.resume ++ beBytes 4 h.used ++ beBytes 4 h.serial

/-- A billet payload of 103,840 bytes: header with its CRC, then the item bytes and zeros. -/
def billetPayload (head body : Bytes) : Bytes :=
  let b := fit 103808 body
  head ++ beBytes 4 (crc32c (head ++ b)).toNat ++ b

/-- The header a data billet payload begins with. -/
def parseBillet (b : Bytes) : BilletHdr :=
  let fl := getBe b 1 1
  { kind := getBe b 0 1, early := bitAt fl 0, cont := bitAt fl 1, descs := getBe b 2 2, session := getBe b 4 4,
    first := getBe b 8 5, cu := getBe b 13 2 % 32768, resume := getBe b 16 4, used := getBe b 20 4, serial := getBe b 24 4 }

/-! ## Cartridge ledger image (Tables 02-14 to 02-16, R79) -/

/-- Tape position as 16 bytes (Table 02-15). -/
def TapePos.bytes (p : TapePos) : Bytes :=
  leBytes 1 p.wrap ++ zeros 3 ++ leBytes 4 (p.heat % 2 ^ 24) ++ leBytes 4 (ofSigned 32 p.lpos) ++ leBytes 4 p.serial

/-- The tape position at an offset of an image. -/
def parsePos (b : Bytes) (o : Nat) : TapePos :=
  { wrap := getLe b o 1, heat := getLe b (o + 4) 4 % 2 ^ 24, lpos := toSigned 32 (getLe b (o + 8) 4), serial := getLe b (o + 12) 4 }

/-- An optional number in 8 bytes, all ones for none. -/
def optBytes (n : Nat) (v : Option Nat) : Bytes := leBytes n (v.getD (2 ^ (8 * n) - 1))

/-- Wrap entry as 64 bytes (Table 02-16). -/
def WrapEntry.bytes (w : WrapEntry) : Bytes :=
  leBytes 1 w.state ++ leBytes 1 w.mapGen ++ zeros 2 ++ leBytes 4 w.heats ++ optBytes 8 w.first ++ leBytes 4 w.firstSerial
  ++ leBytes 4 w.rewritten ++ leBytes 4 w.rewriteHeats ++ zeros 4
  ++ (List.range 4).flatMap (fun b => (List.range 4).flatMap (fun k =>
      leBytes 2 (((w.retired.filter (fun r => r.1 = b))[k]?.map Prod.snd).getD 0xFFFF)))

/-- The wrap entry at an offset of an image. -/
def parseWrap (b : Bytes) (o : Nat) : WrapEntry :=
  let first := getLe b (o + 8) 8
  { state := getLe b o 1, mapGen := getLe b (o + 1) 1, heats := getLe b (o + 4) 4,
    first := if first = 2 ^ 64 - 1 then none else some first, firstSerial := getLe b (o + 16) 4,
    rewritten := getLe b (o + 20) 4, rewriteHeats := getLe b (o + 24) 4,
    retired := (List.range 16).filterMap (fun i =>
      let e := getLe b (o + 32 + 2 * i) 2
      if e = 0xFFFF then none else some (i / 4, e)) }

/-- Offset of the locate index in an image of a format (R74, R79). -/
def indexOffset (f : Nat) : Nat := if f = 4 then 0x0B00 else if f = 3 then 0x1000 else 0x1500

/-- ASCII bytes of a string. -/
def ascii (t : String) : Bytes := t.toList.map (fun c => byte c.toNat)

/-- A locate-index entry: record in [39:0], heat in [63:40], all ones for none. -/
def LedgerImage.indexEntry (m : LedgerImage) (n : Nat) : Bytes :=
  match m.index.find? (fun e => e.1 = n) with
  | some e => leBytes 5 e.2.1 ++ leBytes 3 e.2.2
  | none => List.replicate 8 0xFF

/-- Bytes 0 to 0xFFFB of the image. -/
def LedgerImage.body (m : LedgerImage) : Bytes :=
  let head := ascii "GK4LEDGR" ++ leBytes 2 1 ++ leBytes 2 m.format ++ leBytes 4 65536 ++ leBytes 8 m.seq ++ fit 16 m.serial
    ++ leBytes 4 m.session ++ leBytes 1 (b2n m.eodValid + 2 * b2n m.sessionOpen + 4 * b2n m.writeRefused) ++ zeros 3
    ++ leBytes 8 m.syncedLimit ++ leBytes 8 m.recordLimit ++ m.eodPos.bytes ++ m.syncedPos.bytes
    ++ leBytes 8 m.payloadBytes ++ leBytes 8 m.rawBytes
  let n := fmtWraps m.format
  let wraps := (List.range n).flatMap (fun w => ((m.wraps[w]?).getD {}).bytes)
  let index := (List.range (65 * n)).flatMap m.indexEntry
  let temper := if m.format = 4 then (List.range (40 * 65 * 4)).flatMap (fun k =>
      leBytes 4 ((assocGet m.temper k).getD 0).toNat) else []
  fit 0xFFFC (fit 0x100 head ++ wraps ++ index ++ temper)

/-- The image as 65,536 bytes with its CRC (R74, R79). -/
def LedgerImage.bytes (m : LedgerImage) : Bytes := m.body ++ leBytes 4 (crc32c m.body).toNat

/-- The image that 65,536 bytes hold. -/
def parseImage (b : Bytes) : LedgerImage :=
  let f := getLe b 0x0A 2
  let st := getLe b 0x2C 1
  let n := fmtWraps f
  { format := f, seq := getLe b 0x10 8, serial := slice b 0x18 16, session := getLe b 0x28 4,
    eodValid := bitAt st 0, sessionOpen := bitAt st 1, writeRefused := bitAt st 2,
    syncedLimit := getLe b 0x30 8, recordLimit := getLe b 0x38 8, eodPos := parsePos b 0x40, syncedPos := parsePos b 0x50,
    payloadBytes := getLe b 0x60 8, rawBytes := getLe b 0x68 8,
    wraps := (List.range n).map (fun w => parseWrap b (0x100 + 64 * w)),
    index := (List.range (65 * n)).filterMap (fun k =>
      let v := getLe b (indexOffset f + 8 * k) 8
      if v = 2 ^ 64 - 1 then none else some (k, v % 2 ^ 40, v / 2 ^ 40)),
    temper := if f = 4 then (List.range (40 * 65 * 4)).filterMap (fun k =>
      let v := getLe b (0x5C40 + 4 * k) 4
      if v = 0 then none else some (k, BitVec.ofNat 32 v)) else [] }

/-- Segment 0 to 64 of 16 m of an LPOS in mm (Table 02-14). -/
def segmentOf (lpos : Int) : Nat := min 64 ((lpos - 12000).toNat / 16000)

/-! ## Ledger and EOD blocks (R68 to R70) -/

/-- Content of a ledger block: image copy, channel map, temper tables, zeros (Table 02-13). -/
def blockContent (image : Bytes) (map : List Nat) (temper : Bytes) : Bytes :=
  fit 65536 image ++ fit 2048 (map.flatMap (beBytes 2)) ++ fit 532480 temper

/-- Payload of the ledger billet that carries piece `k` (R69). -/
def ledgerBillet (kind k session recordLimit seq serial : Nat) (content : Bytes) : Bytes :=
  let head := [byte kind, byte (k % 8)] ++ zeros 2 ++ beBytes 4 session ++ beBytes 5 recordLimit ++ beBytes 2 0 ++ [0]
    ++ beBytes 4 (seq % 2 ^ 32) ++ beBytes 4 103808 ++ beBytes 4 serial
  billetPayload head (slice content (103808 * k) 103808)

/-- Piece that the billet of group `g` carries in heat 0 or 1 of a block (R68). -/
def pieceAt (g heat : Nat) : Nat := if heat = 0 then g else (g + 4) % 8

end Sys2Proof.Machine
end

