-- ==== Sys2Proof/Machine/Crypto.lean ====
section
/-! DEFINITION. The cryptographic functions of Table 09-1, as the standards that the table names define them (PRESUMED,
log 28): AES-256, GCM, CMAC, KWP, SHA-384, the KDFs, ECDH and ECDSA over P-384. -/

namespace Sys2Proof.Machine

/-! ## AES-256 (FIPS 197) -/

/-- The S-box (FIPS 197, Figure 7), the entry of byte `x` in bits 8x + 7 to 8x. -/
def aesBox : Nat :=
    0x75b227ebe28012079a059618c323c7041531d871f1e5a534ccf73f362693fdb7c072a49cafa2d4adf04759fa7dc982ca76abd7fe2b670130c56f6bf27b777c63 |||
    0xd2f3ff1021dab6bcf5389d928f40a351a89f3c507f02f94585334d43fbaaefd0cf584c4a39becb6a5bb1fc20ed00d153842fe329b3d63b52a05a6e1b1a2c8309 <<< 512 |||
    0x08ae7a65eaf4566ca94ed58d6d37c8e779e4959162acd3c25c2406490a3a32e0db0b5ede14b8ee4688902a22dc4f816073195d643d7ea7c41744975fec130ccd <<< 1024 |||
    0x16bb54b00f2d99416842e6bf0d89a18cdf2855cee9871e9b948ed9691198f8e19e1dc186b95735610ef6034866b53e708a8bbd4b1f74dde8c6b4a61c2e2578ba <<< 1536

/-- The inverse S-box (FIPS 197, Figure 14), laid out alike. -/
def aesUnbox : Nat :=
    0x25d18b6d49a25b76b224d92866a12e084ec3fa420b954cee3d23c2a632947b54cbe9dec444438e3487ff2f9b8239e37cfbd7f3819ea340bf38a53630d56a0952 |||
    0x6b8a130103bdafc1020f3fca8f1e2cd00645b3b80558e4f70ad3bc8c00abd890849d8da75746155edab9edfd5048706c92b6655dcc5ca4d41698688664f6f872 <<< 512 |||
    0xf45acd78fec0db9a2079d2c64b3e56fc1bbe18aa0e62b76f89c5291d711af1476edf751ce837f9e28535ade72274ac9673e6b4f0cecff297eadc674f4111913a <<< 1024 |||
    0x7d0c2155631469e126d677ba7e042b17619953833cbbebc8b0f52aae4d3be0a0ef9cc9939f7ae52d0d4ab519a97f51605fec8027591012b131c7078833a8dd1f <<< 1536

/-- SubBytes and its inverse on a byte. -/
def aesSub (a : Nat) : Nat := aesBox >>> (8 * a) % 256
def aesUnsub (a : Nat) : Nat := aesUnbox >>> (8 * a) % 256

/-- Multiplication by x modulo x^8 + x^4 + x^3 + x + 1. -/
def aesX (a : Nat) : Nat := if a < 128 then 2 * a else Nat.xor (2 * a) 0x11B

/-- AddRoundKey. -/
def aesAdd (a b : List Nat) : List Nat := List.zipWith Nat.xor a b

/-- The key schedule from word `i` on, the words so far in bytes. -/
def aesExpandN : Nat → Nat → Nat → List Nat → List Nat
  | 0, _, _, w => w
  | n + 1, i, rcon, w =>
    let prev := (w.drop (4 * (i - 1))).take 4
    let back := (w.drop (4 * (i - 8))).take 4
    let t := if i % 8 = 0 then aesAdd ((prev.drop 1 ++ prev.take 1).map aesSub) [rcon, 0, 0, 0]
      else if i % 8 = 4 then prev.map aesSub else prev
    aesExpandN n (i + 1) (if i % 8 = 0 then aesX rcon else rcon) (w ++ aesAdd back t)

/-- The 15 round keys of a 32-byte key. -/
def aesRoundKeys (key : Bytes) : List (List Nat) :=
  let w := aesExpandN 52 8 1 ((fit 32 key).map BitVec.toNat)
  (List.range 15).map (fun r => (w.drop (16 * r)).take 16)

/-- ShiftRows by `k` columns a row; `k` = 1 forwards, 3 backwards. -/
def aesShift (k : Nat) (s : List Nat) : List Nat :=
  (List.range 16).map (fun i => s.getD (i % 4 + 4 * ((i / 4 + k * (i % 4)) % 4)) 0)

/-- MixColumns on column `k`, or its inverse: the coefficients 14, 11, 13, 9 are those of 2, 3, 1, 1 after adding 4 times the sum of the
bytes two places apart. -/
def aesMixColumn (inverse : Bool) (s : List Nat) (k : Nat) : List Nat :=
  match (s.drop (4 * k)).take 4 with
  | [a, b, c, d] =>
    let u := if inverse then aesX (aesX (Nat.xor a c)) else 0
    let v := if inverse then aesX (aesX (Nat.xor b d)) else 0
    let a := Nat.xor a u
    let b := Nat.xor b v
    let c := Nat.xor c u
    let d := Nat.xor d v
    let t := Nat.xor (Nat.xor a b) (Nat.xor c d)
    [Nat.xor (Nat.xor a t) (aesX (Nat.xor a b)), Nat.xor (Nat.xor b t) (aesX (Nat.xor b c)),
     Nat.xor (Nat.xor c t) (aesX (Nat.xor c d)), Nat.xor (Nat.xor d t) (aesX (Nat.xor d a))]
  | l => l

/-- MixColumns or its inverse. -/
def aesMix (inverse : Bool) (s : List Nat) : List Nat := [0, 1, 2, 3].flatMap (aesMixColumn inverse s)

/-- AES-256 encryption of a block. -/
def aesEncrypt (rk : List (List Nat)) (block : Bytes) : Bytes :=
  let s := aesAdd ((fit 16 block).map BitVec.toNat) (rk.getD 0 [])
  let s := (List.range 13).foldl (fun s r => aesAdd (aesMix false (aesShift 1 (s.map aesSub))) (rk.getD (r + 1) [])) s
  (aesAdd (aesShift 1 (s.map aesSub)) (rk.getD 14 [])).map byte

/-- AES-256 decryption of a block. -/
def aesDecrypt (rk : List (List Nat)) (block : Bytes) : Bytes :=
  let s := (aesShift 3 (aesAdd ((fit 16 block).map BitVec.toNat) (rk.getD 14 []))).map aesUnsub
  let s := (List.range 13).foldl (fun s r => (aesShift 3 (aesMix true (aesAdd s (rk.getD (13 - r) [])))).map aesUnsub) s
  (aesAdd s (rk.getD 0 [])).map byte

/-! ## GCM (SP 800-38D) -/

/-- Product of GHASH. -/
def ghashMul (x y : BitVec 128) : BitVec 128 :=
  ((List.range 128).foldl (fun (s : BitVec 128 × BitVec 128) i =>
    (if x.getLsbD (127 - i) then s.1 ^^^ s.2 else s.1,
     if s.2.getLsbD 0 then (s.2 >>> 1) ^^^ 0xE1000000000000000000000000000000 else s.2 >>> 1)) (0, y)).1

/-- A byte string of at most 16 bytes as a block. -/
def blockOf (b : Bytes) : BitVec 128 := BitVec.ofNat 128 (beNat (fit 16 b))

/-- Blocks of 16 bytes, the last padded with zeros. -/
def blocks16 (b : Bytes) : List Bytes := (List.range (cdiv b.length 16)).map (fun i => slice b (16 * i) 16)

/-- GHASH over AAD and ciphertext. -/
def ghash (h : BitVec 128) (aad c : Bytes) : BitVec 128 :=
  let len := BitVec.ofNat 128 (8 * aad.length * 2 ^ 64 + 8 * c.length)
  let y := (blocks16 aad ++ blocks16 c).foldl (fun y b => ghashMul (y ^^^ blockOf b) h) 0
  ghashMul (y ^^^ len) h

/-- Counter-mode key stream applied to data, from counter 2 of a 96-bit IV. -/
def gcmStream (rk : List (List Nat)) (iv data : Bytes) : Bytes :=
  ((blocks16 data).mapIdx (fun i b =>
    xorBytes ((b : Bytes).take (data.length - 16 * i)) (aesEncrypt rk (fit 12 iv ++ beBytes 4 (i + 2))))).flatten

/-- The 16-byte tag. -/
def gcmTag (rk : List (List Nat)) (iv aad c : Bytes) : Bytes :=
  let h := blockOf (aesEncrypt rk (zeros 16))
  xorBytes (beBytes 16 (ghash h aad c).toNat) (aesEncrypt rk (fit 12 iv ++ beBytes 4 1))

/-- Ciphertext and tag. -/
def gcmSeal (key iv aad plain : Bytes) : Bytes × Bytes :=
  let rk := aesRoundKeys key
  let c := gcmStream rk iv plain
  (c, gcmTag rk iv aad c)

/-- Plaintext, and whether the tag holds. -/
def gcmOpen (key iv aad c tag : Bytes) : Bytes × Bool :=
  let rk := aesRoundKeys key
  (gcmStream rk iv c, gcmTag rk iv aad c == tag)

/-! ## CMAC, KDF and KWP (SP 800-38B, SP 800-108, RFC 5649) -/

/-- Doubling of CMAC. -/
def cmacDouble (l : BitVec 128) : BitVec 128 := if l.getLsbD 127 then (l <<< 1) ^^^ 0x87 else l <<< 1

/-- AES-256-CMAC. -/
def cmac (key msg : Bytes) : Bytes :=
  let rk := aesRoundKeys key
  let k1 := cmacDouble (blockOf (aesEncrypt rk (zeros 16)))
  let n := max 1 (cdiv msg.length 16)
  let last := msg.drop (16 * (n - 1))
  let m := if last.length = 16 then blockOf last ^^^ k1 else blockOf (last ++ [0x80]) ^^^ cmacDouble k1
  let x := (List.range (n - 1)).foldl (fun x i => aesEncrypt rk (xorBytes x (slice msg (16 * i) 16))) (zeros 16)
  aesEncrypt rk (xorBytes x (beBytes 16 m.toNat))

/-- The data key of a slot key on a cartridge (R258). -/
def dataKey (slotKey serial label : Bytes) : Bytes :=
  let f := ascii "GKDATA" ++ [0] ++ fit 16 serial ++ fit 8 label ++ beBytes 4 0x100
  cmac slotKey (0x01 :: f) ++ cmac slotKey (0x02 :: f)

/-- One step of the KWP unwrap, `t` counting down. -/
def kwpStep (rk : List (List Nat)) (n : Nat) (s : Bytes × Bytes) (t : Nat) : Bytes × Bytes :=
  let i := (t - 1) % n
  let a := xorBytes s.1 (beBytes 8 t)
  let b := aesDecrypt rk (a ++ slice s.2 (8 * i) 8)
  (b.take 8, putAt s.2 (8 * i) (b.drop 8))

/-- The 40-byte payload of a 48-byte wrap, or none where the integrity check fails (R256). -/
def kwpUnwrap (key wrap : Bytes) : Option Bytes :=
  let rk := aesRoundKeys key
  let s := (List.range 30).foldl (fun s t => kwpStep rk 5 s (30 - t)) (slice wrap 0 8, slice wrap 8 40)
  if s.1 = beBytes 8 0xA65959A600000028 then some s.2 else none

/-! ## SHA-384 (FIPS 180-4) -/

/-- Integer root: the largest `x` below `2 ^ n` with `x ^ k ≤ v`. -/
def iroot (k v : Nat) : Nat → Nat → Nat
  | 0, x => x
  | n + 1, x => iroot k v n (if (x + 2 ^ n) ^ k ≤ v then x + 2 ^ n else x)

/-- The first 80 primes. -/
def primes80 : List Nat :=
  (List.range 410).filter (fun n => 2 ≤ n && (List.range 20).all (fun d => d < 2 || n ≤ d || n % d ≠ 0))

/-- Round constants: fractions of the cube roots of the primes. -/
def shaK : List (BitVec 64) := primes80.map (fun p => BitVec.ofNat 64 (iroot 3 (p * 2 ^ 192) 70 0))

/-- Initial value of SHA-384: fractions of the square roots of the 9th to 16th primes. -/
def sha384Init : List (BitVec 64) := ((primes80.drop 8).take 8).map (fun p => BitVec.ofNat 64 (iroot 2 (p * 2 ^ 128) 70 0))

/-- Message schedule, newest word first. -/
def shaSchedule : Nat → List (BitVec 64) → List (BitVec 64)
  | 0, w => w
  | n + 1, w =>
    let x := w.getD 1 0
    let y := w.getD 14 0
    let s1 := x.rotateRight 19 ^^^ x.rotateRight 61 ^^^ (x >>> 6)
    let s0 := y.rotateRight 1 ^^^ y.rotateRight 8 ^^^ (y >>> 7)
    shaSchedule n ((s1 + w.getD 6 0 + s0 + w.getD 15 0) :: w)

/-- One round on the eight working words. -/
def shaRound (h : List (BitVec 64)) (k w : BitVec 64) : List (BitVec 64) :=
  match h with
  | [a, b, c, d, e, f, g, hh] =>
    let s1 := e.rotateRight 14 ^^^ e.rotateRight 18 ^^^ e.rotateRight 41
    let t1 := hh + s1 + ((e &&& f) ^^^ (~~~e &&& g)) + k + w
    let s0 := a.rotateRight 28 ^^^ a.rotateRight 34 ^^^ a.rotateRight 39
    let t2 := s0 + ((a &&& b) ^^^ (a &&& c) ^^^ (b &&& c))
    [t1 + t2, a, b, c, d + t1, e, f, g]
  | _ => h

/-- One 128-byte block. -/
def shaBlock (ks h : List (BitVec 64)) (blk : Bytes) : List (BitVec 64) :=
  let w0 := ((List.range 16).map (fun i => BitVec.ofNat 64 (getBe blk (8 * i) 8))).reverse
  let w := (shaSchedule 64 w0).reverse
  let r := (List.zip ks w).foldl (fun h e => shaRound h e.1 e.2) h
  List.zipWith (· + ·) h r

/-- SHA-384 of a message: 48 bytes. -/
def sha384 (m : Bytes) : Bytes :=
  let n := cdiv (m.length + 17) 128
  let p := m ++ [0x80] ++ zeros (128 * n - m.length - 17) ++ beBytes 16 (8 * m.length)
  let ks := shaK
  let h := (List.range n).foldl (fun h i => shaBlock ks h (slice p (128 * i) 128)) sha384Init
  (h.take 6).flatMap (fun w => beBytes 8 w.toNat)

/-- The key-transport key (R255): one-step KDF over Z and the nonces. -/
def ktkOf (z serial hostNonce devNonce : Bytes) : Bytes :=
  (sha384 (beBytes 4 1 ++ z ++ ascii "DXFKTK" ++ fit 16 serial ++ hostNonce ++ devNonce)).take 32

/-! ## P-384 (SP 800-56A) -/

def p384 : Nat := 0xfffffffffffffffffffffffffffffffffffffffffffffffffffffffffffffffeffffffff0000000000000000ffffffff
def p384B : Nat := 0xB3312FA7E23EE7E4988E056BE3F82D19181D9C6EFE8141120314088F5013875AC656398D8A2ED19D2A85C8EDD3EC2AEF
def p384Gx : Nat := 0xAA87CA22BE8B05378EB1C71EF320AD746E1D3B628BA79B9859F741E082542A385502F25DBF55296C3A545E3872760AB7
def p384Gy : Nat := 0x3617DE4A96262C6F5D9E98BF9292DC29F8F41DBD289A147CE9DA3113B5F0B8C00A60B1CE1D7E819D7A431D7C90EA0E5F
def p384N : Nat := 0xFFFFFFFFFFFFFFFFFFFFFFFFFFFFFFFFFFFFFFFFFFFFFFFFC7634D81F4372DDF581A0DB248B0A77AECEC196ACCC52973

/-- Power modulo `m`, on the low `n` bits of the exponent. -/
def powMod (m b e : Nat) : Nat → Nat
  | 0 => 1
  | n + 1 =>
    let r := powMod m b (e / 2) n
    (if e % 2 = 1 then r * r % m * b else r * r) % m

/-- Inverse modulo a prime of at most 384 bits. -/
def invMod (m a : Nat) : Nat := powMod m (a % m) (m - 2) 384

/-- A point of the curve; none is the point at infinity. -/
abbrev ECPoint := Option (Nat × Nat)

/-- Group law. -/
def ecAdd : ECPoint → ECPoint → ECPoint
  | none, q => q
  | p, none => p
  | some (x1, y1), some (x2, y2) =>
    let p := p384
    if x1 = x2 && (y1 + y2) % p = 0 then none
    else
      let l := if x1 = x2 then (3 * x1 * x1 + (p - 3)) * invMod p (2 * y1) % p
        else (y2 + p - y1) * invMod p (x2 + p - x1) % p
      let x3 := (l * l + 2 * p - x1 - x2) % p
      some (x3, (l * (x1 + p - x3) + p - y1) % p)

/-- Multiple of a point by the low `n` bits of a scalar. -/
def ecMul (k : Nat) (q : ECPoint) : Nat → ECPoint
  | 0 => none
  | n + 1 =>
    let r := ecMul (k / 2) q n
    let d := ecAdd r r
    if k % 2 = 1 then ecAdd d q else d

/-- Full validation of an uncompressed public key: form, range, curve equation (cofactor 1). -/
def ecPublic (b : Bytes) : Option (Nat × Nat) :=
  let x := getBe b 1 48
  let y := getBe b 49 48
  if b.head? = some 0x04 && x < p384 && y < p384 && y * y % p384 = (x * x * x + (p384 - 3) * x + p384B) % p384 then some (x, y)
  else none

/-- The 48-byte x-coordinate of the shared point. -/
def ecdh (d : Nat) (q : Nat × Nat) : Bytes := beBytes 48 (((ecMul d (some q) 384).map Prod.fst).getD 0)

/-- ECDSA P-384 with SHA-384: signature r then s, big-endian (Table 12-13). -/
def ecdsaOk (key : Nat × Nat) (msg sig : Bytes) : Bool :=
  let r := getBe sig 0 48
  let s := getBe sig 48 48
  let e := beNat (sha384 msg)
  let n := p384N
  if r = 0 || s = 0 || n ≤ r || n ≤ s then false
  else
    let w := invMod n s
    match ecAdd (ecMul (e * w % n) (some (p384Gx, p384Gy)) 384) (ecMul (r * w % n) (some key) 384) with
    | none => false
    | some (x, _) => x % n = r

end Sys2Proof.Machine
end

