-- ==== Sys2Proof/Machine/Deflate.lean ====
section
/-! DEFINITION. DEFLATE: the engines' output as a function of raw bytes and setting (R223 to R232), and the decompressors'
reading of any stream (R240, R241). -/

namespace Sys2Proof.Machine

/-! ## Tables of RFC 1951 -/

/-- Least match length of each length code 257 + i. -/
def lenBase : List Nat :=
  [3, 4, 5, 6, 7, 8, 9, 10, 11, 13, 15, 17, 19, 23, 27, 31, 35, 43, 51, 59, 67, 83, 99, 115, 131, 163, 195, 227, 258]

/-- Extra bits of each length code. -/
def lenExtra : List Nat := [0, 0, 0, 0, 0, 0, 0, 0, 1, 1, 1, 1, 2, 2, 2, 2, 3, 3, 3, 3, 4, 4, 4, 4, 5, 5, 5, 5, 0]

/-- Least distance of each distance code. -/
def distBase : List Nat :=
  [1, 2, 3, 4, 5, 7, 9, 13, 17, 25, 33, 49, 65, 97, 129, 193, 257, 385, 513, 769, 1025, 1537, 2049, 3073, 4097, 6145, 8193, 12289,
   16385, 24577]

/-- Extra bits of each distance code. -/
def distExtra : List Nat :=
  [0, 0, 0, 0, 1, 1, 2, 2, 3, 3, 4, 4, 5, 5, 6, 6, 7, 7, 8, 8, 9, 9, 10, 10, 11, 11, 12, 12, 13, 13]

/-- The permuted order of the code-length code's lengths. -/
def clOrder : List Nat := [16, 17, 18, 0, 8, 7, 9, 6, 10, 5, 11, 4, 12, 3, 13, 2, 14, 1, 15]

/-- Code lengths of the fixed codes. -/
def fixedLit : List Nat := List.replicate 144 8 ++ List.replicate 112 9 ++ List.replicate 24 7 ++ List.replicate 8 8
def fixedDist : List Nat := List.replicate 30 5

/-- Index of the last entry of an ascending table that is not above `v`. -/
def slotOf (base : List Nat) (v : Nat) : Nat := (base.filter (· ≤ v)).length - 1

/-- The `k` low bits of a number, least significant first. -/
def lowBits (k v : Nat) : List Bool := (List.range k).map (bitAt v)

/-- Bytes of a bit list, each byte least significant bit first, the unused bits of the last byte 0 (R223). -/
def packBits : Nat → List Bool → Bytes
  | 0, _ => []
  | n + 1, l => byte (bitsNat (l.take 8).reverse) :: packBits n (l.drop 8)

/-! ## Parse (R226, R227) -/

/-- A symbol with the raw position of its first byte. -/
inductive Sym where
  | lit (pos : Nat) (b : Byte)
  | copy (pos len dist : Nat)
deriving DecidableEq, Repr

/-- Raw position of a symbol. -/
def Sym.pos : Sym → Nat
  | .lit p _ => p
  | .copy p _ _ => p

/-- Parser: the raw bytes, the hash chains, newest first, of the positions below `done`. -/
structure Lz where
  raw : Array Byte
  chains : Array (List Nat)
  done : Nat

/-- DEPTH, NICE, LAZY of an effort; LAZY 0 for the greedy effort (Table 08-3). -/
def effortOf (e : Nat) : Nat × Nat × Nat :=
  if e = 1 then (4, 32, 0) else if e = 2 then (16, 128, 32) else (128, 258, 258)

/-- h(x) (R226). -/
def Lz.hash (z : Lz) (x : Nat) : Nat :=
  ((((z.raw.getD x 0).toNat * 1024) ^^^ ((z.raw.getD (x + 1) 0).toNat * 32)) ^^^ (z.raw.getD (x + 2) 0).toNat) % 32768

/-- Position `done` inserted, if it is not one of the last two. -/
def Lz.insert (z : Lz) : Lz :=
  if z.done + 3 ≤ z.raw.size then { z with chains := z.chains.modify (z.hash z.done) (z.done :: ·), done := z.done + 1 }
  else { z with done := z.done + 1 }

/-- Every position below `k` inserted, in ascending order. -/
def Lz.insertTo (z : Lz) (k : Nat) : Lz := (k - z.done).repeat Lz.insert z

/-- Length of the match of positions `y` and `x`, up to a bound. -/
def Lz.matchLen (z : Lz) (y x : Nat) : Nat → Nat
  | 0 => 0
  | k + 1 => if z.raw.getD y 0 = z.raw.getD x 0 then 1 + z.matchLen (y + 1) (x + 1) k else 0

/-- The walk of a chain: best length and distance (R226). -/
def Lz.walk (z : Lz) (x nice : Nat) : Nat → List Nat → Nat × Nat → Nat × Nat
  | 0, _, best => best
  | _ + 1, [], best => best
  | k + 1, y :: r, best =>
    if 32768 < x - y then best
    else
      let l := z.matchLen y x (min 258 (z.raw.size - x))
      let best := if best.1 < l then (l, x - y) else best
      if nice ≤ best.1 then best else z.walk x nice k r best

/-- The search at `x`, which is inserted after it; nothing is found at the last two positions. -/
def Lz.search (z : Lz) (effort x : Nat) : (Nat × Nat) × Lz :=
  if z.raw.size < x + 3 then ((0, 0), z)
  else
    let e := effortOf effort
    (z.walk x e.2.1 e.1 (z.chains.getD (z.hash x) []) (0, 0), z.insertTo (x + 1))

/-- Symbols from position `x` on; `pre` is a search result kept from a look-ahead (R226, R227). -/
def parseFrom (effort : Nat) : Nat → Nat → Option (Nat × Nat) → Lz → List Sym → List Sym
  | 0, _, _, _, acc => acc.reverse
  | k + 1, x, pre, z, acc =>
    if z.raw.size ≤ x then acc.reverse
    else
      let (r, z) := match pre with
        | some r => (r, z)
        | none => z.search effort x
      if r.1 < 3 then parseFrom effort k (x + 1) none z (.lit x (z.raw.getD x 0) :: acc)
      else
        let (ahead, z') := if r.1 < (effortOf effort).2.2 then z.search effort (x + 1) else ((0, 0), z)
        if r.1 < ahead.1 then parseFrom effort k (x + 1) (some ahead) z' (.lit x (z.raw.getD x 0) :: acc)
        else parseFrom effort k (x + r.1) none (z'.insertTo (x + r.1)) (.copy x r.1 r.2 :: acc)

/-- The symbols of a CU. -/
def parseCu (effort : Nat) (raw : Bytes) : List Sym :=
  parseFrom effort raw.length 0 none { raw := raw.toArray, chains := Array.replicate 32768 [], done := 0 } []

/-! ## Codes (R229) -/

/-- Counts of the values of a list, by value below `n`. -/
def tally (n : Nat) (l : List Nat) : List Nat :=
  (l.foldl (fun (a : Array Nat) v => a.modify v (· + 1)) (Array.replicate n 0)).toList

/-- An item or package of the package-merge algorithm: weight and the symbols in it. -/
abbrev Coin := Nat × List Nat

/-- A coin put behind those that do not weigh more. -/
def insertCoin (p : Coin) : List Coin → List Coin
  | [] => [p]
  | y :: r => if p.1 < y.1 then p :: y :: r else y :: insertCoin p r

/-- Coins packed two by two, left to right. -/
def pairCoins : List Coin → List Coin
  | a :: b :: r => (a.1 + b.1, a.2 ++ b.2) :: pairCoins r
  | _ => []

/-- The level `k` above the items: items merged with the packages of the level below, items first on a tie. -/
def coinLevel (items : List Coin) : Nat → List Coin
  | 0 => items
  | k + 1 => (pairCoins (coinLevel items k)).foldl (fun l p => insertCoin p l) items

/-- Code lengths by package-merge under a limit; a single symbol takes length 1 (R229). -/
def packageMerge (limit : Nat) (freq : List Nat) : List Nat :=
  let items := (freq.zipIdx.filter (fun e => 0 < e.1)).foldl (fun l e => insertCoin (e.1, [e.2]) l) ([] : List Coin)
  if items.length = 1 then freq.map (fun f => if 0 < f then 1 else 0)
  else tally freq.length (((coinLevel items (limit - 1)).take (2 * items.length - 2)).flatMap Prod.snd)

/-- A code with a single symbol is completed by the lowest other symbol (R229, step 1). -/
def completed (lens : List Nat) : List Nat :=
  if (lens.filter (0 < ·)).length = 1 then modAt lens (if lens.headD 0 = 0 then 0 else 1) (fun _ => 1) else lens

/-- Canonical code of symbol `s` as bits, most significant first (R229, step 2). -/
def codeBits (lens : List Nat) (s : Nat) : List Bool :=
  let l := lens.getD s 0
  let start := (List.range l).foldl (fun n k => n + (if k = 0 then 0 else (lens.filter (· = k)).length * 2 ^ (l - k))) 0
  natBits l (start + ((lens.take s).filter (· = l)).length)

/-- The canonical codes of all symbols. -/
def codeTable (lens : List Nat) : Array (List Bool) := ((List.range lens.length).map (codeBits lens)).toArray

/-- Trailing zeros of a list of lengths left out, but at least `k` kept. -/
def trimTo (k : Nat) (lens : List Nat) : List Nat :=
  lens.take (max k (lens.length - (lens.reverse.takeWhile (· = 0)).length))

/-- Length of the run of `v` at the head of a list. -/
def runOf (v : Nat) : List Nat → Nat
  | [] => 0
  | x :: r => if x = v then 1 + runOf v r else 0

/-- Run-length coding of code lengths: code-length symbol, extra bits, extra value (R229, step 5). -/
def rleLens : Nat → Option Nat → List Nat → List (Nat × Nat × Nat)
  | 0, _, _ => []
  | _ + 1, _, [] => []
  | k + 1, prev, v :: r =>
    let n := runOf v (v :: r)
    if v = 0 && 11 ≤ n then (18, 7, min n 138 - 11) :: rleLens k (some 0) ((v :: r).drop (min n 138))
    else if v = 0 && 3 ≤ n then (17, 3, min n 10 - 3) :: rleLens k (some 0) ((v :: r).drop (min n 10))
    else if v ≠ 0 && prev = some v && 3 ≤ n then (16, 2, min n 6 - 3) :: rleLens k (some v) ((v :: r).drop (min n 6))
    else (v, 0, 0) :: rleLens k (some v) r

/-! ## Blocks (R228) -/

/-- Literal/length symbols of a block, its end-of-block symbol with it, and its distance symbols. -/
def litSyms (l : List Sym) : List Nat :=
  l.map (fun s => match s with
    | .lit _ b => b.toNat
    | .copy _ n _ => 257 + slotOf lenBase n) ++ [256]

def distSyms (l : List Sym) : List Nat :=
  l.filterMap (fun s => match s with
    | .lit _ _ => none
    | .copy _ _ d => some (slotOf distBase d))

/-- A block's symbols and its end-of-block code under two codes. -/
def bodyBits (lit dist : Array (List Bool)) (l : List Sym) : List Bool :=
  l.flatMap (fun s => match s with
    | .lit _ b => lit.getD b.toNat []
    | .copy _ n d =>
      let i := slotOf lenBase n
      let j := slotOf distBase d
      lit.getD (257 + i) [] ++ lowBits (lenExtra.getD i 0) (n - lenBase.getD i 0)
        ++ dist.getD j [] ++ lowBits (distExtra.getD j 0) (d - distBase.getD j 0)) ++ lit.getD 256 []

/-- A fixed block. -/
def fixedBlock (last : Bool) (l : List Sym) : List Bool :=
  last :: lowBits 2 1 ++ bodyBits (codeTable fixedLit) (codeTable fixedDist) l

/-- A dynamic block (R229). -/
def dynamicBlock (last : Bool) (l : List Sym) : List Bool :=
  let ll := completed (packageMerge 15 (tally 286 (litSyms l)))
  let ds := distSyms l
  let dl := if ds = [] then 1 :: List.replicate 29 0 else packageMerge 15 (tally 30 ds)
  let sentL := trimTo 257 ll
  let sentD := trimTo 1 dl
  let seq := rleLens (sentL.length + sentD.length) none (sentL ++ sentD)
  let cl := completed (packageMerge 7 (tally 19 (seq.map (·.1))))
  let sentC := trimTo 4 (clOrder.map (fun s => cl.getD s 0))
  let ct := codeTable cl
  last :: lowBits 2 2 ++ lowBits 5 (sentL.length - 257) ++ lowBits 5 (sentD.length - 1) ++ lowBits 4 (sentC.length - 4)
    ++ sentC.flatMap (lowBits 3) ++ seq.flatMap (fun e => ct.getD e.1 [] ++ lowBits e.2.1 e.2.2)
    ++ bodyBits (codeTable ll) (codeTable dl) l

/-- A block under a mode: 2 fixed, 3 dynamic, 4 the cheaper, fixed on a tie (R228). -/
def blockBits (mode : Nat) (last : Bool) (l : List Sym) : List Bool :=
  if mode = 2 then fixedBlock last l
  else if mode = 3 then dynamicBlock last l
  else
    let f := fixedBlock last l
    let d := dynamicBlock last l
    if d.length < f.length then d else f

/-! ## Stored encoding, limit, probe (R230 to R232) -/

/-- Blocks of the stored encoding. -/
def storedBlocks : Nat → Bytes → Bytes
  | 0, _ => []
  | k + 1, b =>
    let piece := b.take 65535
    byte (b2n (b.length ≤ 65535)) :: leBytes 2 piece.length ++ leBytes 2 (65535 - piece.length) ++ piece ++ storedBlocks k (b.drop 65535)

/-- The stored encoding of a CU (R230). -/
def storedEncoding (raw : Bytes) : Bytes := storedBlocks (cdiv raw.length 65535) raw

/-- B(n) (R231). -/
def outputLimit (n : Nat) : Nat := min (n + 5 * cdiv n 65535 - 1) 262144

/-- Why an output is in the stored encoding. -/
inductive Fallback where
  | none
  | chosen
  | probe
  | late
deriving DecidableEq, Repr

/-- An engine's output for a CU: the compressed bytes and whether they are the stored encoding (R225). -/
structure Deflated where
  out : Bytes
  how : Fallback
deriving DecidableEq, Repr

/-- The output of R225 for raw bytes and a setting of Table 08-2. -/
def deflate (setting : Nat) (raw : Bytes) : Deflated :=
  let mode := setting % 8
  if mode = 1 then { out := storedEncoding raw, how := .chosen }
  else
    let syms := parseCu (setting / 8) raw
    let count := cdiv raw.length 16384
    let blocks := (List.range count).map (fun k => blockBits mode (k + 1 = count) (syms.filter (fun s => s.pos / 16384 = k)))
    let bits := blocks.flatten
    let early := (blocks.take 2).flatten.length
    let limit := 8 * outputLimit raw.length
    if mode = 4 && 32768 < raw.length && early ≤ limit && 32256 < cdiv early 8 then { out := storedEncoding raw, how := .probe }
    else if limit < bits.length then { out := storedEncoding raw, how := .late }
    else { out := packBits (cdiv bits.length 8) bits, how := .none }

/-! ## Decompression (R240, R241) -/

/-- A decoder's code: number of codes of each length from 1 to 15, symbols by length and value. -/
structure Huff where
  counts : List Nat
  syms : Array Nat

/-- Kraft sum of lengths in units of 2^-15. -/
def kraft (lens : List Nat) : Nat := lens.foldl (fun n l => n + (if l = 0 then 0 else 2 ^ (15 - l))) 0

/-- The code of lengths; none if over-subscribed or incomplete, a single distance code of length 1 apart (R241). -/
def huffOf (lens : List Nat) (single : Bool) : Option Huff :=
  let used := lens.filter (0 < ·)
  if kraft lens = 2 ^ 15 || (single && used = [1]) then
    some { counts := (List.range 15).map (fun k => (lens.filter (· = k + 1)).length),
           syms := ((List.range 15).flatMap (fun k => (lens.zipIdx.filter (fun e => e.1 = k + 1)).map (·.2))).toArray }
  else none

/-- `n` bits, least significant first. -/
def getBits : Nat → List Bool → Option (Nat × List Bool)
  | 0, l => some (0, l)
  | _ + 1, [] => none
  | n + 1, b :: r => (getBits n r).map (fun x => (b2n b + 2 * x.1, x.2))

/-- A symbol decoded bit by bit: `code` read so far, first code and index of the length reached. -/
def symBits (h : Huff) : List Nat → Nat → Nat → Nat → List Bool → Option (Nat × List Bool)
  | [], _, _, _, _ => none
  | _ :: _, _, _, _, [] => none
  | c :: cs, code, first, index, b :: r =>
    let code := 2 * code + b2n b
    if code < first + c then some (h.syms.getD (index + (code - first)) 0, r)
    else symBits h cs code (2 * (first + c)) (index + c) r

/-- One symbol of a code. -/
def getSym (h : Huff) (l : List Bool) : Option (Nat × List Bool) := symBits h h.counts 0 0 0 l

/-- Code lengths up to `tot`, most recent first (R241: not beginning with code 16, not running past). -/
def getLens (h : Huff) (tot : Nat) : Nat → List Nat → List Bool → Option (List Nat × List Bool)
  | 0, acc, l => if acc.length = tot then some (acc, l) else none
  | k + 1, acc, l =>
    if acc.length = tot then some (acc, l)
    else
      match getSym h l with
      | none => none
      | some (s, l) =>
        if s < 16 then getLens h tot k (s :: acc) l
        else
          match getBits (if s = 16 then 2 else if s = 17 then 3 else 7) l with
          | none => none
          | some (x, l) =>
            let n := x + (if s = 18 then 11 else 3)
            if (s = 16 && acc = []) || tot < acc.length + n then none
            else getLens h tot k (List.replicate n (if s = 16 then acc.headD 0 else 0) ++ acc) l

/-- The codes of a dynamic block. -/
def getCodes (l : List Bool) : Option ((Huff × Huff) × List Bool) :=
  (getBits 5 l).bind (fun (hl, l) =>
  (getBits 5 l).bind (fun (hd, l) =>
  (getBits 4 l).bind (fun (hc, l) =>
  (getBits (3 * (hc + 4)) l).bind (fun (cls, l) =>
    let cl := (List.range 19).map (fun s => match (clOrder.take (hc + 4)).findIdx? (· = s) with
      | some i => bitsOf cls (3 * i) 3
      | none => 0)
    (huffOf cl false).bind (fun h =>
    (getLens h (hl + 257 + hd + 1) (hl + 257 + hd + 1) [] l).bind (fun (acc, l) =>
      let lens := acc.reverse
      if lens.getD 256 0 = 0 then none
      else (huffOf (lens.take (hl + 257)) false).bind (fun a =>
        (huffOf (lens.drop (hl + 257)) true).map (fun d => ((a, d), l)))))))))

/-- A copy of `len` bytes from distance `d`. -/
def copyBytes (d : Nat) (len : Nat) (out : Array Byte) : Array Byte := len.repeat (fun a => a.push (a.getD (a.size - d) 0)) out

/-- The copy that a length symbol `s` and the distance behind it call for, and the bits left; none for a code that does not exist or a
distance beyond the output. -/
def inflateCopy (d : Huff) (out : Array Byte) (s : Nat) (l : List Bool) : Option (Array Byte × List Bool) :=
  if 285 < s then none
  else
    match getBits (lenExtra.getD (s - 257) 0) l with
    | none => none
    | some (x, l) =>
      match getSym d l with
      | none => none
      | some (t, l) =>
        if 29 < t then none
        else
          match getBits (distExtra.getD t 0) l with
          | none => none
          | some (y, l) =>
            let dist := distBase.getD t 0 + y
            if out.size < dist then none else some (copyBytes dist (lenBase.getD (s - 257) 0 + x) out, l)

/-- The symbols of a block to its end: the output and the bits left, none at a stream error; the output so far in any case. -/
def inflateSyms (n : Nat) (a d : Huff) : Nat → Array Byte → List Bool → Array Byte × Option (List Bool)
  | 0, out, _ => (out, none)
  | k + 1, out, l =>
    if n < out.size then (out, none)
    else
      match getSym a l with
      | none => (out, none)
      | some (s, l) =>
        if s < 256 then inflateSyms n a d k (out.push (byte s)) l
        else if s = 256 then (out, some l)
        else
          match inflateCopy d out s l with
          | none => (out, none)
          | some (o, l) => inflateSyms n a d k o l

/-- A stored block's bytes after its header bits. -/
def inflateStored (out : Array Byte) (l : List Bool) : Array Byte × Option (List Bool) :=
  let l := l.drop (l.length % 8)
  match getBits 32 l with
  | none => (out, none)
  | some (v, l) =>
    let len := v % 65536
    if len + v / 65536 ≠ 65535 || l.length < 8 * len then (out, none)
    else (out ++ (packBits len (l.take (8 * len))).toArray, some (l.drop (8 * len)))

/-- Blocks to the final one. -/
def inflateBlocks (n : Nat) : Nat → Array Byte → List Bool → Array Byte × Option (List Bool)
  | 0, out, _ => (out, none)
  | k + 1, out, l =>
    match getBits 3 l with
    | none => (out, none)
    | some (h, l) =>
      let r := if h / 2 = 0 then inflateStored out l
        else if h / 2 = 1 then
          match huffOf fixedLit false, huffOf (List.replicate 32 5) false with
          | some a, some d => inflateSyms n a d (l.length + 1) out l
          | _, _ => (out, none)
        else if h / 2 = 2 then
          match getCodes l with
          | some ((a, d), l) => inflateSyms n a d (l.length + 1) out l
          | none => (out, none)
        else (out, none)
      match r with
      | (out, none) => (out, none)
      | (out, some l) => if n < out.size then (out, none) else if h % 2 = 1 then (out, some l) else inflateBlocks n k out l

/-- The raw bytes of C compressed bytes and a raw length, and whether no stream error was met; with one, the bytes before it (R241). -/
def inflate (n : Nat) (c : Bytes) : Bytes × Bool :=
  let bits := c.flatMap (fun b => lowBits 8 b.toNat)
  match inflateBlocks n (bits.length + 1) #[] bits with
  | (out, some l) => (out.toList.take n, out.size = n && l.length < 8)
  | (out, none) => (out.toList.take n, false)

end Sys2Proof.Machine
end

