-- ==== Sys2Proof/Machine/Cal.lean ====
section
/-! DEFINITION. The calibration set as the formatter uses it, and its built-in defaults (R193, R423, R424). -/

namespace Sys2Proof.Machine

/-- A field of the calibration set, or the built-in default of a failed set (R424). -/
def Tongs.calField (t : Tongs) (o n dflt : Nat) : Nat := if t.calFailed then dflt else getLe t.eeprom o n

/-- Offset of the entry of physical channel `p` (Tables 14-11, 14-12). -/
def calEntry (p : Nat) : Nat := 0x100 + 32 * p

/-- Offset of its read row 0 or 1. -/
def calRow (p row : Nat) : Nat := calEntry p + 8 + 12 * row

/-- Write current in µA. -/
def Tongs.writeCurrent (t : Tongs) (p : Nat) : Nat := t.calField (calEntry p) 2 30000

/-- Write deviation in 0.01 nm. -/
def Tongs.writeDev (t : Tongs) (p : Nat) : Int := toSigned 16 (t.calField (calEntry p + 2) 2 0)

/-- Read bias in 0.1 µA. -/
def Tongs.readBias (t : Tongs) (p row : Nat) : Nat := t.calField (calRow p row) 2 20000

/-- Read deviation in 0.01 nm. -/
def Tongs.readDev (t : Tongs) (p row : Nat) : Int := toSigned 16 (t.calField (calRow p row + 2) 2 0)

/-- Gain trim in 0.05 dB, as 8 bits. -/
def Tongs.gainTrim (t : Tongs) (p row : Nat) : Nat := t.calField (calRow p row + 4) 1 0

/-- OFFSET_DEF, ASYM_DEF and GAIN_DEF of a read row. -/
def Tongs.offsetDef (t : Tongs) (p row : Nat) : Int := toSigned 8 (t.calField (calRow p row + 5) 1 0)
def Tongs.asymDef (t : Tongs) (p row : Nat) : Int := toSigned 8 (t.calField (calRow p row + 6) 1 0)
def Tongs.gainDef (t : Tongs) (p row : Nat) : Nat := t.calField (calRow p row + 8) 2 0x100 % 4096

/-- Servo reader `i` of ten: k_AB, nominal amplitude, z_cal (Table 14-11, R424). -/
def Tongs.kAB (t : Tongs) (i : Nat) : Nat := t.calField (0x8100 + 16 * i) 2 0x4000
def Tongs.nominalAmp (t : Tongs) (i : Nat) : Nat := t.calField (0x8100 + 16 * i + 2) 2 t.meanAmp
def Tongs.zCal (t : Tongs) (i : Nat) : Int := toSigned 32 (t.calField (0x8100 + 16 * i + 4) 4 0)

/-- Tilt zero in units of 2 µrad. -/
def Tongs.tiltZero (t : Tongs) : Int := toSigned 16 (t.calField 0x24 2 0)

/-- The element is retired in every session: unusable, or a write or read deviation beyond 5 nm (R193, Table 14-12). -/
def Tongs.alwaysRetired (t : Tongs) (p : Nat) : Bool :=
  bitAt (t.calField (calEntry p + 4) 1 0) 0 || 500 < (t.writeDev p).natAbs || 500 < (t.readDev p 0).natAbs || 500 < (t.readDev p 1).natAbs

/-- A set has its signature, length and CRC (R424). -/
def calValid (b : Bytes) : Bool :=
  slice b 0 8 = [0x44, 0x58, 0x46, 0x43, 0x41, 0x4C, 0x30, 0x31] && getLe b 8 4 = 33280
    && getLe b 0x81FC 4 = (crc32c (slice b 0 0x81FC)).toNat

/-- A set read from the EEPROM (R424). -/
def Tongs.loadCal (t : Tongs) (b : Bytes) : Tongs := { t with eeprom := b, calFailed := !calValid b }

/-! ## Ports (Table 14-1) -/

/-- Port `p` of 18. -/
def State.port (s : State) (p : Nat) : Port := (s.tongs.ports[p]?).getD {}

/-- Port `p` changed. -/
def State.modPort (p : Nat) (f : Port → Port) (s : State) : State :=
  { s with tongs := { s.tongs with ports := modAt s.tongs.ports p f } }

/-- The port carries traffic. -/
def Port.up (p : Port) : Bool := p.state = 2 || p.state = 3

/-- Every head port carries traffic. -/
def State.headsUp (s : State) : Bool := (List.range 16).all (fun i => (s.port i).up)

/-- A port that carries traffic reports UP, or UP without spare once its spares of both directions are used; servo ports have none
(R419, Table 14-1, log 52). -/
def Port.settleUp (i : Nat) (p : Port) : Port :=
  if p.up then { p with state := if i < 16 && p.rxSpare.isNone && p.txSpare.isNone then 3 else 2 } else p

/-- Spare of the direction of a physical lane: receive lanes 0 to 9, transmit lanes 10 to 12 (Table 14-3). -/
def Port.spareFor (p : Port) (lane : Nat) : Option Nat := if lane < 10 then p.rxSpare else p.txSpare

/-- A lane is taken out of service on the spare's account: the logical lane it carries, if any, is on the spare from then on. -/
def Port.dropLane (i lane : Nat) (p : Port) : Port :=
  let p := { p with failed := lane :: p.failed.filter (· ≠ lane) }
  let p := if p.rxSpare = some lane then { p with rxSpare := none } else if p.txSpare = some lane then { p with txSpare := none }
    else match p.map.findIdx? (· = lane), p.spareFor lane with
      | some l, some x =>
        let p := { p with map := modAt p.map l (fun _ => x), swaps := satAdd 32 p.swaps 1 }
        if lane < 10 then { p with rxSpare := none } else { p with txSpare := none }
      | _, _ => p
  p.settleUp i

/-- A lane returns to service: it is the spare where its direction has none (R431). -/
def Port.returnLane (i lane : Nat) (p : Port) : Port :=
  let p := { p with failed := p.failed.filter (· ≠ lane) }
  let p := if i < 16 && (p.spareFor lane).isNone && p.aligned.contains lane && !p.map.contains lane then
      (if lane < 10 then { p with rxSpare := some lane } else { p with txSpare := some lane })
    else p
  p.settleUp i

/-- A management request joins the port's queue (R421). -/
def Port.ask (op addr data : Nat) (p : Port) : Port :=
  { p with mgmtQ := p.mgmtQ ++ [{ op := op, tag := 0, addr := BitVec.ofNat 16 addr, data := BitVec.ofNat 32 data }] }

/-- CH_WEN of head port `i`: the elements that the format uses (Table 14-10, R46). -/
def Port.askWen (f i : Nat) (p : Port) : Port :=
  let m := fun (o : Nat) => (List.range 32).foldl (fun a c => a + 2 ^ c * b2n ((64 * i + o + c) % 256 % fmtStride f = 0)) 0
  (p.ask 2 2 (m 0)).ask 2 3 (m 32)

/-- A cartridge's format enables the write elements it uses on every head port (Table 14-10). -/
def State.sendWen (s : State) : State :=
  { s with tongs := { s.tongs with ports := s.tongs.ports.mapIdx (fun i (p : Port) => if i < 16 && p.up then p.askWen s.fmt i else p) } }

end Sys2Proof.Machine
end

