-- ==== Sys2Proof/Machine/Frames.lean ====
section
/-! DEFINITION. Frames on their way into the Anvil: billets cut into frames with zeroed headers, ledger and EOD blocks, temper tables
as bytes, the map at an append point (R38, R68 to R70, R76, R120, R139, R161, R166). -/

namespace Sys2Proof.Machine

/-! ## Channels -/

/-- Physical channel `p` of the Anvil. -/
def State.chan (s : State) (p : Nat) : Chan := (s.anvil.chans[p]?).getD {}

/-- Physical channel `p` changed. -/
def State.modAnvil (p : Nat) (f : Chan → Chan) (s : State) : State :=
  { s with anvil := { s.anvil with chans := modAt s.anvil.chans p f } }

/-- Element that carries logical channel `l`. -/
def Heat.element (h : Heat) (l : Nat) : Nat := h.map.getD l 0

/-- A frame handed to the C1 encoder of its logical channel's element. -/
def State.encode (x : Frame) (s : State) : State :=
  s.modAnvil (s.heat.element x.l) (fun c => { c with enc := c.enc ++ [{ x with present := 0 }] })

/-! ## Billets into frames (R56, R120) -/

/-- Frame `j` of a billet with its codeword over the zeroed header. -/
def frameAt (f : Nat) (b : Billet) (short : Bool) (j : Nat) (bytes : Bytes) : Frame :=
  let l := chanOf f b.group j
  let hdr : FrameHdr := { id := fmtId f, cls := b.cls, attempt := 0, rewrite := false, short := short, parity := b.parity,
                          wrap := 0, written := 0, mapGen := 0, offset := 0, l := l, serial := b.serial }
  { serial := b.serial, j := j, l := l, word := c1Encode (hdr.zeroed ++ bytes), cls := b.cls, parity := b.parity, short := short }

/-- The 126 frames of a billet. -/
def framesOf (f : Nat) (b : Billet) (short : Bool) (payload : Bytes) : List Frame :=
  (billetFrames payload).mapIdx (frameAt f b short)

/-- The packing descriptor as the mirror carries it (Table 15-4). -/
def Billet.desc (b : Billet) (short : Bool) (payload : Bytes) : PackDesc :=
  { serial := b.serial, train := b.train, ingot := b.ingot, pos := b.pos, group := b.group, parity := b.parity, short := short, cls := b.cls,
    session := b.session, wrap := b.wrap, firstRec := b.firstRec, firstCu := b.firstCu, resume := b.resume, cont := b.cont, early := b.early,
    descs := b.descs, used := b.used, recs := b.recs, firstDesc := b.firstDesc, trailers := b.trailers,
    payload := if b.cls = 0 then [] else payload }

/-- The forming record behind a formed heat (Table 15-4). -/
def State.formRec (s : State) (x : FormedHeat) : FormRec :=
  { train := x.train, t := x.t, serials := x.serials, parity := x.parity, cls := x.cls, nextSerial := s.forge.nextSerial,
    nextTrain := s.forge.train, nextT := s.forge.t, tc := s.forge.tc, closing := s.forge.closing,
    short := s.forge.shortTrains.contains s.forge.train, drain := s.heat.drain,
    pos := s.forge.pos.map (fun p => (p.num, p.part, p.cu, p.off)), lastPacked := s.forge.lastPacked,
    queue := s.recs.sealQ.map (fun i => match i with
      | .record n => 2 * n
      | .closeMark m => 2 * m + 1) }

/-- The last formed heat and the forming record behind it go to the standby, where a heat has been formed since `n` waited. -/
def State.mirrorForming (n : Nat) (s : State) : State :=
  match s.forge.formed.getLast? with
  | some x => if n < s.forge.formed.length then s.mirror (.forming (s.formRec x)) else s
  | none => s

/-- A billet joins those kept and the mirror, and its frames go to the encoders. -/
def State.pushBillet (b : Billet) (short : Bool) (payload : Bytes) (s : State) : State :=
  let s := s.mirror (.descriptor (b.desc short payload))
  let s := { s with forge := { s.forge with billets := s.forge.billets ++ [b] } }
  (framesOf s.fmt b short payload).foldl (fun s x => s.encode x) s

/-! ## Temper tables as bytes (Table 05-3, Table 02-13) -/

/-- A temper entry as 8 bytes. -/
def Temper.bytes (t : Temper) : Bytes :=
  beBytes 8 (t.gainRel % 4096 * 2 ^ 52 + ofSigned 8 t.offsetRel * 2 ^ 44 + ofSigned 8 t.asymRel * 2 ^ 36 + t.snr % 256 * 2 ^ 28
    + t.frames % 4096 * 2 ^ 16 + t.flipMean % 256 * 2 ^ 8 + 4 * b2n t.slag + 2 * b2n t.caldef + b2n t.valid)

/-- The temper entry that 8 bytes hold. -/
def parseTemper (b : Bytes) (o : Nat) : Temper :=
  let v := getBe b o 8
  { gainRel := bitsOf v 52 12, offsetRel := toSigned 8 (bitsOf v 44 8), asymRel := toSigned 8 (bitsOf v 36 8), snr := bitsOf v 28 8,
    frames := bitsOf v 16 12, flipMean := bitsOf v 8 8, slag := bitAt v 2, caldef := bitAt v 1, valid := bitAt v 0 }

/-- Entry of a temper store for wrap, segment and physical channel. -/
def temperAt (l : List (Nat × Nat × Nat × Temper)) (w n p : Nat) : Option Temper :=
  (l.find? (fun e => e.1 = w && e.2.1 = n && e.2.2.1 = p)).map (fun e => e.2.2.2)

/-- The table of a wrap in the order of Table 02-13; entries never measured are zero. -/
def temperTable (l : List (Nat × Nat × Nat × Temper)) (w : Nat) : Bytes :=
  let mine := l.filter (fun e => e.1 = w)
  if mine = [] then zeros 532480
  else (List.range 4).flatMap (fun b => (List.range 65).flatMap (fun n => (List.range 256).flatMap (fun e =>
    match temperAt mine w n (256 * b + e) with
    | some t => t.bytes
    | none => zeros 8)))

/-- The CALDEF entry of an element: its own calibration-set defaults (R69, R161, R424). -/
def Tongs.caldef (t : Tongs) (p : Nat) : Temper :=
  { gainRel := t.gainDef p 0, offsetRel := t.offsetDef p 0, asymRel := t.asymDef p 0, caldef := true }

/-- The defaults of the wrap-0 ledger block. -/
def Tongs.caldefTable (t : Tongs) : Bytes :=
  (List.range 4).flatMap (fun b =>
    let row := (List.range 256).flatMap (fun e => (t.caldef (256 * b + e)).bytes)
    (List.range 65).flatMap (fun _ => row))

/-! ## Ledger and EOD blocks (R68 to R70) -/

/-- The temper area of a block: defaults at wrap 0, the tables of the wrap before, or, in an EOD block, of this wrap. -/
def State.blockTemper (s : State) (eod : Bool) : Bytes :=
  if eod then temperTable s.rd.temper s.heat.wrap
  else if s.heat.wrap = 0 then s.tongs.caldefTable
  else temperTable s.rd.temper (s.heat.wrap - 1)

/-- One heat of a block: its billets in group order. -/
def blockHeat (m : LedgerImage) (eod : Bool) (content : Bytes) (heat : Nat) (s : State) : State :=
  let g := fmtGroups s.fmt
  let first := s.forge.nextSerial + g * heat
  let s := (List.range g).foldl (fun s k =>
    let piece := if g = 4 then k + 4 * heat else pieceAt k heat
    let b : Billet := { serial := first + k, train := s.forge.train, ingot := 0, pos := 0, group := k, parity := false,
                        session := m.session, cls := if eod then 2 else 1, wrap := s.heat.wrap }
    let payload := ledgerBillet (if eod then 0xE0 else 0xC4) piece m.session m.recordLimit m.seq (first + k) content
    let s := { s with forge := { s.forge with block := s.forge.block ++ [(first + k, payload)] } }
    s.pushBillet b false payload) s
  let x : FormedHeat := { train := s.forge.train, t := heat, serials := (List.range g).map (first + ·), parity := false,
                          cls := if eod then 2 else 1 }
  { s with forge := { s.forge with formed := s.forge.formed ++ [x] } }.mirrorForming s.forge.formed.length

/-- The two heats of a ledger or EOD block with image `m` formed into the Anvil. Its billets take the serials from the next data
billet's on, without using them up (DEDUCED, log 36). -/
def State.formBlock (m : LedgerImage) (eod : Bool) (s : State) : State :=
  let content := blockContent m.bytes s.heat.map (s.blockTemper eod)
  let s := { s with forge := { s.forge with block := [] } }
  blockHeat m eod content 1 (blockHeat m eod content 0 s)

/-! ## The map at an append point (R38, R139) -/

/-- A channel map with its retired elements. -/
structure MapState where
  map : List Nat
  gen : Nat
  retired : List Nat
deriving DecidableEq, Repr

/-- Element `p` retired from a map, where a spare is free. -/
def MapState.retire (f : Nat) (m : MapState) (p : Nat) : MapState :=
  match spareFor f m.map m.retired p with
  | none => m
  | some x => { m with map := m.map.map (fun q => if q = p then x else q), retired := m.retired ++ [p] }

/-- The map that a wrap entry records: its retirements applied to the initial map in order (R38; DEDUCED, log 37). -/
def mapOfEntry (f : Nat) (w : WrapEntry) : MapState :=
  let start : MapState := { map := initialMap f, gen := 0, retired := [] }
  let m := w.retired.foldl (fun (m : MapState) r => m.retire f (256 * r.1 + r.2)) start
  { m with gen := w.mapGen }

/-- The map in force where writing starts on wrap `w`: of that wrap, or of the end of the wrap before it. -/
def LedgerImage.mapAt (m : LedgerImage) (w : Nat) : MapState :=
  let e := (m.wraps[w]?).getD {}
  let e := if e.state = 0 && 0 < w then (m.wraps[w - 1]?).getD {} else e
  mapOfEntry m.format e

end Sys2Proof.Machine
end

