-- ==== Sys2Proof/Machine/Lanes.lean ====
section
/-! DEFINITION. The read-channel lanes up to their channel bits: zone values from the temper tables, zone correction, timing recovery,
equaliser, detector, defect flags, sample flits (R149 to R164, R176, R221, R409). -/

namespace Sys2Proof.Machine

/-- A quotient whose rounding the spec does not give: exact, or one of its two neighbours (log 14). -/
def roundFree (place : Nat) (num den : Int) : Int :=
  if num % den = 0 then num / den else num / den + b2n (Config.roundUp place num den)

/-- Rounding half away from zero (R165). -/
def roundHalf (num den : Int) : Int :=
  if 0 ≤ num then (2 * num + den) / (2 * den) else -((2 * -num + den) / (2 * den))

/-! ## Parameters of a lane (R176) -/

/-- The value a lane uses: an older one until its next frame item. -/
def State.laneParam (s : State) (l : Lane) (id : Nat) : Int := (assocGet l.old id).getD (s.param id)

/-- Place of a format's set in DET_TARGET. -/
def fmtSet (f : Nat) : Nat := if f = 4 then 0 else if f = 3 then 1 else 2

/-- DET_TARGET of the format in use. -/
def State.laneTargets (s : State) (l : Lane) : List Int := (List.range 4).map (fun i => s.laneParam l (0x05070100 + 4 * fmtSet s.fmt + i))

/-- Linear density in bit/mm (Table 05-2). -/
def fmtDensity (f : Nat) : Nat := if f = 4 then 70000 else if f = 3 then 35000 else 17500

/-- The format uses the element (R46, R221). -/
def fmtUses (f p : Nat) : Bool := p % 256 % fmtStride f = 0

/-! ## Temper values (R161 to R164) -/

/-- Relative values of a zone. -/
structure Zone where
  gain : Int := 0x100
  offset : Int := 0
  asym : Int := 0
deriving DecidableEq, Repr

/-- The values of a valid entry that is relative. -/
def Temper.zone (t : Temper) : Option Zone :=
  if t.valid && !t.caldef then some { gain := t.gainRel, offset := t.offsetRel, asym := t.asymRel } else none

/-- Band means of the temper summary, where GAIN_MEAN is not zero (R163 step 4, Table 05-4). -/
def LedgerImage.zone (m : LedgerImage) (w n b : Nat) : Option Zone :=
  match assocGet m.temper ((w * 65 + n) * 4 + b) with
  | none => none
  | some v => if bitsOf v.toNat 20 12 = 0 then none
      else some { gain := bitsOf v.toNat 20 12, offset := toSigned 8 (bitsOf v.toNat 12 8), asym := 0 }

/-- Attempt of the reread pass in progress, 0 outside one (R210). -/
def State.attempt (s : State) : Nat := match s.rd.reread with
  | some r => r.k
  | none => 0

/-- Relative values of wrap, segment and element from the first valid source; a reread pass uses the recovery copy before it, or the
drive's defaults only (R163, R210). -/
def State.zoneOf (s : State) (l : Lane) (w n p : Nat) : Zone :=
  let k := s.attempt
  if s.laneParam l 0x05071300 = 1 || k = 4 || k = 5 then {}
  else
    let at_ := fun (tab : List (Nat × Nat × Nat × Temper)) (w : Nat) => (temperAt tab w n p).bind Temper.zone
    let first := if k = 0 then none else at_ s.rd.recovery w
    let below := if w = 0 then none else at_ s.rd.temper (w - 1)
    let summary := if s.fmt = 4 then s.cart.image.zone w n (p / 256) else none
    (first.or ((at_ s.rd.temper w).or (below.or ((at_ s.rd.temper (w + 1)).or summary)))).getD {}

/-- Segment centre in 2^-8 µm (R164). -/
def segCentre (n : Nat) : Int := (if n = 64 then 1042000 else 20000 + 16000 * n) * 256000

/-- One field interpolated (R164). -/
def blend (wt : Int) (a b : Int) : Int := a + ((b - a) * wt + 32) / 64

/-- The relative values at an LPOS in 2^-8 µm (R164). -/
def State.zoneAt (s : State) (l : Lane) (w p : Nat) (x : Int) : Zone :=
  if x ≤ segCentre 0 then s.zoneOf l w 0 p
  else if segCentre 64 ≤ x then s.zoneOf l w 64 p
  else
    let n := ((List.range 64).filter (fun n => segCentre n ≤ x)).length - 1
    let wt := 64 * (x - segCentre n) / (segCentre (n + 1) - segCentre n)
    let a := s.zoneOf l w n p
    let b := s.zoneOf l w (n + 1) p
    { gain := blend wt a.gain b.gain, offset := blend wt a.offset b.offset, asym := blend wt a.asym b.asym }

/-- Read row in use: 0 trails in forward motion, 1 in reverse (R178, Table 14-6). -/
def State.row (s : State) : Nat := s.heat.wrap % 2

/-- sin of an angle in 2^-8 µrad, times 2^48 (the series to the seventh power). -/
def sin48 (a : Int) : Int :=
  let x := a * 2 ^ 48 / 256000000
  let m := fun (p q : Int) => p * q / 2 ^ 48
  let x2 := m x x
  x - m x x2 / 6 + m (m x x2) x2 / 120 - m (m (m x x2) x2) x2 / 5040

/-- Lateral distance of element `p` from the array centre in nm (Table 02-1, R38, R178; DEDUCED, log 46). -/
def elementX (p : Nat) : Int := -4425000 + 2950000 * (p / 256 : Nat) + (2 * (p % 256 : Nat) - 255) * 5275

/-- LPOS of a lane's read element in 2^-8 µm (R184). -/
def State.laneLpos (s : State) (p : Nat) : Int :=
  let d : Int := if s.heat.wrap % 2 = 0 then 1 else -1
  s.servo.lpos - d * 230400 + elementX p * sin48 s.servo.alpha * 256 / (1000 * 2 ^ 48)

/-- The lane loads OFFSET, ASYM and GAIN for the item that begins, and takes changed parameters (R151, R161, R176). -/
def State.loadZone (s : State) (p : Nat) (l : Lane) : Lane :=
  let l := { l with old := [] }
  let x := s.laneLpos p
  let z := s.zoneAt l s.heat.wrap p x
  { l with
    gain := min 4095 ((z.gain * s.tongs.gainDef p s.row + 128) / 256).toNat
    offset := clampInt (-128) 127 (z.offset + s.tongs.offsetDef p s.row)
    asym := clampInt (-128) 127 (z.asym + s.tongs.asymDef p s.row)
    lpos := x, sinceLoad := 0, seg := if l.meas.frames = 0 then segmentOf (x / 256000) else l.seg }

/-! ## ACQUIRE (R153, R154, R167) -/

/-- ρ within its bounds (R152). -/
def clampRho (v : Int) : BitVec 24 := BitVec.ofInt 24 (clampInt 838861 15938355 v)

/-- ρ for a velocity in µm/s at the format's density (R153). -/
def rhoOf (f : Nat) (v : Int) : Int := roundFree 1 ((v.natAbs : Int) * fmtDensity f * 2 ^ 24) (1200000000 * 1000)

/-- Lanes verify what is written: on the die that writes, and on the ARMED standby of one that does (R441). -/
def State.verifying (s : State) : Bool := s.forge.writing || (s.twin.role = 2 && s.twin.peer = 2 && s.twin.peerWrites)

/-- The frequency start: from the servo velocity when reading, from the steered word F when verifying (R153, Table 05-6). -/
def State.rhoStart (s : State) : BitVec 24 :=
  clampRho (if s.verifying then roundFree 2 s.servo.f.toNat 12 else rhoOf s.fmt s.servo.vel)

/-- Best reread attempt so far: the one that completed the most billets, none if none did (Table 07-3). -/
def Reread.best (r : Reread) : Option Nat :=
  (r.done.foldl (fun (a : Option (Nat × Nat)) e => match a with
    | some b => if b.2 < e.2 || (b.2 = e.2 && e.1 < b.1) then some e else a
    | none => if e.2 = 0 then none else some e) none).map Prod.fst

/-- Taps a lane starts with: the built-in ones, or in reread attempt 6 those from the end of the best attempt (R154, Table 07-3). -/
def State.startTaps (s : State) (p : Nat) : List Int :=
  let init := (List.range 16).map (fun i => if i = 7 then 512 else clampInt (-2048) 2047 (Config.initialTap s.fmt i))
  match s.rd.reread with
  | none => init
  | some r => if r.k ≠ 6 then init else match r.best.bind (assocGet r.taps) with
    | some ts => ts.getD p init
    | none => init

/-- A lane enters ACQUIRE. -/
def State.acquire (s : State) (p : Nat) (l : Lane) : Lane :=
  let init := s.startTaps p
  s.loadZone p { l with
    track := false, tracking := false, reacquire := false, bits := [], q := [], u := [], z := [], misses := 0, toMark := 0,
    rho := s.rhoStart, taps := init, dropRun := 0, taRun := 0, guard := 0 }

/-- The statistics of a physical channel changed (R177). -/
def State.modStats (p : Nat) (f : ChanStats → ChanStats) (s : State) : State :=
  { s with rd := { s.rd with stats := modAt s.rd.stats p f } }

/-- One more entry to ACQUIRE. -/
def ChanStats.acquired (c : ChanStats) : ChanStats := { c with acquisitions := satAdd 16 c.acquisitions 1 }

/-- Every lane of the format enters ACQUIRE: at the start of reading or verifying, at a wrap change, after a Quench (R167, R221). -/
def State.lanesAcquire (s : State) : State :=
  { s with rd := { s.rd with
      lanes := s.rd.lanes.mapIdx (fun p (l : Lane) => if fmtUses s.fmt p then s.acquire p l else l),
      stats := s.rd.stats.mapIdx (fun p (c : ChanStats) => if fmtUses s.fmt p then c.acquired else c) } }

/-! ## One sample (R150, R152) -/

/-- Zone correction of a sample (R150). -/
def zoneCorrect (offset asym : Int) (gain : Nat) (v : Int) : Int :=
  let x := 4 * v - offset
  let y := clampInt (-512) 511 (x + asym * x * x / 4096)
  clampInt (-512) 511 ((gain * y + 128) / 256)

/-- What a lane works with over a flit. -/
structure LaneCfg where
  drop : Nat
  dropLen : Nat
  ta : Nat
  taLen : Nat
  guard : Nat
  targets : List Int
  scale : Nat
  frozen : Bool
  /-- EQ_MU (raised by 2 in reread attempts 4 and 5), NP_MU and the timing loop's gains in force (R153 to R155, Table 07-3) -/
  steps : List Int
  /-- 0 while reading; while verifying the known data count too, by the count of free values drawn (R158, Table 05-6, log 13) -/
  mark : Nat

/-- The settings of a lane: DD_TA_RWW in read-while-write; the taps are held by EQ_FREEZE or in the last reread attempt (R159, R176,
R210, Table 05-6). -/
def State.laneCfg (s : State) (l : Lane) : LaneCfg :=
  { drop := (s.laneParam l 0x05070B00).toNat, dropLen := (s.laneParam l 0x05070C00).toNat,
    ta := (s.laneParam l (if s.verifying then 0x05070E00 else 0x05070D00)).toNat, taLen := (s.laneParam l 0x05070F00).toNat,
    guard := (s.laneParam l 0x05071000).toNat, targets := s.laneTargets l, scale := (s.laneParam l 0x05070200).toNat,
    frozen := s.laneParam l 0x05070400 = 1 || s.attempt = 6
    steps := [s.laneParam l 0x05070300 + (if s.attempt = 4 || s.attempt = 5 then 2 else 0), s.laneParam l 0x05070500,
              s.laneParam l (if l.tracking then 0x05070600 else 0x05070700),
              s.laneParam l (if l.tracking then 0x05070601 else 0x05070701)]
    mark := if s.verifying then s.free + 1 else 0 }

/-- What a lane's adaptation depends on: its own state and the step sizes (R158). -/
def Lane.digest (c : LaneCfg) (l : Lane) : List Int :=
  [l.path, (l.acc.toNat : Int), (l.rho.toNat : Int)] ++ c.steps ++ c.targets ++ l.taps ++ l.pred.flatMap (fun x => [x.1, x.2.1, (x.2.2 : Int)])
  ++ l.u.map Prod.fst ++ l.q.map Prod.fst

/-- A value of a lane's adaptation (log 13). -/
def Lane.adapted (c : LaneCfg) (l : Lane) (i : Nat) : Int := Config.adapted c.mark (l.digest c) i

/-- A lane while it takes samples, with its statistics. -/
structure LaneRun where
  lane : Lane
  stats : ChanStats
deriving DecidableEq, Repr

/-- The newest `n` channel bits flagged, wherever in the lane they stand, and how many of them were not flagged before (R159). -/
def Lane.flagBack (n : Nat) (l : Lane) : Lane × Nat :=
  let fresh := l.q.length - 16
  let inU := n
  let inQ := n - 7
  let inB := n - 7 - fresh
  let u := l.u.mapIdx (fun i (x : Int × Bool) => if i < inU && i < 7 then (x.1, true) else x)
  let q := l.q.mapIdx (fun i (x : Int × Bool) => if l.q.length ≤ i + inQ then (x.1, true) else x)
  let bits := l.bits.mapIdx (fun i (x : ChanBit) => if l.bits.length ≤ i + inB then { x with flag := true } else x)
  let before := (l.u.take (min n 7)).countP (fun x => !x.2) + ((l.q.reverse.take (min inQ fresh)).countP (fun x => !x.2))
    + ((l.bits.reverse.take inB).countP (fun x => !x.flag))
  ({ l with u := u, q := q, bits := bits }, before)

/-- The detector's block: once 96 equaliser outputs are held, the 64 in their middle become channel bits (R156). -/
def Lane.detect (c : LaneCfg) (l : Lane) : Lane :=
  if l.q.length < 96 then l
  else
    let win := l.q.map Prod.fst
    let out := (List.range 64).map (fun i =>
      let x := l.q.getD (16 + i) (0, false)
      let b := Config.detectBit l.pred c.targets win (16 + i)
      let m := min 31 (Config.detectSoft l.pred c.targets c.scale win (16 + i))
      { b := b, soft := if b then -(m : Int) else m, flag := x.2, q := x.1 : ChanBit })
    { l with bits := l.bits ++ out, q := l.q.drop 64 }

/-- Adaptation after an unflagged bit: phase and frequency of the loop, taps unless frozen, noise model (R153 to R155). -/
def LaneRun.adapt (c : LaneCfg) (a : LaneRun) : LaneRun :=
  let l := a.lane
  let f := l.adapted c
  let taps := if c.frozen then l.taps else l.taps.mapIdx (fun i t => if i = 7 then t else clampInt (-2048) 2047 (f (2 + i)))
  let pred := (List.range 16).map (fun i =>
    (clampInt (-128) 127 (f (18 + 3 * i)), clampInt (-128) 127 (f (19 + 3 * i)), (f (20 + 3 * i)).toNat % 256))
  { a with lane := { l with acc := BitVec.ofInt 24 (f 0), rho := clampRho (f 1), taps := taps, pred := pred } }

/-- The equaliser's next output, for the bit 7 before the newest (R154). -/
def LaneRun.equalise (c : LaneCfg) (a : LaneRun) : LaneRun :=
  let l := a.lane
  if l.u.length < 16 then a
  else
    let sum := ((l.taps.zip (l.u.map Prod.fst)).map (fun x => x.1 * x.2)).foldl (· + ·) 0
    let q := clampInt (-128) 127 ((sum + 1024) / 2048)
    let flag := (l.u.getD 7 (0, false)).2
    let a := { a with lane := { l with q := l.q ++ [(q, flag)], path := l.adapted c 66 }.detect c }
    if flag then a else a.adapt c

/-- A new interpolated sample: defect detector, then equaliser (R154, R159, R160, R409). -/
def LaneRun.bit (c : LaneCfg) (u : Int) (lost : Bool) (a : LaneRun) : LaneRun :=
  let l := a.lane
  let us := u :: l.u.map Prod.fst
  let env := l.env.foldl (· + ·) 0
  let n : Int := l.env.length
  let low := decide (0 < n) && decide (((us.take 8).foldl (fun (m : Nat) x => m + x.natAbs) 0 : Nat) * 100 * n < c.drop * env * 8)
  let hot := decide (0 < n) && decide (c.ta * env * 16 < (((us.take 16).foldl (· + ·) 0).natAbs : Int) * 100 * n)
  let dropRun := if low then l.dropRun + 1 else 0
  let taRun := if hot then l.taRun + 1 else 0
  let dead := low && decide (c.dropLen ≤ dropRun)
  let asp := hot && decide (c.taLen ≤ taRun)
  let hit := dead || asp || lost
  let back := max (if dead then dropRun else 0) (max (if asp then taRun else 0) (if lost then 1 else 0)) + c.guard
  let flag := hit || decide (0 < l.guard)
  let span := hit && !((l.u.headD (0, false)).2)
  let l := { l with u := ((u, flag) :: l.u).take 16, dropRun := dropRun, taRun := taRun, guard := if hit then c.guard else l.guard - 1,
                    env := if flag then l.env else ((u.natAbs : Int) :: l.env).take 256, sinceLoad := l.sinceLoad + 1 }
  let (l, more) := if hit then l.flagBack back else (l, 0)
  let st := { a.stats with defectSpans := satAdd 32 a.stats.defectSpans (b2n span),
                           flaggedBits := satAdd 32 a.stats.flaggedBits (more + b2n flag) }
  { a with lane := l, stats := st }.equalise c

/-- One sample of the front-end: corrected, interpolated where the phase accumulator overflows (R150, R152). -/
def LaneRun.sample (c : LaneCfg) (v : Int) (lost : Bool) (a : LaneRun) : LaneRun :=
  let l := a.lane
  let z := ((zoneCorrect l.offset l.asym l.gain v, lost) :: l.z).take 8
  let t := l.acc.toNat + l.rho.toNat
  let l := { l with z := z, acc := BitVec.ofNat 24 t }
  if t < 2 ^ 24 then { a with lane := l }
  else LaneRun.bit c (clampInt (-512) 511 (Config.interpolate (t % 2 ^ 24 / 2 ^ 18) (z.map Prod.fst))) (z.any Prod.snd) { a with lane := l }

/-- The newest bit begins a frame item, 96 bits before an expected mark, or 1,024 bits have passed in ACQUIRE (R151, R167). -/
def Lane.itemStart (l : Lane) : Bool :=
  if l.track then
    let at_ := l.bits.length + (l.q.length - 16) + 7
    decide (l.toMark ≤ at_ + 96) && (at_ + 96 - l.toMark) % 8608 = 0
  else decide (1024 ≤ l.sinceLoad)

/-- Phase acquisition on a preamble after a missed mark: the phase is set anew (R153, R169). -/
def LaneRun.phase (c : LaneCfg) (a : LaneRun) : LaneRun :=
  if a.lane.reacquire then
    { a with lane := { a.lane with acc := BitVec.ofInt 24 (a.lane.adapted c 67), reacquire := false, tracking := false } }
  else a

/-- The samples of a flit through one lane. -/
def State.laneRun (s : State) (p : Nat) (lost : Bool) : List Int → LaneRun → LaneRun
  | [], a => a
  | v :: r, a =>
    let n := a.lane.sinceLoad
    let c := s.laneCfg a.lane
    let b := LaneRun.sample c v lost a
    let b := if b.lane.sinceLoad ≠ n && b.lane.itemStart then { b with lane := s.loadZone p b.lane }.phase c else b
    s.laneRun p lost r b

/-! ## Sample flits (R407, R409, Table 14-4) -/

/-- CRC-32C over bits in order of transmission, its most significant bit first (Table 14-4; DEDUCED, log 41). -/
def crcLink (b : Bytes) : BitVec 32 :=
  (b.foldl (fun (c : BitVec 32) x =>
    (List.range 8).foldl (fun (c : BitVec 32) _ => if c.getLsbD 31 then (c <<< 1) ^^^ 0x1EDC6F41 else c <<< 1)
      (c ^^^ (BitVec.ofNat 32 x.toNat <<< 24))) 0xFFFFFFFF) ^^^ 0xFFFFFFFF

/-- A flit of `n` bytes whose last 4 are the CRC over the rest. -/
def flitOk (n : Nat) (b : Bytes) : Bool := b.length = n && (crcLink (b.take (n - 4))).toNat = getBe b (n - 4) 4

/-- Bits `o` to `o + w - 1` of a bit string in order of transmission, most significant first. -/
def fieldAt (b : Bytes) (o w : Nat) : Nat := beNat b / 2 ^ (8 * b.length - o - w) % 2 ^ w

/-- The 8 samples of a channel of a sample flit. -/
def flitSamples (b : Bytes) (c : Nat) : List Int := (List.range 8).map (fun i => toSigned 6 (fieldAt b (64 + 6 * (64 * i + c)) 6))

/-- The lanes run: reading, or verifying while writing. -/
def State.lanesOn (s : State) : Bool := s.rd.reading || s.verifying

/-- One lane takes its samples of a flit. -/
def State.feedLane (p : Nat) (lost : Bool) (v : List Int) (s : State) : State :=
  match s.rd.lanes[p]?, s.rd.stats[p]? with
  | some l, some c =>
    let a := s.laneRun p lost v { lane := l, stats := c }
    { s with rd := { s.rd with lanes := modAt s.rd.lanes p (fun _ => a.lane), stats := modAt s.rd.stats p (fun _ => a.stats) },
             free := s.free + b2n s.verifying }
  | _, _ => s

/-- The lanes of a port, from channel `c` on. -/
def feedLanes (port : Nat) (lost : Bool) (flit : Bytes) : List Nat → State → State
  | [], s => s
  | c :: r, s =>
    let p := 64 * port + c
    let v := if lost then List.replicate 8 0 else flitSamples flit c
    feedLanes port lost flit r (if fmtUses s.fmt p then s.feedLane p lost v else s)

/-! ## Snapshot rings (R450) -/

/-- A ring record of 192 samples (R450). -/
def ringRecord (super port chan : Nat) (x : List (Int × Bool)) (time : Nat) : Bytes :=
  let lost := (List.range 24).foldl (fun m k => m + 2 ^ k * b2n ((x.getD (8 * k) (0, false)).2)) 0
  leBytes 2 super ++ [byte port, byte chan] ++ leBytes 3 lost ++ [0] ++ leBytes 8 time
    ++ leBytes 144 ((x.map Prod.fst).foldr (fun v n => ofSigned 6 v + 64 * n) 0)

/-- Ring length (Table 13-5). -/
def ringBytes : Nat := 4 * gib

/-- The offset after a record of 160 bytes: a ring goes on at its begin where the next does not fit. -/
def ringNext (o : Nat) : Nat := if ringBytes < o + 320 then 0 else o + 160

/-- A ring's next record stored behind its last; what it covers is overwritten; SNAP_HEAD moves (R450, Table 15-11). -/
def Journal.putRing (ring : Nat) (b : Bytes) (j : Journal) : Journal :=
  let o := match j.rings.find? (fun e => e.1 = ring) with
    | some e => ringNext e.2.1
    | none => 0
  let keep := fun (e : Nat × Nat × Bytes) => e.1 ≠ ring || e.2.1 + 160 ≤ o || o + 160 ≤ e.2.1
  { j with rings := (ring, o, b) :: j.rings.filter keep, snapHead := ringNext o }

/-- Samples of a captured channel join its ring; a record begins at flit 0 of a superframe that is a multiple of 4 (R450). -/
def State.ringSamples (ring super flit p : Nat) (v : List Int) (lost : Bool) (s : State) : State :=
  let had := (assocGet s.jnl.gather ring).getD []
  if had = [] && !(super % 4 = 0 && flit = 0) then s
  else
    let x := had ++ v.map (fun i => (i, lost))
    if x.length < 192 then { s with jnl := { s.jnl with gather := assocSet s.jnl.gather ring x } }
    else
      let b := ringRecord ((super + 65536 - 3) % 65536) (p / 64) (p % 64) x s.now.toNat
      { s with jnl := { s.jnl.putRing ring b with gather := s.jnl.gather.filter (fun e => e.1 ≠ ring) } }

/-- Both rings take a flit of a port, while they record. -/
def State.ringFlit (port super flit : Nat) (bytes : Bytes) (lost : Bool) (s : State) : State :=
  if !s.jnl.control.getLsbD 0 || s.jnl.frozen || s.hearth.selfRefresh then s
  else
    let one := fun (ring : Nat) (s : State) =>
      let p := s.paramN (0x0F0C0200 + ring)
      if p / 64 = port && p < 1024 then
        s.ringSamples ring super flit p (if lost then List.replicate 8 0 else flitSamples bytes (p % 64)) lost
      else s
    one 1 (one 0 s)

/-- A sample flit arrives at a head port, or is lost: its CRC fails or a lane is unaligned (R407, R409). -/
def execSampleFlit (port : Fin 16) (flit : Bytes) (aligned : Bool) (s : State) : Host.Outcome State Fault Refusal :=
  .next (if !(s.port port).up then s
    else
      let lost := !aligned || !flitOk 396 flit
      let super := if lost then (s.port port).rxSuper.toNat else fieldAt flit 0 16
      let k := if lost then (s.port port).rxFlit else fieldAt flit 16 3
      let s := s.modPort port (fun (p : Port) => { p with
        rxSuper := BitVec.ofNat 16 (if k < 5 then super else super + 1), rxFlit := if k < 5 then k + 1 else 0,
        flitsLost := satAdd 32 p.flitsLost (b2n lost) })
      let s := if lost then s.journal 0x0A port (leBytes 2 super ++ [byte k]) else s
      let s := s.ringFlit port super k flit lost
      if s.lanesOn && !s.bench.on then feedLanes port lost flit (List.range 64) s else s)

end Sys2Proof.Machine
end

