-- ==== Sys2Proof/Machine/Write.lean ====
section
/-! DEFINITION. Operations on records, deferred errors, the ledger image, key users and the life of a writing: what SEAL,
SYNC, write aborts, ends of writing and new sessions share (R22, R72, R76, R215, R253, R254, R261, R298 to R322). -/

namespace Sys2Proof.Machine

/-! ## Records -/

/-- Record `r` of this load. -/
def State.rec? (s : State) (r : Nat) : Option Rec := s.recs.recs.find? (fun x => x.num = r)

/-- Record `r` changed. -/
def State.modRec (r : Nat) (f : Rec → Rec) (s : State) : State :=
  { s with recs := { s.recs with recs := s.recs.recs.map (fun x => if x.num = r then f x else x) } }

/-- The seal items still to be formed come in record-number order, a close mark behind its record (R114, R117, R299). -/
def SealItem.key : SealItem → Nat
  | .record n => 2 * n
  | .closeMark m => 2 * m + 1

/-- A seal item put in its place. -/
def insertSeal (x : SealItem) : List SealItem → List SealItem
  | [] => [x]
  | y :: r => if x.key < y.key then x :: y :: r else y :: insertSeal x r

/-- A new record, kept by rising number; an older record of the number makes way (R298). -/
def State.addRec (x : Rec) (s : State) : State :=
  let l := s.recs.recs.filter (fun y => y.num ≠ x.num)
  { s with recs := { s.recs with recs := l.filter (fun y => y.num < x.num) ++ [x] ++ l.filter (fun y => x.num < y.num) } }

/-- Records of a state. -/
def State.recsIn (s : State) (st : RecState) : List Rec := s.recs.recs.filter (fun x => x.state = st)

/-- Lowest OPEN record number (Table 11-6). -/
def State.lowestOpen (s : State) : Option Nat := (s.recsIn .opened).head?.map (·.num)

/-- The first number from `n` on that no record still OPEN or SEALED holds. -/
def firstFree (taken : List Nat) : Nat → Nat → Nat
  | 0, n => n
  | k + 1, n => if taken.contains n then firstFree taken k (n + 1) else n

/-- Number the next OPEN or MARK receives: from the write start point on, passing over those that records still OPEN or SEALED hold
(Table 11-6, R298, R324, R334). -/
def State.nextNumber (s : State) : Nat :=
  let held := (s.recs.recs.filter (fun x => x.state = .opened || x.state = .sealed)).map (·.num)
  firstFree held held.length (s.recs.startSet.getD s.recs.next)

/-- Bytes a record's extents cover. -/
def extentBytes (e : List (Nat × Nat)) : Nat := e.foldl (fun n x => n + (x.2 - x.1)) 0

/-- Staging chunks of a record returned to the pool (R372). -/
def State.freeStage (r : Nat) (s : State) : State :=
  match s.rec? r with
  | none => s
  | some x =>
    let cs := x.chunks.map Prod.snd
    let s := s.modRec r (fun x => { x with chunks := [] })
    { s with hearth := { s.hearth with used := s.hearth.used.filter (fun c => !cs.contains c) } }

/-! ## Users of slot generations (R259) -/

/-- Generation `gen` of a slot changed. -/
def KeySlot.modGen (k : KeySlot) (gen : BitVec 16) (f : KeyGen → KeyGen) : KeySlot :=
  { k with cur := k.cur.map (fun g => if g.gen = gen then f g else g), old := k.old.map (fun g => if g.gen = gen then f g else g) }

/-- A retained generation without users is zeroized (R259). -/
def KeySlot.sweep (k : KeySlot) : KeySlot :=
  { k with old := k.old.bind (fun g => if g.users = 0 then none else some g) }

/-- One more user of a slot generation. -/
def State.useKey (slot : Nat) (gen : BitVec 16) (s : State) : State :=
  { s with sec := { s.sec with slots := modAt s.sec.slots slot (fun k => k.modGen gen (fun g => { g with users := g.users + 1 })) } }

/-- A user releases a slot generation (R259). -/
def State.releaseKey (slot : Nat) (gen : BitVec 16) (s : State) : State :=
  { s with sec := { s.sec with slots := modAt s.sec.slots slot (fun k =>
      (k.modGen gen (fun g => { g with users := g.users - 1 })).sweep) } }

/-- The slot generation of an encrypted record released. -/
def State.releaseRecKey (x : Rec) (s : State) : State := if x.encrypted then s.releaseKey x.slot x.gen else s

/-! ## Deferred errors (R319) -/

/-- Statuses of Table 11-4 that are terminal. -/
def terminalStatus (st : BitVec 16) : Bool := st ≠ Status.unverifiedWrite && st ≠ Status.dataTransferError

/-- The record may still receive this deferred error (R319). -/
def Rec.mayReceive (x : Rec) (st : BitVec 16) : Bool :=
  !x.terminal && !(st = Status.unverifiedWrite && x.gotUnverified) && !(st = Status.dataTransferError && x.digestFailed)

/-- A deferred error of a record: listed, counted, and posted as DEFERRED_ERROR with the record and its opening pair (R319, R351). -/
def State.deferError (r : Nat) (st : BitVec 16) (s : State) : State :=
  match s.rec? r with
  | none => s
  | some x =>
    if x.mayReceive st then
      let s := s.modRec r (fun x => { x with
        deferred := st, terminal := x.terminal || terminalStatus st,
        gotUnverified := x.gotUnverified || decide (st = Status.unverifiedWrite),
        digestFailed := x.digestFailed || decide (st = Status.dataTransferError) })
      let e : DeferredEntry := { num := r, pair := x.pair, status := st }
      let l := if s.recs.deferred.length < 65536 then s.recs.deferred ++ [e] else s.recs.deferred
      let s := { s with recs := { s.recs with deferred := l, deferredCount := s.recs.deferredCount + 1 } }
      let s := s.mirror (.deferred r x.pair st)
      s.postEvent { code := 1, status := st, a := r, b := x.pair, time := s.now }
    else s

/-- A record ends: its staging area and key are released, its state is set (R261, R314, R319). -/
def State.endRec (r : Nat) (st : RecState) (s : State) : State :=
  match s.rec? r with
  | none => s
  | some x =>
    let s := (s.freeStage r).releaseRecKey x
    let s := s.modRec r (fun x => { x with state := st, cus := [], extents := [] })
    { s with recs := { s.recs with sealQ := s.recs.sealQ.filter (fun i => i ≠ .record r) } }

/-! ## Ledger image (R74 to R76) -/

/-- The image as it stands is issued: sequence number up by one, kept among the last eight, LEDGER_ISSUED posted (R76, R350). -/
def State.issueImage (s : State) : State :=
  let seq := match s.cart.lastIssued with
    | none => if s.cart.blank then 0 else s.cart.image.seq + 1
    | some _ => s.cart.image.seq + 1
  let m := { s.cart.image with seq := seq }
  let s := { s with cart := { s.cart with image := m, issued := (m :: s.cart.issued).take 8, lastIssued := some seq, changed := false } }
  (s.mirror (.image m.bytes)).event 0x0303 seq (seq % 8)

/-- The image changed, to be issued later. -/
def State.modImage (f : LedgerImage → LedgerImage) (s : State) : State :=
  { s with cart := { s.cart with image := f s.cart.image, changed := true } }

/-- The last issued image, or the accepted one (Table 11-6: synced limit and record limit). -/
def State.lastImage (s : State) : LedgerImage := s.cart.issued.headD s.cart.image

/-! ## Sessions (R72, R215, R253, R254) -/

/-- S of R253. -/
def State.sessionBase (s : State) : Nat := max s.cart.image.session s.cart.maxSession

/-- Value of the next write session: the one the search reserved, if no billet of it has been read, else S + 1 (R253). -/
def State.nextSession (s : State) : Nat :=
  match s.cart.reserved with
  | some v => if s.cart.maxSession < v then v else s.sessionBase + 1
  | none => s.sessionBase + 1

/-- Splice position of the next write: where a LOCATE with the write flag put it, else the end of data (R72, R219, R324). -/
def State.splicePos (s : State) : TapePos := s.cart.startPos.getD s.cart.appendPos

/-- The next write starts a new session: every splice but an append at EOD (R72, R253). -/
def State.needsSession (s : State) : Bool :=
  !s.forge.writing && s.cart.waitStored.isNone &&
    (!s.cart.image.eodValid || (match s.recs.startSet with
      | some r => r ≠ s.cart.image.recordLimit
      | none => false))

/-- The cartridge refuses writes, or the next write would need a session value of 0xFFFF_FFFF or more (R254). -/
def State.sessionExhausted (s : State) : Bool :=
  s.cart.image.writeRefused || s.cart.image.session = 0xFFFFFFFF || (s.needsSession && 0xFFFFFFFF ≤ s.nextSession)

/-- The refusal of R254: an image with write session 0xFFFF_FFFF and the write-refused bit, WRITE_REFUSED set. -/
def State.refuseWrites (s : State) : State :=
  if s.cart.image.writeRefused then s
  else
    let s := s.modImage (fun m => { m with session := 0xFFFFFFFF, writeRefused := true })
    { s with sec := { s.sec with writeRefused := true } }.issueImage

/-- Logical order of a (wrap, segment) index position: segments run down in a reverse wrap (R214). -/
def indexOrder (k : Nat) : Nat := k / 65 * 65 + (if k / 65 % 2 = 0 then k % 65 else 64 - k % 65)

/-- A new write session starts at the splice: its value and the session-open bit enter an image, the locate index and
first records after the splice are cleared, and the first frame waits for the report of that image (R76, R215, R253). -/
def State.beginSession (s : State) : State :=
  let p := s.splicePos
  let n := s.nextSession
  let at_ := indexOrder (p.wrap * 65 + segmentOf p.lpos)
  let s := s.modImage (fun m => { m with
    session := n, sessionOpen := true, eodValid := false,
    -- an overwrite leaves nothing synced at or above its first record (R73, log 23)
    syncedLimit := min m.syncedLimit s.nextNumber, recordLimit := min m.recordLimit s.nextNumber,
    syncedPos := if s.nextNumber < m.syncedLimit then p else m.syncedPos,
    index := m.index.filter (fun e => indexOrder e.1 ≤ at_ && e.2.1 < s.nextNumber),
    wraps := m.wraps.mapIdx (fun w e => if p.wrap < w then { e with first := none } else e) })
  -- records of an older session numbered at or above the first are superseded (R73, Table 11-1)
  let s := { s with recs := { s.recs with
    recs := s.recs.recs.filter (fun x => x.num < s.nextNumber || x.state = RecState.opened || x.state = RecState.sealed) } }
  let s := s.issueImage
  { s with cart := { s.cart with waitStored := s.cart.lastIssued, reserved := none, blank := s.cart.blank } }

/-! ## Capacity (R312) -/

/-- Data heats of the trains that fit in `n` heat positions from a train's start (R60 to R62, Table 02-18). -/
def dataHeats (n : Nat) : Nat :=
  if n < 304 then (n - 64) / 4 * 4
  else
    let k := (n - 304) / 256 + 1
    240 * k + (n - 256 * k - 64) / 4 * 4

/-- Data heats still to be formed of a train with `t` billet heats formed and `n` positions left, and of the trains after it. -/
def dataHeatsFrom (t n : Nat) : Nat :=
  if 240 ≤ t then dataHeats (n - (256 - t))
  else
    let room := (n - 64) / 4 * 4
    let own := 240 - t
    if own ≤ room then own + dataHeats (n - (256 - t)) else room

/-- Heat positions left on the current wrap for heats not yet formed. -/
def State.wrapLeft (s : State) : Nat :=
  if s.forge.writing then s.heat.left - s.forge.formed.length
  else if s.splicePos.heat = 0 then fmtHeats s.fmt - 2
  else fmtHeats s.fmt - s.splicePos.heat - 1

/-- Wraps after the current one. -/
def State.wrapsLeft (s : State) : Nat := fmtWraps s.fmt - 1 - (if s.forge.writing then s.heat.wrap else s.splicePos.wrap)

/-- Bound of a record: L + 96 + 72 × CU count (R312). -/
def recBound (len : Nat) : Nat := len + 96 + 72 * cuCount len

/-- Remaining capacity: payload of the data billet heats not yet formed, less 2 %, less the bounds of sealed records not
yet formed (R312). -/
def State.capacity (s : State) : Nat :=
  let t := if s.forge.writing then s.forge.t else 0
  let heats := dataHeatsFrom t s.wrapLeft + s.wrapsLeft * dataHeats (fmtHeats s.fmt - 2)
  let bounds := ((s.recsIn .sealed).filter (fun x => !x.packed)).foldl (fun n x => n + recBound x.len) 0
  heats * fmtGroups s.fmt * 103840 * 98 / 100 - bounds

/-! ## Bellows causes (R148) -/

/-- A cause of Table 04-10: its bit sets, and if it was clear and enabled in the mask the event is posted (R148). -/
def State.blwCause (bit chan : Nat) (s : State) : State :=
  if s.blw.intStatus.getLsbD bit then s
  else
    let s := { s with blw := { s.blw with intStatus := s.blw.intStatus ||| (1 <<< bit) } }
    if s.blw.intMask.getLsbD bit then s.event (0x100 + bit) chan 0 else s

/-- A cause of Table 09-12: as for the Bellows block. -/
def State.secCause (bit arg : Nat) (s : State) : State :=
  if s.sec.intStatus.getLsbD bit then s
  else
    let s := { s with sec := { s.sec with intStatus := s.sec.intStatus ||| (1 <<< bit) } }
    if s.sec.intMask.getLsbD bit then s.event (0x200 + bit) arg 0 else s

/-- BLW_FILL while writing: raw bytes of sealed records not yet taken by the forming feeder (04, R142). -/
def State.sealedFill (s : State) : Nat :=
  ((s.recsIn .sealed).filter (fun x => !x.packed)).foldl (fun n x =>
    n + (x.len - min x.len (262144 * (x.cus.filter (fun c => c.item.isSome || c.comp.isSome)).length))) 0

/-- BLW_FILL (04, R142). -/
def State.blwFill (s : State) : Nat := if s.rd.reading then s.rd.raBytes else s.sealedFill

/-- LEVEL_UP sets when the fill rises to BLW_LEVEL and re-arms below BLW_LEVEL − 1 GiB (R146). -/
def State.checkLevel (s : State) : State :=
  let f := s.blwFill
  let lv := s.paramN 0x04071900
  let up := s.blw.levelArmed && s.blw.lastFill < lv && lv ≤ f
  let armed := if up then false else s.blw.levelArmed || f + gib < lv
  let s := { s with blw := { s.blw with levelArmed := armed, lastFill := f } }
  if up then s.blwCause 0 0 else s

/-! ## The life of a writing -/

/-- A speed request still waiting when writing or reading ends is dropped (R142). -/
def State.dropSpeedRequest (s : State) : State := { s with blw := { s.blw with ackPending := false, fell := false } }

/-- Every Anvil channel flushed: both lists and the frame its encoder is pushing (R127). -/
def State.flushAnvil (s : State) : State :=
  { s with anvil := { s.anvil with
      chans := s.anvil.chans.map (fun c => { c with wlist := [], hold := [], enc := [], discarding := true, bits := [],
                                                    inFrame := false, started := false, slag := false })
      free := 524288 } }

/-- What the Forge Sequencer keeps of a writing discarded; serials and the train count go on. -/
def State.clearForge (s : State) : State :=
  { s with
    forge := { s.forge with
      writing := false, ending := false, starveEnd := false, t := 0, closing := false, tc := none, shortTrains := [],
      pos := none, formed := [], billets := [], acc := [], eodAt := none, block := [], reforms := [], rebuild := false, paused := false, train := s.forge.train + 1 },
    heat := { s.heat with kind := .none, blockLeft := 0, splice := false, drain := false, wrapEnd := false, gate := false,
                          retireDue := [] } }

/-- Writing ends as at a write abort: Anvil flushed, no EOD block, the image with the session-open bit issued, the next
write or far read runs the end-of-data search (R127, R261, R321). Records are ended by the caller. -/
def State.abortWriting (s : State) : State :=
  let was := s.forge.writing
  let s := ((s.flushAnvil.clearForge).dropSpeedRequest).mirror .ended
  let s := s.modImage (fun m => { m with sessionOpen := true, eodValid := false })
  let s := { s with cart := { s.cart with searchPending := true, waitStored := none, startPos := none },
                    recs := { s.recs with startSet := none } }
  let s := s.issueImage
  if was then s.stopTape else s

/-- Every record of a list receives a terminal deferred error and is DISCARDED. -/
def discardAll : List Rec → (Rec → BitVec 16) → State → State
  | [], _, s => s
  | x :: r, st, s => discardAll r st ((s.deferError x.num (st x)).endRec x.num .discarded)

/-- A write abort: each SEALED record not released receives the status `st` gives it, and writing ends (R261, R320, R361). -/
def State.writeAbort (st : Rec → BitVec 16) (s : State) : State :=
  let sealed := s.recsIn .sealed
  (discardAll sealed st s).abortWriting

/-- A write abort with ABORTED, WRITE ABORT for every record. -/
def State.writeAbortAll (s : State) : State := s.writeAbort (fun _ => Status.abortedWriteAbort)

/-- Writing is asked to end: the train closes after the last sealed item, then drain, EOD block and image (R62, R70, R322). -/
def State.endWriting (s : State) : State :=
  if s.forge.writing then { s with forge := { s.forge with ending := true } } else s

/-- Something sealed waits to be formed. -/
def State.haveSealed (s : State) : Bool := (s.recsIn .sealed).any (fun x => !x.packed)

/-- A sealed record that no lower OPEN record holds back waits to be formed (R299). -/
def State.formable (s : State) : Bool :=
  (s.recsIn .sealed).any (fun x => !x.packed && (match s.lowestOpen with
    | some n => decide (x.num < n)
    | none => true))

/-- Speed levels as µm/s (R142). -/
def speedOf (v : BitVec 2) : Int := match v.toNat with
  | 0 => 6000000
  | 1 => 9000000
  | 2 => 12000000
  | _ => 16000000

/-- No train can begin and close after a splice heat at a position: the EOD block there lies in its wrap's drain (R60, R62, R72). -/
def State.inDrain (s : State) (p : TapePos) : Bool := positionsLeft s.fmt p.wrap (p.lpos * 256000) < 69

/-- The tape starts for writing at the splice position: the map in force there, the splice heat or the ledger block of a wrap start
formed, and a LOCATE to the run-up before it, whose AT_TARGET is answered with a RUN (R68, R72, R139, R142, R214). -/
def State.launchWriting (s : State) : State :=
  let p := s.splicePos
  let fresh := p.heat = 0
  let inDrain := !fresh && s.inDrain p
  let m := s.cart.image.mapAt p.wrap
  let s := { s with
    forge := { s.forge with writing := true, ending := false, starveEnd := false, t := 0, closing := false, tc := none, nextSerial := p.serial, eodAt := none },
    heat := { s.heat with
      wrap := p.wrap, h := p.heat, kind := .none, blockLeft := if fresh then 0 else if inDrain then 2 else 1,
      splice := !fresh, drain := inDrain, wrapEnd := false, first := true, map := m.map, mapGen := m.gen, retired := m.retired,
      left := positionsLeft s.fmt p.wrap (p.lpos * 256000) - 1 },
    rd := { s.rd with reading := false, streaming := false, billets := [], raBytes := 0 },
    -- from here on the tape is written past what the last image says (Table 02-14)
    cart := { s.cart with sessionBegun := true, eodChecked := true, startPos := none, waitStored := none, changed := true,
                          image := { s.cart.image with eodValid := false, sessionOpen := true } } }
  let s := if fresh then s.formBlock s.cart.image false else s
  let back := s.param 0x07080100
  let t := if p.wrap % 2 = 0 then p.lpos - back else p.lpos + back
  s.motionReq { kind := 1, dir := p.wrap % 2 = 1, target := t * 256000 }

/-- Nothing but the session's image stands between a formable record and writing (R142, R205, R234, R322). -/
def State.tapeFree (s : State) : Bool :=
  s.cart.loaded && !s.forge.writing && s.rd.jobs = [] && s.rd.locate.isNone && !s.blw.starveStopped && !s.cart.searching
    && !s.cart.eodChecking

/-- Writing starts when something formable waits and no read holds the tape: first a new session's image is issued where one is
needed, whose report the first frame awaits (R72, R76, R234, R299, R322). -/
def State.startWriting (s : State) : State :=
  if s.tapeFree && s.formable && s.cart.waitStored.isNone && !s.cart.searchPending then
    if s.needsSession then (if s.sessionExhausted then s else s.beginSession) else s.launchWriting
  else s

/-- Billets of an ingot of a train leave the packing records once all of it is settled (R22, R117); ledger and EOD billets each by
themselves. -/
def settledIngots (b : List Billet) : List Billet :=
  b.filter (fun x =>
    let mates := b.filter (fun y => y.cls = 0 && y.train = x.train && y.ingot = x.ingot)
    if x.cls ≠ 0 then x.pending ≠ 0
    else !(mates.all (fun y => y.pending = 0) && (mates.filter (·.parity)).length = 4))

/-- A record is WRITTEN when its trailer is packed and no billet that holds its bytes is still kept (R22). -/
def Rec.releasable (x : Rec) (b : List Billet) : Bool :=
  x.state = .sealed && x.packed && x.billets.all (fun n => !(b.map (·.serial)).contains n)

/-- Each releasable record becomes WRITTEN and gives up its staging area, forming state and key (R22, R259, R372). -/
def releaseAll : List Rec → State → State
  | [], s => s
  | x :: r, s =>
    let s := (s.freeStage x.num).releaseRecKey x
    let s := { s with cart := { s.cart with changed := true } }
    releaseAll r (s.modRec x.num (fun x => { x with state := .written, cus := [] }))

/-- Raw copies released after verdicts (R22). -/
def State.tryRelease (s : State) : State :=
  let b := settledIngots s.forge.billets
  let s := { s with forge := { s.forge with billets := b } }
  releaseAll (s.recs.recs.filter (fun x => x.releasable b)) s

end Sys2Proof.Machine
end

