-- ==== Sys2Proof/Machine/Life.lean ====
section
/-! DEFINITION. Power states and the fetch pause (R292, R354 to R360, R383), the end of a self-test (R364, R365), host-memory
conditions that a command reports (log 15). -/

namespace Sys2Proof.Machine

/-! ## Host memory as a command reports it (log 15) -/

/-- What a command without a pair reports of host memory. -/
def State.withIo (io : Io) (s : State) : State := { s with env := { s.env with evFail := io.evFail } }

/-- What a command of pair `q` reports of host memory. -/
def State.withPairIo (q : Nat) (io : Io) (s : State) : State :=
  { s with env := { evFail := io.evFail,
                    cqFail := if io.cqFail then q :: s.env.cqFail.filter (· ≠ q) else s.env.cqFail.filter (· ≠ q) } }

/-! ## Self-test (R364, R365) -/

/-- Milliseconds between two times of Table 10-12's form. -/
def msBetween (a b : BitVec 64) : Nat :=
  let f := fun (t : BitVec 64) => 1000000000 * (t.toNat / 2 ^ 32) + t.toNat % 2 ^ 32
  (f b - f a) / 1000000

/-- The running self-test ends with an outcome: its record is kept, units under test return re-initialised, SELFTEST_DONE is
posted (R364, R365, R435). -/
def State.endSelfTest (outcome : Nat) (s : State) : State :=
  match s.units.running with
  | none => s
  | some r =>
    let r := { r with outcome := outcome, duration := msBetween r.start s.now }
    let s := { s with units := { s.units with running := none, underTest := [], slice := none,
                                              results := (r :: s.units.results).take 16 } }
    s.event 0x0405 r.id.toNat outcome

/-! ## Units in service (R429, R431, R435) -/

/-- Units of a class that are quarantined or under test. -/
def State.outUnits (s : State) (cls : Nat) : List Nat :=
  ((s.units.quarantined ++ s.units.underTest).filter (fun u => u.cls = cls)).map (·.num)

/-- Units of a class in service, of `n` (Table 15-1). -/
def State.unitsIn (s : State) (cls n : Nat) : Nat := ((List.range n).filter (fun k => !(s.outUnits cls).contains k)).length

/-- A quarantined unit of a class and number. -/
def State.isQuarantined (s : State) (cls num : Nat) : Bool := s.units.quarantined.any (fun u => u.cls = cls && u.num = num)

/-- A unit is quarantined and UNIT_QUARANTINED posted (R429, R435). -/
def State.quarantine (cls num : Nat) (s : State) : State :=
  if s.isQuarantined cls num then s
  else
    let u : UnitId := { cls := cls, num := num }
    ({ s with units := { s.units with quarantined := s.units.quarantined ++ [u] } }.event 0x0401 (2 ^ 24 * cls + num) 0).trigger 6

/-! ## Power states (R356 to R359, R383) -/

/-- One micro-retraining of every rank of a channel (R383, R385). -/
def HChan.microRetrain (nranks : Nat) (c : HChan) : HChan :=
  if c.state = 0 || c.state = 1 || c.state = 2 then
    { c with microSlots := c.microSlots + BitVec.ofNat 32 (2 * nranks),
             ranks := c.ranks.map (fun r => { r with drift := 0, powerDown := false }) }
  else c

/-- The Hearth leaves self-refresh with a micro-retraining of every rank (R383). -/
def State.hearthWake (s : State) : State :=
  if s.hearth.selfRefresh then
    { s with hearth := { s.hearth with selfRefresh := false, chans := s.hearth.chans.map (HChan.microRetrain s.hearth.nranks) } }
  else s

/-- Every rank enters self-refresh, contents kept (R383). -/
def State.hearthSleep (s : State) : State := { s with hearth := { s.hearth with selfRefresh := true } }

/-- Role authentication of every mailbox ends (R266, R357). -/
def State.endRoles (s : State) : State := { s with mail := s.mail.map (fun b => { b with role := 0 }) }

/-- A power state is reached: POWER_STATE posted (R356), self-refresh as R383 says, roles ended in P3 (R357). -/
def State.reachPower (t : BitVec 2) (s : State) : State :=
  let s := if t.toNat < 2 then s.hearthWake else s.hearthSleep
  let s := if t = 3 then s.endRoles else s
  { s with pwr := { s.pwr with state := t, entering := none } }.event 0x0504 t.toNat 0

/-- A mailbox that waits on a power-state entry gets its answer. -/
def answerMb (m : Option Nat) (st : BitVec 16) (detail : Nat) (s : State) : State :=
  match m with
  | some m => s.respond m st detail []
  | none => s

/-- An entry to a power state begins (R356, R359): writing is ended and the tape stopped on the way to P2 and P3, a self-test
aborted (R365). -/
def State.enterPower (t : BitVec 2) (mb : Option Nat) (s : State) : State :=
  let s := { s with pwr := { s.pwr with entering := some t, wake := false, mb := mb } }
  if t.toNat < 2 then s
  else
    let s := s.endSelfTest 3
    let s := s.endWriting
    if s.forge.writing || s.tapeStopped then s else s.stopTape

/-- POWER_SET requests to P0 that wait are answered once P0 is reached (R356, R357). -/
def answerP0 : List Nat → State → State
  | [], s => s
  | m :: r, s =>
    let b := s.mbox m
    let waits := b.state = 1 && b.opcode = 0x0701 && !b.held && (match b.req with
      | some q => getLe q.payload 0 1 = 0
      | none => false)
    answerP0 r (if waits then s.done m [] else s)

/-- P0 is reached. -/
def State.reachP0 (s : State) : State := answerP0 (List.range 16) (s.reachPower 0)

/-- POWER_SETs whose entry is abandoned complete with SEQUENCE ERROR and detail 0x0001 (R358). -/
def abandonSets : List (BitVec 2 × Nat) → State → State
  | [], s => s
  | d :: r, s => abandonSets r (s.respond d.2 Status.sequenceError 1 [])

/-- A wake event (R357, R358): an entry is abandoned, or completed first and then left, as PWR_ARRIVAL says; a resting formatter
comes to P0. Only the D0 transition wakes from D3hot (R359). -/
def State.wake (s : State) : State :=
  if s.pwr.d3hot then s
  else match s.pwr.entering with
    | some _ =>
      if s.param 0x0C070400 = 1 then { s with pwr := { s.pwr with wake := true } }
      else
        let m := s.pwr.mb
        let d := s.pwr.deeper
        let s := { s with pwr := { s.pwr with entering := none, mb := none, deeper := [] } }
        (abandonSets d (answerMb m Status.sequenceError 1 s)).reachP0
    | none => if s.pwr.state = 0 then s else s.reachP0

/-- Commands of pairs may be fetched: queues enabled, no pause by activation, shutdown, power state or role swap, no FATAL
(R292, R354, R356, R360, R445, R457). -/
def State.fetchRuns (s : State) : Bool :=
  s.glob.enabled && s.glob.phase = .running && s.glob.shutdown ≠ 1 && (s.fw.act = .none || s.fw.act = .preparing)
    && s.pwr.state.toNat < 2 && (match s.pwr.entering with
      | some t => t.toNat < 2
      | none => true)
    && s.twin.swap.isNone && s.twin.role ≠ 2 && !s.twin.replayDue && !s.glob.fatal

end Sys2Proof.Machine
end

