-- ==== Sys2Proof/Machine/Reads.lean ====
section
/-! DEFINITION. The read side's shared operations: billets under assembly, C2 and C3 states, the item stream, trains as a
reader sees them, locating, the end-of-data search, the recovery ladder's report and the end of a record read
(R54, R59 to R73, R95 to R112, R203 to R220, R322 to R326). -/

namespace Sys2Proof.Machine

/-! ## Frames into billets (R54, R59, R95, R96, R111) -/

/-- Key of a heat of a wrap in the failure and capture lists. -/
def heatKey (w h : Nat) : Nat := 2 ^ 24 * w + h

/-- Erased positions of a billet (R95, R96). -/
def RBillet.erased (b : RBillet) : List Nat :=
  (List.range 126).filter (fun j => b.conflicts.contains j || (assocGet b.frames j).isNone)

/-- The kind byte of a complete billet's header. -/
def RBillet.hdr (b : RBillet) : BilletHdr := parseBillet b.data

/-- A complete data billet (R203). -/
def RBillet.isData (b : RBillet) : Bool := b.cls = 0 && !b.parity && decide (b.state = .complete)

/-- A copy of frame `j` joins a billet: kept, compared with the one held, or disregarded (R59, R96, R111). -/
def RBillet.accept (b : RBillet) (j : Nat) (bytes : Bytes) (second : Bool) (written : Nat) : RBillet :=
  let b := { b with lastWritten := max b.lastWritten written }
  match assocGet b.frames j with
  | some old =>
    if b.conflicts.contains j then b
    else if old = bytes then b
    else if b.state = .complete then { b with nconf := b.nconf + 1 }
    else { b with conflicts := j :: b.conflicts, nconf := b.nconf + 1 }
  | none =>
    if b.final || decide (b.state = .complete) || b.conflicts.contains j then b
    else { b with frames := (j, bytes) :: b.frames, slCopies := b.slCopies + b2n second }

/-- C2 decodes a billet (R98 to R101): complete, partial with its failed columns, or failed. -/
def RBillet.c2 (b : RBillet) (margin attempt : Nat) : RBillet :=
  let fs := (List.range 126).map (fun j => if b.conflicts.contains j then none else assocGet b.frames j)
  let r := c2Decode fs margin
  let bad := (List.range 944).filter (fun m => ((r.cols[m]?).join).isNone)
  let data := c2Payload r.cols
  let crcBad := bad = [] && !b.parity && !billetCrcOk data
  let bad := if crcBad then List.range 944 else bad
  { b with
    data := data, badCols := bad, suspects := b.suspects + r.suspects.length, c2corr := b.c2corr || r.corrected,
    parked := false, attempt := if bad = [] then attempt else b.attempt,
    state := if bad = [] then .complete else if bad.length = 944 then .failed else .partly }

/-- C2 at home heat + C2_HOLD or when a copy fills a position: at once with no more than 16 erasures, else parked until the
erased set is final, when every column fails (R97). -/
def RBillet.tryC2 (b : RBillet) (margin attempt : Nat) : RBillet :=
  if b.state = .complete || b.state = .unrecovered then b
  else if b.erased.length ≤ 16 then b.c2 margin attempt
  else if b.final then { b with state := .failed, badCols := List.range 944, parked := false }
  else { b with parked := true }

/-- Billets of a class in serial order. -/
def insertBillet (x : RBillet) : List RBillet → List RBillet
  | [] => [x]
  | y :: r => if (x.wrap, x.serial) = (y.wrap, y.serial) && x.cls = y.cls then x :: r
    else if x.wrap < y.wrap || (x.wrap = y.wrap && x.serial < y.serial) then x :: y :: r
    else y :: insertBillet x r

/-! ## Trains as a reader sees them (R60 to R63, R102 to R107) -/

/-- Billet-heat number of a billet: serials rise 8 per billet heat, one per group (Table 02-6). -/
def RBillet.heatNo (f : Nat) (b : RBillet) : Nat := b.serial / fmtGroups f

/-- The train of a billet: its first billet heat, the billet heat at which parity begins, in billet-heat numbers. -/
structure TrainAt where
  first : Nat
  parity : Nat
deriving DecidableEq, Repr

/-- Parity billet heats of a wrap that are held. -/
def parityHeats (f w : Nat) (bs : List RBillet) : List Nat :=
  ((bs.filter (fun b => b.cls = 0 && b.parity && b.wrap = w)).map (RBillet.heatNo f)).eraseDups

/-- First heat of the run of parity heats that holds `n`, looking at most 16 back. -/
def runStart (ps : List Nat) : Nat → Nat → Nat
  | 0, n => n
  | k + 1, n => if 0 < n && ps.contains (n - 1) then runStart ps k (n - 1) else n

/-- The closed train that holds a billet, where its parity heats are held (R62, R63). -/
def trainAt (f : Nat) (bs : List RBillet) (b : RBillet) : Option TrainAt :=
  let ps := parityHeats f b.wrap bs
  let n := b.heatNo f
  let start := if b.parity then some (runStart ps 16 n)
    else ((ps.filter (n < ·)).foldl (fun a p => some (match a with
      | some q => min q p
      | none => p)) none)
  start.map (fun p =>
    let short := bs.any (fun x => x.cls = 0 && x.parity && x.wrap = b.wrap && x.heatNo f = p && x.short)
    let prev := (ps.filter (· < p)).foldl max 0
    let sess := (bs.filter (fun x => x.isData && x.wrap = b.wrap && x.heatNo f < p)).getLast?.map (·.hdr.session)
    let mine := (bs.filter (fun x => x.isData && x.wrap = b.wrap && some x.hdr.session = sess)).map (RBillet.heatNo f)
    let low := mine.foldl min p
    { first := if short then max (if prev = 0 then 0 else prev + 1) low else p - 240, parity := p })

/-- Ingot of a billet of a train (R60). -/
def ingotOf (f : Nat) (t : TrainAt) (b : RBillet) : Nat := ingotAt f (b.heatNo f - t.first) b.group

/-- Position of a billet in its ingot: parity keeps 60 to 63 (R60, R63). -/
def posOf (f : Nat) (t : TrainAt) (b : RBillet) : Nat :=
  if t.parity ≤ b.heatNo f then 60 + (b.heatNo f - t.parity) / 4 else (b.heatNo f - t.first) / 4

/-- Billet at a position of an ingot: billet-heat number, then group (R60). -/
def heatOfPos (t : TrainAt) (ingot pos : Nat) : Nat :=
  if 60 ≤ pos then t.parity + 4 * (pos - 60) + ingot % 4 else t.first + 4 * pos + ingot % 4

/-- The billet at a position of an ingot of a train, if held. -/
def billetAt (f w : Nat) (bs : List RBillet) (t : TrainAt) (ingot pos : Nat) : Option RBillet :=
  let n := heatOfPos t ingot pos
  let g := ingotGroup f ingot (n - t.first)
  bs.find? (fun b => b.cls = 0 && b.wrap = w && b.heatNo f = n && b.group = g)

/-- Positions of an ingot of a train that lie on tape (R63). -/
def livePositions (t : TrainAt) : List Nat := List.range ((t.parity - t.first) / 4) ++ [60, 61, 62, 63]

/-- A billet of which no frame has been accepted, at a position of an ingot; its home heat is that of a billet of its heat, if held. -/
def unreadBillet (f w : Nat) (bs : List RBillet) (t : TrainAt) (ingot pos : Nat) : RBillet :=
  let n := heatOfPos t ingot pos
  let g := ingotGroup f ingot (n - t.first)
  let home := ((bs.find? (fun b => b.cls = 0 && b.wrap = w && b.heatNo f = n)).map (·.home)).getD 0
  { serial := n * fmtGroups f + g, group := g, home := home, wrap := w, state := .failed, badCols := List.range 944, final := true }

/-- C3 of one ingot: every data position with erased columns rebuilt where at most four are missing (R105, R106). A billet
never read counts as failed. The rebuilt billets, complete or unrecovered. -/
def c3Ingot (f w : Nat) (bs : List RBillet) (t : TrainAt) (ingot : Nat) (attempt : Nat) : List RBillet :=
  let live := livePositions t
  let at_ := (List.range 64).map (fun p => if live.contains p then billetAt f w bs t ingot p else none)
  let bad := fun (p m : Nat) => live.contains p && (match (at_[p]?).join with
    | some b => b.badCols.contains m || decide (b.state = .waiting) || decide (b.state = .failed)
    | none => true)
  let col := fun (u : Nat) =>
    let er := (List.range 64).filter (fun p => bad p (u % 944))
    let word := (List.range 64).map (fun p => if er.contains p then (0 : Byte) else match (at_[p]?).join with
      | some b => b.data.getD u 0
      | none => 0)
    if er = [] then some word else if er.length ≤ 4 then c3Column word er else none
  let cols := (List.range 103840).map col
  let live60 := live.filter (· < 60)
  live60.filterMap (fun p =>
    let b := ((at_[p]?).join).getD (unreadBillet f w bs t ingot p)
    if b.state = .complete then none
    else
      let ok := cols.all (·.isSome)
      let data := cols.map (fun c => (c.getD []).getD p 0)
      if ok && billetCrcOk data then
        some { b with state := .complete, data := data, badCols := [], c3built := true, parked := false, attempt := attempt }
      else some { b with state := .unrecovered, parked := false })

/-- A position is final: its billet is complete, or its erased set is (R107). -/
def RBillet.settled (b : RBillet) : Bool := decide (b.state = .complete) || b.final

/-! ## The item stream (R66, R67, R73, R203) -/

/-- Why the walk through the items stops: a billet that is not complete or not yet read, stale data, or an item that is none. -/
inductive Stop where
  | waiting (serial : Nat)
  | stale
  | broken
deriving DecidableEq, Repr

/-- The data billet with the lowest serial from `n` on: complete, or the reason to wait. Parity, ledger and EOD billets are
skipped (R203). -/
def nextData (bs : List RBillet) (n : Nat) : Nat → Except Stop RBillet
  | 0 => .error (.waiting n)
  | k + 1 =>
    match bs.find? (fun b => b.cls = 0 && b.serial = n) with
    | some b => if b.parity then nextData bs (n + 1) k else if b.state = .complete then .ok b else .error (.waiting n)
    | none => .error (.waiting n)

/-- A data billet and those before it: stale when its session is lower than one before it (R73). -/
def staleAt (bs : List RBillet) (b : RBillet) : Bool :=
  bs.any (fun x => x.isData && x.serial < b.serial && b.hdr.session < x.hdr.session)

/-- Where an item begins or resumes: billet serial and payload offset. -/
abbrev ItemPos := Nat × Nat

/-- From an offset of a billet to the first item byte at or after it: over the unused rest of billets (R66, R67). -/
def skipEmpty (bs : List RBillet) : Nat → RBillet → Nat → Except Stop (RBillet × Nat)
  | 0, b, _ => .error (.waiting b.serial)
  | k + 1, b, o =>
    if staleAt bs b then .error .stale
    else if o < 32 + b.hdr.used then .ok (b, o)
    else match nextData bs (b.serial + 1) (bs.length + 1) with
      | .error e => .error e
      | .ok c => skipEmpty bs k c 32

/-- The billet and offset at which the item at a position begins. -/
def settlePos (bs : List RBillet) (p : ItemPos) : Except Stop (RBillet × Nat) :=
  match nextData bs p.1 (bs.length + 1) with
  | .error e => .error e
  | .ok b => skipEmpty bs (bs.length + 1) b (if b.serial = p.1 then p.2 else 32)

/-- `n` bytes of a CU item from a position on, across billets, and the position after them (R66). -/
def takeItem (bs : List RBillet) : Nat → ItemPos → Nat → Except Stop (Bytes × ItemPos)
  | 0, p, _ => .error (.waiting p.1)
  | k + 1, p, n =>
    match nextData bs p.1 (bs.length + 1) with
    | .error e => .error e
    | .ok b =>
      let o := if b.serial = p.1 then p.2 else 32
      if staleAt bs b then .error .stale
      else
        let room := 103840 - o
        if n ≤ room then .ok (slice b.data o n, (b.serial, o + n))
        else match takeItem bs k (b.serial + 1, 32) (n - room) with
          | .error e => .error e
          | .ok (rest, q) => .ok (slice b.data o room ++ rest, q)

/-- Sealed bytes L + 16 of the CU whose header is at an offset. -/
def cuItemLen (b : Bytes) (o : Nat) : Nat := getBe b (o + 4) 4 + 16

/-- One item and the position after it: its type byte, its header bytes, its place. -/
structure Item where
  type : Nat
  head : Bytes
  place : ItemPos
  next : ItemPos
deriving DecidableEq, Repr

/-- The item at or after a position; a CU's body is skipped. -/
def itemAt (bs : List RBillet) (p : ItemPos) : Except Stop Item :=
  match settlePos bs p with
  | .error e => .error e
  | .ok (b, o) =>
    let t := getBe b.data o 1
    if t = 0x52 || t = 0x54 then
      .ok { type := t, head := slice b.data o 32, place := (b.serial, o), next := (b.serial, o + 32) }
    else if t = 0x43 then
      match takeItem bs (bs.length + 1) (b.serial, o + 16) (cuItemLen b.data o) with
      | .error e => .error e
      | .ok (_, q) => .ok { type := t, head := slice b.data o 16, place := (b.serial, o), next := q }
    else .error .broken

/-- Items from a position on, as far as billets allow, and why the walk stops. -/
def itemsFrom (bs : List RBillet) : Nat → ItemPos → List Item × Stop
  | 0, p => ([], .waiting p.1)
  | k + 1, p =>
    match itemAt bs p with
    | .error e => ([], e)
    | .ok i =>
      let r := itemsFrom bs k i.next
      (i :: r.1, r.2)

/-- Walk through one billet's own items from an offset: how many descriptors begin in it, if the items fill its used length
exactly or a CU runs past its end (R66). -/
def fillsBillet (b : RBillet) : Nat → Nat → Nat → Option Nat
  | 0, _, _ => none
  | k + 1, o, n =>
    if o = 32 + b.hdr.used then some n
    else if 32 + b.hdr.used < o then none
    else
      let t := getBe b.data o 1
      if t = 0x52 then fillsBillet b k (o + 32) (n + 1)
      else if t = 0x54 then fillsBillet b k (o + 32) n
      else if t = 0x43 then
        let e := o + 16 + cuItemLen b.data o
        if 103840 ≤ e then some n else fillsBillet b k e n
      else none

/-- Offset of the first item that begins in a billet entered without the one before it: 32, or the first multiple of 16 from
which the items fill the billet with as many descriptors as its header counts (R66, Table 02-7; DEDUCED, log 21). -/
def firstItem (b : RBillet) : Option Nat :=
  if !b.hdr.cont then (if b.hdr.used = 0 then none else some 32)
  else (List.range 6489).findSome? (fun i =>
    let o := 32 + 16 * i
    if o ≤ 32 + b.hdr.used && fillsBillet b 6500 o 0 = some b.hdr.descs then some o else none)

/-- Complete data billets in serial order. -/
def dataBillets (bs : List RBillet) : List RBillet := bs.filter RBillet.isData

/-- Where the item walk can begin: the first complete data billet with an item boundary from a serial on. -/
def entryFrom (bs : List RBillet) (n : Nat) : Option ItemPos :=
  (dataBillets bs).findSome? (fun b => if n ≤ b.serial then (firstItem b).map (fun o => (b.serial, o)) else none)

/-- Record number in a descriptor or trailer. -/
def itemRec (h : Bytes) : Nat := getBe h 4 5

/-- A descriptor in a billet is superseded when a later billet of a higher session begins at or below its number (R73). -/
def supersededAt (bs : List RBillet) (num : Nat) (b : RBillet) : Bool :=
  bs.any (fun x => x.isData && b.serial < x.serial && b.hdr.session < x.hdr.session && x.hdr.first ≤ num
    && !(bs.any (fun y => y.isData && y.serial < x.serial && y.hdr.session = x.hdr.session)))

/-- The items of the held billets from where parsing began. -/
def ReadSide.items (rd : ReadSide) : List Item × Stop :=
  match entryFrom rd.billets (rd.parseNext.getD 0) with
  | none => ([], .waiting (rd.parseNext.getD 0))
  | some p => itemsFrom rd.billets (40 * rd.billets.length * 6490 + 1) p

/-- The descriptor of a record that is neither superseded nor stale. -/
def ReadSide.findDesc (rd : ReadSide) (num : Nat) : Option Item :=
  (rd.items.1.filter (fun i => i.type = 0x52 && itemRec i.head = num &&
    (match rd.billets.find? (fun b => b.cls = 0 && b.serial = i.place.1) with
      | some b => !supersededAt rd.billets num b
      | none => false))).getLast?

/-- An EOD block has been read: a complete billet of class EOD (R71). -/
def ReadSide.sawEod (rd : ReadSide) : Bool :=
  rd.billets.any (fun b => b.cls = 2 && decide (b.state = .complete) && getBe b.data 0 1 = 0xE0)

/-- A stale billet has been read (R73). -/
def ReadSide.sawStale (rd : ReadSide) : Bool := (dataBillets rd.billets).any (staleAt rd.billets)

/-- Reading has passed heat `h` of wrap `w` by the 511 heats that copies can lie behind (R97, R208). -/
def State.passed (s : State) (w h : Nat) : Bool := decide (w < s.heat.wrap) || (decide (w = s.heat.wrap) && decide (h + 511 ≤ s.rd.heatNow))

/-- EOD_BLANK heat positions have passed without an accepted frame (R214, R218). -/
def State.blankRun (s : State) : Bool := s.rd.lastFrame + s.paramN 0x07080600 ≤ s.rd.heatNow

/-! ## The billets of a record (Table 07-4) -/

/-- Data billets that hold a record whose descriptor lies in billet `d`: that billet and those after it while they are not
complete or still belong to the record (Table 02-7). -/
def recordBillets (bs : List RBillet) (num d : Nat) : List RBillet :=
  let ds := bs.filter (fun b => b.cls = 0 && !b.parity)
  ds.filter (fun b => b.serial = d) ++
    (ds.filter (fun b => d < b.serial)).takeWhile (fun b => b.state ≠ .complete || (b.hdr.first = num && 0 < b.hdr.used))

/-! ## Recovery report (R213) -/

/-- Frames counted against a billet in a list of heats and groups. -/
def countAt (l : List (Nat × Nat)) (b : RBillet) : Nat :=
  (l.filter (fun e => e = (heatKey b.wrap b.home, b.group))).length

/-- Highest step of Table 07-2 taken for a billet. -/
def RBillet.step (rd : ReadSide) (b : RBillet) : Nat :=
  max (if b.c2corr || b.state ≠ .complete then 2 else 1)
    (max (if b.c3built || b.state = .unrecovered then 3 else 1) (if 0 < countAt rd.capt b then 4 else 1))

/-- First undelivered CU of a job, 0xFFFF when all of the record asked for has been delivered. -/
def ReadJob.undelivered (j : ReadJob) : Nat := if j.parsed && j.delivered = j.count then 0xFFFF else j.first + j.delivered

/-- The 64-byte recovery report of a job at its completion (Table 07-4). -/
def reportBytes (s : State) (j : ReadJob) (outcome : Nat) : Bytes :=
  let bs := match j.desc with
    | some d => recordBillets s.rd.billets j.num d.1
    | none => []
  let un := (bs.filter (fun b => decide (b.state = .unrecovered))).length
  let step := max j.step (max (bs.foldl (fun m b => max m (b.step s.rd)) 1) (if 0 < j.attempts then 5 else 1))
  let step := if outcome = 3 then 6 else step
  let out := if outcome = 0 then (if 0 < j.attempts && 0 < bs.foldl (fun m b => max m b.attempt) 0 then 2 else if 1 < step then 1 else 0)
    else outcome
  leBytes 5 j.num ++ zeros 3 ++ [byte out, byte step, byte j.attempts, byte (bs.foldl (fun m b => max m b.attempt) 0)]
  ++ leBytes 2 j.cuCount ++ leBytes 2 j.delivered ++ leBytes 2 j.undelivered ++ leBytes 2 un ++ leBytes 4 bs.length
  ++ leBytes 4 (bs.filter (·.c2corr)).length ++ leBytes 4 (bs.filter (·.c3built)).length
  ++ leBytes 4 (bs.foldl (fun n b => n + countAt s.rd.fails b) 0) ++ leBytes 4 (bs.foldl (fun n b => n + b.slCopies) 0)
  ++ leBytes 2 (bs.foldl (fun n b => n + b.suspects) 0) ++ leBytes 2 (bs.foldl (fun n b => n + b.nconf) 0)
  ++ leBytes 2 j.offtrack ++ zeros 2 ++ j.pos.bytes

/-- Result of a RECORD READ (Table 11-2). -/
def ReadJob.result (j : ReadJob) : Nat := j.delivered + 2 ^ 16 * j.undelivered + 2 ^ 32 * j.partBytes

/-! ## Positioning (R142, R207, R214) -/

/-- Position RUNUP before an LPOS in mm of a wrap, for reading in the wrap's direction (R214). -/
def State.positionFor (w : Nat) (mm : Int) (s : State) : State :=
  let back := s.param 0x07080100
  let t := if w % 2 = 0 then mm - back else mm + back
  let s := s.applyParams .reread
  let s := { s with heat := { s.heat with wrap := w },
                    rd := { s.rd with reading := true, streaming := false, raStopped := false } }
  s.motionReq { kind := 1, dir := w % 2 = 1, target := t * 256000 }

/-- Start position of a locate to record `r`: wrap, heat, LPOS in mm, first serial if known (R214). -/
def LedgerImage.locateStart (m : LedgerImage) (r : Nat) : Nat × Nat × Int × Option Nat :=
  let lim := if m.sessionOpen then m.syncedLimit else m.recordLimit
  let synced := (m.syncedPos.wrap, m.syncedPos.heat, m.syncedPos.lpos, some m.syncedPos.serial)
  if lim ≤ r then synced
  else
    let best := (m.index.filter (fun e => e.2.1 ≤ r)).foldl (fun (a : Option (Nat × Nat × Nat)) e =>
      match a with
      | some b => if indexOrder b.1 < indexOrder e.1 then some e else some b
      | none => some e) none
    match best with
    | some (k, _, h) => (k / 65, h, heatLpos m.format (k / 65) h, none)
    | none => (0, 0, heatLpos m.format 0 0, some 0)

/-- Read-ahead emptied before a new position (R207). -/
def State.clearReadAhead (s : State) : State :=
  { s with rd := { s.rd with billets := [], raBytes := 0, c1q := [], captures := [], fails := [], capt := [], parseNext := none,
                             reread := none, lastFrame := 0 } }

/-- The motion of a locate begins (R214). -/
def State.startLocate (job : LocateJob) (s : State) : State :=
  let p := s.cart.image.locateStart job.num
  let s := s.clearReadAhead
  let s := { s with rd := { s.rd with locate := some job, nextHeat := heatKey p.1 p.2.1, heatNow := p.2.1, lastFrame := p.2.1,
                                      parseNext := p.2.2.2 } }
  s.positionFor p.1 p.2.2.1

/-- The end-of-data search begins at the synced position (R218). -/
def State.startSearch (s : State) : State :=
  let p := s.cart.image.syncedPos
  let s := s.clearReadAhead
  let s := { s with cart := { s.cart with searching := true },
                    rd := { s.rd with locate := none, nextHeat := heatKey p.wrap p.heat, heatNow := p.heat, lastFrame := p.heat, scanned := 0,
                                      parseNext := some p.serial } }
  s.positionFor p.wrap p.lpos

/-- Record `r` lies where the end-of-data search must come first (R216). -/
def State.searchFirst (r : Nat) (s : State) : Bool := s.cart.searchPending && decide (s.cart.image.syncedLimit ≤ r)

/-- Record `r` lies where the EOD block must be read first (R216). -/
def State.eodFirst (r : Nat) (s : State) : Bool :=
  !s.cart.searchPending && s.cart.image.eodValid && !s.cart.image.sessionOpen && !s.cart.eodChecked
    && decide (s.cart.image.recordLimit ≤ r)

/-- The tape goes to the EOD block of the image, to read it (R216). -/
def State.startEodCheck (s : State) : State :=
  if s.cart.eodChecking then s
  else
    let p := s.cart.image.eodPos
    ({ s with cart := { s.cart with eodChecking := true } }.clearReadAhead).positionFor p.wrap p.lpos

/-! ## End of a record read -/

/-- The report address is one that a report can go to: not zero, 64-byte aligned (R325, log 61). -/
def ReadJob.reports (j : ReadJob) : Bool := j.report ≠ 0 && j.report.toNat % 64 = 0

/-- The report, then the completion, of a read; it leaves the reads (R213, R278, R326). A read counts as a user of its key no
longer (R259). -/
def State.endRead (j : ReadJob) (st : BitVec 16) (outcome : Nat) (s : State) : State :=
  let s := if j.reports then s.emit (.dma j.report (reportBytes s j outcome)) else s
  let s := match j.key with
    | some (slot, gen) => s.releaseKey slot gen
    | none => s
  let s := { s with rd := { s.rd with jobs := s.rd.jobs.filter (fun x => !(x.pair = j.pair && x.tag = j.tag)) } }
  s.complete j.pair j.tag st (BitVec.ofNat 64 j.result) (BitVec.ofNat 32 j.rawLen)

/-- The reread ladder ends (R212). -/
def State.endLadder (s : State) : State := { s with rd := { s.rd with reread := none } }

/-- A command that is ended before its own outcome: a RECORD READ with its report, a LOCATE with its motion stopped where it is, a
SYNC taken from the waiting ones (R212, R316, Table 11-8, Table 11-9). -/
def State.endCmd (q tag : Nat) (st : BitVec 16) (s : State) : State :=
  let s := { s with recs := { s.recs with syncs := s.recs.syncs.filter (fun y => !(y.pair = q && y.tag = tag)) } }
  match s.rd.jobs.find? (fun j => j.pair = q && j.tag = tag) with
  | some j => (s.endLadder).endRead j st 6
  | none =>
    let s := match s.rd.locate with
      | some l => if l.cmd = some (q, tag) then
          { s with rd := { s.rd with locate := none, reading := false, streaming := false } }.stopTape else s
      | none => s
    s.complete q tag st 0 0

/-! ## What happens when billets become complete -/

/-- The tape position of a billet (Table 02-15). -/
def RBillet.tapePos (b : RBillet) : TapePos := { wrap := b.wrap, heat := b.home, lpos := b.lpos, serial := b.serial }

/-- A LOCATE ends with a status, naming the billet of its descriptor (Table 11-2); without the write flag or a command of its own
it only ends. -/
def State.endLocate (st : BitVec 16) (b : Option RBillet) (s : State) : State :=
  match s.rd.locate with
  | none => s
  | some l =>
    let s := { s with rd := { s.rd with locate := none } }
    match l.cmd with
    | none =>
      if st = Status.success then s
      else match s.rd.jobs with
        | [] => s
        | j :: _ => s.endRead j st (if st = Status.unrecoveredRecord then 3 else if st = Status.servoLost || st = Status.motionFault then 6 else 5)
    | some (q, tag) =>
      let res := match b with
        | some b => b.wrap + b.home * 256
        | none => 0
      let ext := match b with
        | some b => ofSigned 32 b.lpos
        | none => 0
      s.complete q tag st (BitVec.ofNat 64 res) (BitVec.ofNat 32 ext)

/-- The last heat that holds any frame copy of the train of a billet, among those read (R72). -/
def lastCopyOf (f : Nat) (bs : List RBillet) (b : RBillet) : Nat :=
  let mates : List RBillet := match trainAt f bs b with
    | some t => bs.filter (fun x => x.cls = 0 && x.wrap = b.wrap && t.first ≤ x.heatNo f && x.heatNo f < t.parity + 16)
    | none => bs.filter (fun x => x.cls = 0 && x.wrap = b.wrap && (trainAt f bs x).isNone)
  mates.foldl (fun m x => max m x.lastWritten) 0

/-- First serial after the train of a billet. -/
def serialAfterTrain (f : Nat) (bs : List RBillet) (b : RBillet) : Nat :=
  match trainAt f bs b with
  | some t => (t.parity + 16) * fmtGroups f
  | none => ((bs.filter (fun x => x.cls = 0 && x.wrap = b.wrap)).foldl (fun m x => max m (x.heatNo f)) 0 + 1) * fmtGroups f

/-- The splice position behind the train of a billet (R72): the splice heat is the heat after the last frame copy. -/
def spliceAfter (f : Nat) (bs : List RBillet) (b : RBillet) : TapePos :=
  let h := lastCopyOf f bs b + 1
  { wrap := b.wrap, heat := h, lpos := heatLpos f b.wrap h, serial := serialAfterTrain f bs b }

/-- The last data billet before an item position that holds item bytes: it holds the trailer before that item. -/
def billetBefore (bs : List RBillet) (p : ItemPos) : Option RBillet :=
  if 32 < p.2 then bs.find? (fun b => b.cls = 0 && b.serial = p.1)
  else ((dataBillets bs).filter (fun b => b.serial < p.1 && 0 < b.hdr.used)).getLast?

/-- The train before an item position has been read to the last heat that can hold a copy of it (R72, R208). -/
def State.trainRead (s : State) (b : RBillet) : Bool :=
  match trainAt s.fmt s.rd.billets b with
  | some t => s.passed b.wrap
      (((s.rd.billets.filter (fun x => x.cls = 0 && x.parity && x.wrap = b.wrap && t.parity ≤ x.heatNo s.fmt)).map (·.home)).foldl max 0)
  | none => false

/-- A locate goes as far as the billets read allow: found, absent, or still searching; an unrecovered billet ends it (R214, R323,
R324). -/
def State.advanceLocate (s : State) : State :=
  match s.rd.locate with
  | none => s
  | some l =>
    let items := s.rd.items
    let atEnd := s.rd.sawEod || s.rd.sawStale || s.blankRun
    match s.rd.findDesc l.num with
    | some i =>
      match s.rd.billets.find? (fun b => b.cls = 0 && b.serial = i.place.1) with
      | none => s
      | some b =>
        if !l.write then s.endLocate Status.success (some b)
        else
          match billetBefore s.rd.billets i.place with
          | none =>
            -- nothing lies before the record: it begins the cartridge
            let s := { s with recs := { s.recs with startSet := some l.num }, cart := { s.cart with startPos := some {} } }
            s.endLocate Status.success (some b)
          | some p =>
            if s.trainRead p || atEnd then
              let s := { s with recs := { s.recs with startSet := some l.num },
                                cart := { s.cart with startPos := some (spliceAfter s.fmt s.rd.billets p) } }
              s.endLocate Status.success (some b)
            else { s with rd := { s.rd with locate := some { l with found := some i.place } } }
    | none =>
      let past := items.1.any (fun i => i.type = 0x52 && decide (l.num < itemRec i.head))
      if past || atEnd then s.endLocate Status.recordAbsent none
      else match items.2 with
        | .waiting n =>
          if s.rd.billets.any (fun b => b.serial = n && b.cls = 0 && b.lost) then
            s.endLocate Status.unrecoveredRecord none
          else s
        | _ => s.endLocate Status.recordAbsent none

/-- While a read is queued the tape streams on from the first heat not yet read, read-ahead permitting (R207). -/
def State.streamOn (s : State) : State :=
  if s.rd.jobs = [] || s.rd.reading || s.forge.writing || s.rd.locate.isSome || s.rd.reread.isSome || s.cart.searching || s.cart.eodChecking
      || s.paramN 0x07080400 ≤ s.rd.raBytes then s
  else
    let w := s.rd.nextHeat / 2 ^ 24
    s.positionFor w (heatLpos s.fmt w (s.rd.nextHeat % 2 ^ 24))

/-- Queued reads get the tape when nothing writes: a search, a check of the EOD block, or a locate for the front read whose record
is not in read-ahead; a read at or beyond a valid record limit ends (R205, R214, R216, R322). -/
def pumpReadsN : Nat → State → State
  | 0, s => s
  | k + 1, s =>
    match s.rd.jobs with
    | [] => s
    | j :: _ =>
      if s.forge.writing || s.cart.searching || s.cart.eodChecking || s.rd.locate.isSome || j.desc.isSome then s
      else if s.searchFirst j.num then s.startSearch
      else if s.eodFirst j.num then s.startEodCheck
      else if s.cart.image.eodValid && decide (s.cart.image.recordLimit ≤ j.num) then
        pumpReadsN k (s.endRead j Status.endOfData 5)
      else match s.rd.findDesc j.num with
        | some i => { s with rd := { s.rd with jobs := s.rd.jobs.map (fun (x : ReadJob) =>
              if x.pair = j.pair && x.tag = j.tag then { x with desc := some i.place } else x) } }.streamOn
        | none => s.startLocate { num := j.num, write := false, cmd := none }

/-- Queued reads get the tape as far as they can now. -/
def State.pumpReads (s : State) : State := pumpReadsN (s.rd.jobs.length + 1) s

end Sys2Proof.Machine
end

