-- ==== Sys2Proof/Machine/Queue.lean ====
section
/-! DEFINITION. Doorbells, the event queue's configuration, the fetch arbiter, the range-lock table, deletion of a pair
(R280 to R293, R305, R309, R310, R329, Table 11-9). -/

namespace Sys2Proof.Machine

/-! ## Doorbells (R281, R284, R286) -/

/-- Difference of two ring indices. -/
def ringDiff (n a b : Nat) : Nat := (a + n - b) % n

/-- Entries that the SQ of a pair holds and nobody has fetched. -/
def Pair.unfetched (p : Pair) : Nat := ringDiff (2 ^ p.sqLog) p.sqTail p.sqFetch

/-- A new SQ tail may be taken: in range, upper bits zero, no more entries than are free, one staying empty (R281, R283, R286). -/
def Pair.tailOk (p : Pair) (v : Nat) : Bool :=
  let n := 2 ^ p.sqLog
  decide (v < n) && p.unfetched + ringDiff n v p.sqTail ≤ n - 1

/-- A new CQ head may be taken: it does not pass the CQ tail (R286). -/
def Pair.headOk (p : Pair) (v : Nat) : Bool :=
  let n := 2 ^ p.cqLog
  decide (v < n) && ringDiff n v p.cqHead ≤ ringDiff n p.cqTail p.cqHead

/-- SQ tail doorbell (R281, R286). A doorbell of a data pair is a wake event in P2 and P3, in an entry as well (R357, R358). -/
def execSqTailDoorbell (q : Fin 256) (v : BitVec 32) (s : State) : Host.Outcome State Fault Refusal :=
  let s := s.linkIn
  .next (match s.pair? q with
  | none => s.doorbellInvalid q v.toNat
  | some p =>
    if p.tailOk v.toNat then
      let s := s.modPair q (fun p => { p with sqTail := v.toNat, awaitDoorbell := false })
      if p.motion then s
      else if s.pwr.state.toNat ≥ 2 || (s.pwr.entering.any (fun t => 2 ≤ t.toNat)) then s.wake else s
    else s.doorbellInvalid q v.toNat)

/-- CQ head doorbell (R284, R285, R286): entries are freed, a signal still pending is cancelled when the head reaches the tail, held
motion requests are posted on the motion pair (R295). -/
def execCqHeadDoorbell (q : Fin 256) (v : BitVec 32) (s : State) : Host.Outcome State Fault Refusal :=
  let s := s.linkIn
  .next (match s.pair? q with
  | none => s.doorbellInvalid q v.toNat
  | some p =>
    if p.headOk v.toNat then
      let s := s.modPair q (fun p => { p with cqHead := v.toNat, unsignalled := if v.toNat = p.cqTail then 0 else p.unsignalled })
      let s := if v.toNat = p.cqTail then s.cancelSignal q else s
      if p.motion then s.drainMotion else s
    else s.doorbellInvalid q v.toNat)

/-- Event-queue head doorbell (R281, R286, R293). -/
def execEvqHeadDoorbell (v : BitVec 32) (s : State) : Host.Outcome State Fault Refusal :=
  let s := s.linkIn
  let e := s.evq
  .next (
    if v.toNat < e.size && ringDiff e.size v.toNat e.head ≤ ringDiff e.size e.tail e.head then
      let s := { s with evq := { e with head := v.toNat } }
      let s := if v.toNat = e.tail && !s.glob.mbSignal then s.cancelSignal 256 else s
      s.drainEvents
    else s.doorbellInvalid 0x100 v.toNat)

/-- EVQ_CONFIG (R293): ignored and counted with enable before a base or a size outside 6 to 16; a change of size while enabled is
ignored; enabling begins the ring anew (log 22); writing enable 0 clears EVQ_ERROR. -/
def execEvqConfigWrite (v : BitVec 32) (s : State) : Host.Outcome State Fault Refusal :=
  let s := s.linkIn
  let en := v.getLsbD 31
  let sz := v.toNat % 32
  .next (
    if (en && !s.evq.baseWritten) || sz < 6 || 16 < sz then s.countError
    else
      let e := s.evq
      let e := if e.enable then e else { e with log2 := BitVec.ofNat 5 sz }
      let e := if en && !e.enable then { e with head := 0, tail := 0, phase := true } else e
      let e := { e with enable := en, error := e.error && en }
      { s with evq := e }.drainEvents)

/-! ## The range-lock table (R309, R310) -/

/-- Two entries conflict: same record, overlapping ranges, not both reads (R309). -/
def Lock.conflicts (a b : Lock) : Bool :=
  a.num = b.num && a.lo < b.hi && b.lo < a.hi && (a.write || b.write)

/-- Transfer length of a fetched command: data length, or the sum of its scatter list (R289). -/
def Cmd.xferLen (c : Cmd) : Nat :=
  if bitAt (getLe c.entry 1 1) 0 then c.sgl.foldl (fun n e => n + e.len.toNat) 0 else getLe c.entry 24 4

/-- Record number field. -/
def Cmd.num (c : Cmd) : Nat := getLe c.entry 8 8

/-- The lock entry a command takes at its arrival, where it names an OPEN record (R309). -/
def Cmd.lockFor (c : Cmd) (s : State) : Option Lock :=
  match s.rec? c.num with
  | some r =>
    if r.state ≠ .opened then none
    else
      let off := getLe c.entry 28 4
      match c.op with
      | 0x02 => some { num := c.num, lo := off, hi := off + c.xferLen, write := true }
      | 0x03 => some { num := c.num, lo := off, hi := off + c.xferLen, write := false }
      | 0x04 => some { num := c.num, lo := 0, hi := 2 ^ 33, write := true }
      | 0x05 => some { num := c.num, lo := 0, hi := 2 ^ 33, write := true }
      | _ => none
  | none => none

/-- Nothing earlier holds a command back: no overlapping earlier lock entry, with a fence no earlier command of its SQ, and outside
P1 for any command but QUERY (R288, R309, R357). -/
def State.admissible (c : Cmd) (s : State) : Bool :=
  (match c.lock with
    | some l => s.recs.cmds.all (fun d => !(d.arrival < c.arrival && (match d.lock with
        | some m => m.conflicts l
        | none => false)))
    | none => true)
  && (!c.fence || s.recs.cmds.all (fun d => !(d.pair = c.pair && d.arrival < c.arrival)))

/-- Lock admission of a waiting command (R309). -/
def execLockAdmission (q : Fin 256) (tag : BitVec 16) (s : State) : Host.Outcome State Fault Refusal :=
  .next (match s.cmd? q tag.toNat with
  | none => s
  | some c => if s.admissible c then s.modCmd q tag.toNat (fun c => { c with admitted := true }) else s)

/-! ## ABORT's decision at its arrival (R329) -/

/-- An OPEN or MARK that has no number yet because the end-of-data check or search comes first (R216). -/
def State.numberWaits (s : State) : Bool :=
  s.cart.searchPending || (s.cart.image.eodValid && !s.cart.eodChecked && !s.cart.blank)

/-- The target is in a stage in which Table 11-8 lets it be caught. -/
def State.catchable (c : Cmd) (s : State) : Bool :=
  match c.op with
  | 0x01 => !c.admitted || s.numberWaits
  | 0x09 => !c.admitted || s.numberWaits
  | 0x04 => !c.admitted
  | 0x05 => !c.admitted
  | 0x0B => false
  | _ => true

/-- ABORT's one look at its target, at its arrival: a caught target ends at once, one that is not caught is waited for (R329). -/
def State.decideAbort (c : Cmd) (s : State) : State :=
  let t := getLe c.entry 28 4 % 65536
  match s.cmd? c.pair t with
  | none => s
  | some d =>
    if d.arrival = c.arrival then s
    else if s.catchable d then
      (s.endCmd c.pair t Status.abortedByRequest).modCmd c.pair c.tag (fun c => { c with caughtTarget := true })
    else if d.op = 0x0B then s
    else s.modCmd c.pair c.tag (fun c => { c with target := some d.arrival })

/-! ## Fetch (R282, R284, R287, R288, R291, R292) -/

/-- Outstanding commands of a pair. -/
def State.owed (s : State) (q : Nat) : Nat := (s.recs.cmds.filter (fun c => c.pair = q)).length

/-- A fenced command of the pair waits for its earlier commands (R288). -/
def State.fenced (s : State) (q : Nat) : Bool := s.recs.cmds.any (fun c => c.pair = q && c.fence && !c.admitted)

/-- A pair is eligible for a grant (R284, R288, R291, R292, R444). -/
def State.eligible (s : State) (q : Nat) : Bool :=
  match s.pair? q with
  | none => false
  | some p => !p.motion && !p.error && !p.awaitDoorbell && 0 < p.unfetched && s.owed q < p.cqFree && !s.fenced q
      && !s.recs.cmds.any (fun c => c.pair = q && c.inDoubt)
      && s.recs.cmds.length < 16384 && s.fetchRuns

/-- Pairs of a class that are eligible, ascending. -/
def State.eligibleOf (s : State) (urgent : Bool) : List Nat :=
  (List.range 256).filter (fun q => s.eligible q && (match s.pair? q with
    | some p => p.urgent = urgent
    | none => false))

/-- The next of a list of pair numbers after the last one, ascending and around (R292). -/
def nextAfter (l : List Nat) (last : Option Nat) : Option Nat :=
  match last with
  | none => l.head?
  | some k => match l.find? (fun q => k < q) with
    | some q => some q
    | none => l.head?

/-- The pair the arbiter grants, and the arbiter after it (R292). -/
def State.choose (s : State) : Option (Nat × Arbiter) :=
  let u := s.eligibleOf true
  let n := s.eligibleOf false
  let a := s.arb
  if u ≠ [] && (a.urgentRun < 8 || n = []) then
    (nextAfter u a.lastUrgent).map (fun q => (q, { a with lastUrgent := some q, urgentRun := a.urgentRun + 1 }))
  else
    let weight := fun (q : Nat) => match s.pair? q with
      | some p => p.weight
      | none => 1
    match a.rrPair with
    | some k =>
      if 0 < a.rrLeft && n.contains k then some (k, { a with rrLeft := a.rrLeft - 1, urgentRun := 0 })
      else (nextAfter n (some k)).map (fun q => (q, { a with rrPair := some q, rrLeft := weight q - 1, urgentRun := 0 }))
    | none => n.head?.map (fun q => (q, { a with rrPair := some q, rrLeft := weight q - 1, urgentRun := 0 }))

/-- Bytes of an SQ entry (Table 10-9). -/
def Pair.sqEntryBytes (p : Pair) : Nat := if p.motion then 32 else if p.rev = 3 then 128 else 64

/-- SQ fetch position moved past one entry (R282). -/
def Pair.advanceSq (p : Pair) : Pair := { p with sqFetch := (p.sqFetch + 1) % 2 ^ p.sqLog }

/-- The highest record number SEALED, m of a SYNC (R316). -/
def State.highestSealed (s : State) : Option Nat :=
  ((s.recs.recs.filter (fun r => r.state = .sealed || r.state = .written || r.state = .synced)).map (·.num)).getLast?

/-- The command of a fetched entry (Tables 10-9, 10-10). -/
def cmdOf (q n : Nat) (e : Bytes) (sgl : List SglEntry) (sglOk : Bool) : Cmd :=
  { pair := q, tag := getLe e 2 2, op := getLe e 0 1, entry := e, arrival := n, sgl := sgl, sglOk := sglOk, fence := bitAt (getLe e 1 1) 1 }

/-- A fetched command joins the outstanding ones, with its lock entry and what SYNC and ABORT fix at their arrival (R309, R316, R329). -/
def State.joinCmd (c : Cmd) (s : State) : State :=
  let c := { c with lock := c.lockFor s, syncM := if c.op = 0x06 then s.highestSealed else none }
  let c := { c with admitted := s.admissible c }
  { s with recs := { s.recs with cmds := s.recs.cmds ++ [c] } }

/-- A fetched entry takes its place: its arrival number, journal entries, TAG IN USE and INVALID OPCODE at once, its lock entry,
what SYNC and ABORT fix at their arrival (R292, R309, R316, R329, R449, R480). -/
def State.arrive (q : Nat) (p : Pair) (bytes : Bytes) (sgl : List SglEntry) (sglOk : Bool) (s : State) : State :=
  let e := fit p.sqEntryBytes bytes
  let n := s.arb.nextGrant
  let s := { s with arb := { s.arb with nextGrant := n + 1 } }.modPair q Pair.advanceSq
  let s := (s.journal 0x03 q e).order 1 (leBytes 8 n ++ leBytes 2 q)
  let s := s.mirror (.entry q n e)
  let c := cmdOf q n e sgl sglOk
  let ctx := BitVec.ofNat 32 (getLe e 4 4)
  if (s.cmd? q c.tag).isSome then s.writeEntry q c.tag ctx Status.tagInUse 0 0 false
  else if c.op = 0 || 0x0B < c.op then s.writeEntry q c.tag ctx Status.invalidOpcode 0 0 false
  else
    let s := s.joinCmd c
    let s := if c.op = 0x0B then s.decideAbort c else s
    -- in P1 a fetched command other than QUERY is a wake event (R357)
    if c.op ≠ 0x0A && (s.pwr.state = 1 || s.pwr.entering = some 1) then s.wake else s

/-- One grant of the fetch arbiter; a failed host-memory read puts the pair into the error state and takes no place in the arrival
order (R291, R292). -/
def execFetchGrant (f : FetchIo) (s : State) : Host.Outcome State Fault Refusal :=
  .next (match s.choose with
  | none => s
  | some (q, a) =>
    match s.pair? q with
    | none => s
    | some p =>
      match f with
      | .readFailed => (s.modPair q (fun p => { p with error := true })).event 0x0501 q 0
      | .entry b l ok => { s with arb := a }.arrive q p b l ok)

/-- The coalescing time of a pair's oldest unsignalled completion has passed (R285). -/
def execCoalescingTimeExpiry (q : Fin 256) (s : State) : Host.Outcome State Fault Refusal :=
  .next (match s.pair? q with
  | none => s
  | some p =>
    if p.motion || p.unsignalled = 0 then s
    else (s.modPair q (fun p => { p with unsignalled := 0 })).signal q)

/-! ## Deletion of a pair (R280, R330) -/

/-- Outstanding commands of a list complete with ABORTED, QUEUE DELETED, and leave in any case. -/
def abortCmds (st : BitVec 16) : List Cmd → State → State
  | [], s => s
  | c :: r, s =>
    abortCmds st r (s.endCmd c.pair c.tag st)

/-- OPEN records of a list become ABANDONED (Table 11-9). -/
def abandonRecs : List Rec → State → State
  | [], s => s
  | x :: r, s => abandonRecs r ((s.endRec x.num .abandoned).mirror (.abandon x.num))

/-- What deletion of pair `q` does before it completes: its commands and those of other pairs on its OPEN records complete with
ABORTED, QUEUE DELETED, its OPEN records become ABANDONED, the pair is gone (R280, Table 11-9). -/
def State.deletePair (q : Nat) (s : State) : State :=
  let mine := (s.recsIn .opened).filter (fun r => r.pair = q)
  let s := abortCmds Status.abortedQueueDeleted (s.recs.cmds.filter (fun c => c.pair = q)) s
  let s := abortCmds Status.abortedQueueDeleted (s.recs.cmds.filter (fun c => (match c.lock with
    | some l => mine.any (fun r => r.num = l.num)
    | none => false))) s
  let s := abandonRecs mine s
  { s with pairs := modAt s.pairs q (fun _ => none),
           recs := { s.recs with cmds := s.recs.cmds.filter (fun c => c.pair ≠ q) } }

end Sys2Proof.Machine
end

