-- ==== Sys2Proof/Machine/Record.lean ====
section
/-! DEFINITION. The record commands (R302 to R329, R373, R480). Every one runs for an outstanding, admitted command of its pair and
tag; another arrival of the row changes nothing (log 3). -/

namespace Sys2Proof.Machine

/-! ## Fields of an entry (Tables 10-10, 11-2) -/

def Cmd.dwA (c : Cmd) : Nat := getLe c.entry 28 4
def Cmd.dwB (c : Cmd) : Nat := getLe c.entry 40 4
def Cmd.addr (c : Cmd) : Nat := getLe c.entry 16 8
def Cmd.len (c : Cmd) : Nat := getLe c.entry 24 4
def Cmd.report (c : Cmd) : Nat := getLe c.entry 32 8
def Cmd.digest (c : Cmd) : Nat := getLe c.entry 72 8
def Cmd.flags (c : Cmd) : Nat := getLe c.entry 1 1
def Cmd.isSgl (c : Cmd) : Bool := bitAt c.flags 0

/-- Commands that carry data (Table 11-2). -/
def Cmd.carries (c : Cmd) : Bool := c.op = 0x02 || c.op = 0x03 || c.op = 0x08 || c.op = 0x0A

/-- Reserved fields of an entry are zero (R16, R287, R302): flags, record number, data fields, dwords, addresses. -/
def Cmd.reservedOk (c : Cmd) (rev : Nat) : Bool :=
  decide (c.flags < 4) && (!c.isSgl || (c.carries && rev ≠ 1))
  && (rev ≠ 1 || getLe c.entry 4 4 = 0)
  && decide (c.num < 2 ^ 40)
  && (!(c.op = 0x01 || c.op = 0x06 || c.op = 0x09 || c.op = 0x0B) || c.num = 0)
  && (c.carries || (c.addr = 0 && c.len = 0))
  && (match c.op with
      | 0x01 => decide (c.dwA < 2 ^ 16)
      | 0x02 => true
      | 0x03 => true
      | 0x04 => true
      | 0x07 => decide (c.dwA < 2)
      | 0x08 => decide (c.dwA < 2 ^ 17) && !bitAt c.dwA 14 && !bitAt c.dwA 15
      | 0x0B => decide (c.dwA < 2 ^ 16)
      | _ => c.dwA = 0)
  && (if c.op = 0x08 then decide (c.dwB < 2 ^ 15) else c.dwB = 0)
  && (c.op = 0x08 || c.report = 0)
  && getLe c.entry 44 20 = 0
  && (rev ≠ 3 || ((c.op = 0x04 || c.digest = 0) && getLe c.entry 80 48 = 0))
  && c.sgl.all (fun e => e.zero = 0)

/-- Encodings and ranges of an entry's fields (R289, R302, R304, R306, R325, R328). -/
def Cmd.rangeOk (c : Cmd) : Bool :=
  (!c.isSgl || (1 ≤ c.len && c.len ≤ 4096 && c.addr % 16 = 0 && c.sgl.all (fun e => e.len ≠ 0)))
  && (match c.op with
      | 0x01 => (c.dwA % 256 = 0 || cmpSetting (c.dwA % 256)) && (bitAt c.dwA 14 || bitsOf c.dwA 8 6 = 0)
      | 0x02 => c.isSgl || 1 ≤ c.len
      | 0x03 => c.isSgl || 1 ≤ c.len
      | 0x04 => c.digest % 16 = 0
      | 0x0A => c.isSgl && !c.sglOk || 64 ≤ c.xferLen
      | _ => true)

/-- Commands that need a loaded cartridge with an accepted image (R303). -/
def needsCartridge (op : Nat) : Bool :=
  op = 0x01 || op = 0x04 || op = 0x09 || op = 0x06 || op = 0x07 || op = 0x08

/-- Commands rejected while FA_ENABLE is 0 (R303). -/
def needsServo (op : Nat) : Bool := op = 0x04 || op = 0x09 || op = 0x06 || op = 0x07 || op = 0x08

/-- OPEN and MARK lack C1 encoders, C1 decoder cores or a head port (Table 15-1, R420, R430). -/
def State.lacksUnits (s : State) : Bool :=
  s.unitsIn 2 18 < 16 || s.unitsIn 1 52 < 18 || (List.range 16).any (s.isQuarantined 7)

/-- The common checks of R480, steps 3 to 6; none when all pass. -/
def State.commonCheck (s : State) (c : Cmd) (rev : Nat) : Option (BitVec 16) :=
  if !c.reservedOk rev || !c.rangeOk then some Status.invalidField
  else if s.sec.state = .error then some Status.selfTestFailed
  else if needsCartridge c.op && !s.cart.loaded then some Status.noCartridge
  else if needsServo c.op && s.param 0x06050800 = 0 then some Status.servoNotReady
  else if c.op = 0x01 || c.op = 0x09 then
    if s.fmt = 2 then some Status.formatNotWritable
    else if s.sessionExhausted then some Status.sessionExhausted
    else if s.tongs.calFailed && s.fmt ≠ 4 then some Status.calibrationDegraded
    else if s.lacksUnits then some Status.sequenceError
    else none
  else none

/-- R305: the record is OPEN to the pair; a SEGMENT WRITE to a SEALED record has its own status. -/
def State.recCheck (s : State) (c : Cmd) : Option (BitVec 16) :=
  match s.rec? c.num with
  | some r =>
    if c.op = 0x02 && r.state = .sealed then some Status.recordSealed
    else if r.state = .opened && (r.shared || r.pair = c.pair) then none
    else some Status.invalidRecord
  | none => some Status.invalidRecord

/-- A row of the record commands: the outstanding, admitted command of opcode `op`, what host memory reports, the common checks of
R480, then the command's own rule. -/
def recCmd (op : Nat) (q : Fin 256) (tag : BitVec 16) (io : Io) (f : Cmd → State → State) (s : State) : State :=
  match s.cmd? q tag.toNat, s.pair? q with
  | some c, some p =>
    -- held while the security self-tests run again (R270)
    let held := s.sec.state = .selfTest && (op = 0x08 || (op = 0x01 && bitAt (getLe c.entry 28 4) 14))
    if c.op = op && c.admitted && !p.error && !held then
      let s := s.withPairIo q io
      match s.commonCheck c p.rev with
      | some st =>
        let s := if st = Status.sessionExhausted then s.refuseWrites else s
        s.complete q tag.toNat st 0 0
      | none => f c s
    else s
  | _, _ => s

/-- Completion of command `c`. -/
def Cmd.end (c : Cmd) (st : BitVec 16) (res ext : Nat) (s : State) : State :=
  s.complete c.pair c.tag st (BitVec.ofNat 64 res) (BitVec.ofNat 32 ext)

/-- Bytes written to host memory from a command's destination on, through its scatter list where it has one (R289). -/
def scatter : List SglEntry → Bytes → State → State
  | [], _, s => s
  | e :: r, b, s => if b = [] then s else scatter r (b.drop e.len.toNat) (s.emit (.dma e.addr (b.take e.len.toNat)))

def Cmd.deliver (c : Cmd) (b : Bytes) (s : State) : State :=
  if c.isSgl then scatter c.sgl b s else s.emit (.dma (BitVec.ofNat 64 c.addr) b)

/-! ## OPEN (R304) -/

/-- The formatter's number for a new record, used up; a session begins first where the next write needs one (R253, R298, R324). -/
def State.takeNumber (s : State) : State :=
  let s := if s.needsSession then s.beginSession else s
  { s with recs := { s.recs with next := s.nextNumber + 1, startSet := none } }

/-- OPEN waits while the end of data is still to be checked or searched (R216, R298). The search or check starts. -/
def State.seekEnd (s : State) : State :=
  if s.rd.jobs ≠ [] || s.rd.locate.isSome || s.forge.writing || s.cart.searching then s
  else if s.cart.searchPending then s.startSearch
  else s.startEodCheck

/-- An OPEN or MARK that arrived earlier has no number yet: numbers go out in order of arrival (R298). -/
def State.numberTurn (s : State) (c : Cmd) : Bool :=
  !s.recs.cmds.any (fun d => (d.op = 0x01 || d.op = 0x09) && d.arrival < c.arrival && !s.pairError d.pair)

def openBody (c : Cmd) (s : State) : State :=
  let enc := bitAt c.dwA 14
  let slot := bitsOf c.dwA 8 6
  let k := (s.sec.slots[slot]?).getD {}
  if !s.numberTurn c then s
  else if s.numberWaits then s.seekEnd
  else if enc && k.cur.isNone then c.end Status.keyNotAvailable 0 0 s
  else if enc && k.erasing ≠ [] then c.end Status.keyErasing 0 0 s
  else if !enc && !s.sec.allowPlain then c.end Status.plaintextRefused 0 0 s
  else if 4096 ≤ (s.recsIn .opened).length then c.end Status.openLimit 0 0 s
  else if s.capacity < 4 * gib then c.end Status.cartridgeFull 0 0 s
  else
    let n := s.nextNumber
    let s := s.takeNumber
    let setting := if c.dwA % 256 = 0 then s.paramN 0x08050100 else c.dwA % 256
    let gen := if enc then (k.cur.map (·.gen)).getD 0 else 0
    let r : Rec := { num := n, state := .opened, pair := c.pair, shared := bitAt c.dwA 15, encrypted := enc, slot := slot, gen := gen,
                     label := if enc then (k.cur.map (·.label)).getD (zeros 8) else zeros 8,
                     setting := BitVec.ofNat 8 setting, openTime := s.nowSec }
    let s := s.addRec r
    let s := if enc then s.useKey slot gen else s
    let s := s.mirror (.opened n c.pair slot enc r.shared r.setting r.openTime)
    c.end Status.success n gen.toNat s

/-- OPEN (R304). -/
def execOpenRec (q : Fin 256) (tag : BitVec 16) (io : Io) (s : State) : Host.Outcome State Fault Refusal :=
  .next (recCmd 0x01 q tag io openBody s)

/-! ## SEGMENT WRITE and SEGMENT READ (R306 to R308, R373) -/

/-- A range put into disjoint ascending extents, merged with those it touches (R306). -/
def addExtent (lo hi : Nat) : List (Nat × Nat) → List (Nat × Nat)
  | [] => [(lo, hi)]
  | (a, b) :: r =>
    if hi < a then (lo, hi) :: (a, b) :: r
    else if b < lo then (a, b) :: addExtent lo hi r
    else addExtent (min a lo) (max b hi) r

/-- A range taken out of the extents (R307). -/
def dropExtent (lo hi : Nat) (l : List (Nat × Nat)) : List (Nat × Nat) :=
  l.flatMap (fun e => [(e.1, min e.2 lo), (max e.1 hi, e.2)].filter (fun x => x.1 < x.2))

/-- A range lies inside the extents. -/
def inExtents (lo hi : Nat) (l : List (Nat × Nat)) : Bool := l.any (fun e => e.1 ≤ lo && hi ≤ e.2)

/-- Chunk indices of a record that a range needs and the staging map lacks (R372). -/
def Hearth.lacking (h : Hearth) (chunks : List (Nat × Nat)) (lo hi : Nat) : List Nat :=
  ((List.range (hi / h.G + 1)).filter (fun i => lo / h.G ≤ i && i * h.G < hi)).filter (fun i => (assocGet chunks i).isNone)

/-- The chunks a write needs may be taken now: the lowest OPEN record draws on its reserve, others wait behind earlier writes and
leave the reserve (R301, R373). -/
def State.mayAllocate (s : State) (c : Cmd) (need : Nat) : Bool :=
  if need = 0 then true
  else
    let h := s.hearth
    let low := s.lowestOpen
    let held := match low with
      | some n => ((s.rec? n).map (fun r => r.chunks.length * h.G)).getD 0
      | none => 4 * gib
    if low = some c.num then need * h.G ≤ h.freeBytes
    else !(s.recs.cmds.any (fun d => d.waitChunks && d.arrival < c.arrival)) && need * h.G + (4 * gib - held) ≤ h.freeBytes

/-- Free chunks given to a record, one for each index. -/
def allocate (r : Nat) : List Nat → State → State
  | [], s => s
  | i :: rest, s =>
    match s.hearth.freeChunk with
    | none => s
    | some k =>
      let s := { s with hearth := { s.hearth with used := k :: s.hearth.used } }
      allocate r rest (s.modRec r (fun x => { x with chunks := x.chunks ++ [(i, k)] }))

/-- Hearth addresses of the 64-byte bursts that a range of a record covers, with whether the range covers all of the burst. -/
def Hearth.bursts (h : Hearth) (chunks : List (Nat × Nat)) (lo hi : Nat) : List (Nat × Bool) :=
  ((List.range (hi / 64 + 1)).filter (fun i => lo / 64 ≤ i && 64 * i < hi)).filterMap (fun i =>
    (assocGet chunks (64 * i / h.G)).map (fun k => (k * h.G + 64 * i % h.G, lo ≤ 64 * i && 64 * i + 64 ≤ hi)))

/-- The first burst of a list that is uncorrectable or lies in a hole: a bus error to the requester (R370, R394). -/
def Hearth.busError (h : Hearth) (l : List Nat) : Option Nat :=
  l.find? (fun a => h.bad.contains (a / 64) || (h.place a).isNone)

/-- An uncorrectable burst met by a requester: HEARTH_UNCORRECTABLE with address and requester (R394). -/
def State.uncorrectable (a requester : Nat) (s : State) : State := s.event 0x0402 a requester

/-- The transfer of an admitted SEGMENT WRITE that has its chunks (R306, R307, R394). -/
def segWriteData (c : Cmd) (io : Io) (s : State) : State :=
  let off := c.dwA
  let n := c.xferLen
  let r := c.num
  match s.rec? r with
  | none => s
  | some x =>
    let lack := s.hearth.lacking x.chunks off (off + n)
    let s := (allocate r lack s).modCmd c.pair c.tag (fun c => { c with waitChunks := false })
    let chunks := ((s.rec? r).map (·.chunks)).getD []
    let bursts := s.hearth.bursts chunks off (off + n)
    -- a burst only partly covered is read and modified; a whole-burst write replaces an uncorrectable one (R394)
    let hurt := s.hearth.busError ((bursts.filter (fun b => !b.2 || (s.hearth.place b.1).isNone)).map Prod.fst)
    let spoil := fun (st : BitVec 16) (s : State) =>
      c.end st 0 0 (s.modRec r (fun x => { x with extents := dropExtent off (off + n) x.extents }))
    if !io.ok || !c.sglOk then spoil Status.dataTransferError s
    else match hurt with
      | some a => spoil Status.bufferError (s.uncorrectable a 0x03)
      | none =>
        let data := fit n io.data
        let whole := (bursts.filter (·.2)).map (fun b => b.1 / 64)
        let h := { s.hearth with bad := s.hearth.bad.filter (fun b => !whole.contains b) }
        let s := { s with hearth := h.stageWrite chunks off data }
        let ext := addExtent off (off + n) x.extents
        let s := s.modRec r (fun x => { x with extents := ext })
        let s := (s.dmaDigests c.pair c.tag data).mirror (.payload r off data)
        c.end Status.success n ext.length s

def segWriteBody (io : Io) (c : Cmd) (s : State) : State :=
  match s.recCheck c with
  | some st => c.end st 0 0 s
  | none =>
    match s.rec? c.num with
    | none => s
    | some x =>
      let off := c.dwA
      let n := c.xferLen
      if 4294967280 < off + n then c.end Status.recordTooLarge 0 0 s
      else if 256 < (addExtent off (off + n) x.extents).length then c.end Status.sequenceError 0 0 s
      else if s.mayAllocate c (s.hearth.lacking x.chunks off (off + n)).length then segWriteData c io s
      else s.modCmd c.pair c.tag (fun c => { c with waitChunks := true })

/-- SEGMENT WRITE (R306). Without free chunks it waits, keeping its lock (R373). -/
def execSegmentWrite (q : Fin 256) (tag : BitVec 16) (io : Io) (s : State) : Host.Outcome State Fault Refusal :=
  .next (recCmd 0x02 q tag io (segWriteBody io) s)

/-- The waiting write that is served next: one of the lowest OPEN record, else the earliest (R373). -/
def State.nextWaiting (s : State) : Option Cmd :=
  let w := s.recs.cmds.filter (fun c => c.waitChunks)
  match w.find? (fun c => some c.num = s.lowestOpen) with
  | some c => some c
  | none => w.head?

/-- A waiting SEGMENT WRITE proceeds when chunks have become free (R373). -/
def execStagingChunkGrant (io : Io) (s : State) : Host.Outcome State Fault Refusal :=
  .next (match s.nextWaiting with
  | none => s
  | some c => segWriteBody io c (s.withPairIo c.pair io))

def segReadBody (io : Io) (c : Cmd) (s : State) : State :=
  match s.recCheck c with
  | some st => c.end st 0 0 s
  | none =>
    match s.rec? c.num with
    | none => s
    | some x =>
      let off := c.dwA
      let n := c.xferLen
      if !c.sglOk then c.end Status.dataTransferError 0 0 s
      else if !inExtents off (off + n) x.extents then c.end Status.sequenceError 0 0 s
      else match s.hearth.busError ((s.hearth.bursts x.chunks off (off + n)).map Prod.fst) with
        | some a => c.end Status.bufferError 0 0 (s.uncorrectable a 0x04)
        | none =>
          if io.ok then c.end Status.success n 0 (c.deliver (s.hearth.stageRead x.chunks off n) s)
          else c.end Status.dataTransferError 0 0 s

/-- SEGMENT READ (R308). -/
def execSegmentRead (q : Fin 256) (tag : BitVec 16) (io : Io) (s : State) : Host.Outcome State Fault Refusal :=
  .next (recCmd 0x03 q tag io (segReadBody io) s)

/-! ## SEAL, ABANDON, MARK (R311 to R314) -/

/-- Writing starts where it can; a pending end-of-data search comes first (R216). -/
def State.beginWriting (s : State) : State :=
  if s.tapeFree && s.formable && s.cart.searchPending then s.startSearch else s.startWriting

/-- A record joins the seal queue and writing starts where it can (R114, R299, R311). -/
def State.sealRec (r : Nat) (s : State) : State :=
  let s := { s with recs := { s.recs with sealQ := insertSeal (.record r) s.recs.sealQ } }
  (s.beginWriting).checkLevel

def sealBody (c : Cmd) (s : State) : State :=
  match s.recCheck c with
  | some st => c.end st 0 0 s
  | none =>
    match s.rec? c.num with
    | none => s
    | some x =>
      let len := c.dwA
      if x.extents ≠ (if len = 0 then [] else [(0, len)]) then c.end Status.sequenceError 0 0 s
      else if s.capacity < recBound len then c.end Status.cartridgeFull 0 0 s
      else
        let dig := match s.pair? c.pair with
          | some p => if p.rev = 3 then BitVec.ofNat 64 c.digest else 0
          | none => 0
        let s := s.modRec c.num (fun x => { x with state := .sealed, len := len, digestAddr := dig })
        let s := s.mirror (.sealed c.num len)
        c.end Status.success (cuCount len) 0 (s.sealRec c.num)

/-- SEAL (R311, R312). -/
def execSeal (q : Fin 256) (tag : BitVec 16) (io : Io) (s : State) : Host.Outcome State Fault Refusal :=
  .next (recCmd 0x04 q tag io sealBody s)

def abandonBody (c : Cmd) (s : State) : State :=
  match s.recCheck c with
  | some st => c.end st 0 0 s
  | none =>
    let s := (s.endRec c.num .abandoned).mirror (.abandon c.num)
    c.end Status.success 0 0 s.beginWriting

/-- ABANDON (R314). -/
def execAbandon (q : Fin 256) (tag : BitVec 16) (io : Io) (s : State) : Host.Outcome State Fault Refusal :=
  .next (recCmd 0x05 q tag io abandonBody s)

def markBody (c : Cmd) (s : State) : State :=
  if !s.numberTurn c then s
  else if s.numberWaits then s.seekEnd
  else if s.capacity < 96 then c.end Status.cartridgeFull 0 0 s
  else
    let n := s.nextNumber
    let s := s.takeNumber
    let r : Rec := { num := n, state := .sealed, pair := c.pair, mark := true, openTime := s.nowSec }
    let s := (s.addRec r).mirror (.mark n c.pair r.openTime)
    c.end Status.success n 0 (s.sealRec n)

/-- MARK (R313). -/
def execMark (q : Fin 256) (tag : BitVec 16) (io : Io) (s : State) : Host.Outcome State Fault Refusal :=
  .next (recCmd 0x09 q tag io markBody s)

/-! ## SYNC (R316 to R318) -/

/-- Records a SYNC with this m covers (R316). -/
def State.covered (s : State) (m : Option Nat) : List Rec := s.recs.recs.filter (fun r => m.any (fun k => r.num ≤ k) && r.state ≠ .abandoned)

/-- Deferred errors since the last SYNC completion of covered records (R317). -/
def State.coveredErrors (s : State) (m : Option Nat) : List DeferredEntry :=
  s.recs.deferred.filter (fun d => (s.covered m).any (fun r => r.num = d.num))

/-- Lowest-numbered entry of a list. -/
def lowestEntry (l : List DeferredEntry) : Option DeferredEntry :=
  l.foldl (fun a d => match a with
    | some e => if d.num < e.num then some d else some e
    | none => some d) none

/-- The completion of a SYNC: status and count of R317, the covered written records SYNCED, the deferred-error list begun anew. -/
def State.finishSync (q tag : Nat) (m : Option Nat) (s : State) : State :=
  let errs := s.coveredErrors m
  let nums := (errs.map (·.num)).eraseDups
  let st := ((lowestEntry errs).map (·.status)).getD Status.success
  let s := { s with recs := { s.recs with
    recs := s.recs.recs.map (fun (r : Rec) => if m.any (fun k => r.num ≤ k) && r.state = RecState.written then { r with state := RecState.synced } else r)
    deferred := [], deferredCount := 0
    syncs := s.recs.syncs.filter (fun y => !(y.pair = q && y.tag = tag)) } }
  s.complete q tag st (BitVec.ofNat 64 s.lastImage.syncedLimit) (BitVec.ofNat 32 nums.length)

/-- Every deferred error that a SYNC accounts for has been posted (R317). -/
def State.errorsPosted (s : State) (m : Option Nat) : Bool := (s.coveredErrors m).all (·.posted)

def syncBody (c : Cmd) (s : State) : State :=
  if s.recs.syncs.any (fun y => y.pair = c.pair && y.tag = c.tag) then s
  else
    let m := c.syncM
    let idle := (s.covered m).all (fun r => r.state = .synced || r.state = .discarded)
    if idle && s.recs.syncs = [] && s.errorsPosted m then s.finishSync c.pair c.tag m
    else
      let y : SyncWait := { pair := c.pair, tag := c.tag, arrival := c.arrival, m := m }
      let s := { s with recs := { s.recs with
        syncs := s.recs.syncs.filter (fun (z : SyncWait) => z.arrival < c.arrival) ++ [y] ++ s.recs.syncs.filter (fun (z : SyncWait) => c.arrival < z.arrival)
        sealQ := if idle then s.recs.sealQ else m.elim s.recs.sealQ (fun k => insertSeal (.closeMark k) s.recs.sealQ) } }
      s.beginWriting

/-- SYNC (R316): with every sealed record synced it completes at once, otherwise its close mark enters the seal queue behind
record m. -/
def execSync (q : Fin 256) (tag : BitVec 16) (io : Io) (s : State) : Host.Outcome State Fault Refusal :=
  .next (recCmd 0x06 q tag io syncBody s)

/-- Lowest covered record with a terminal deferred error. -/
def State.lowestTerminal (s : State) (m : Option Nat) : Option Nat := ((s.covered m).find? (·.terminal)).map (·.num)

/-- The bound b of a SYNC (R316). -/
def State.syncBound (s : State) (m : Option Nat) : Nat :=
  let top := m.elim 0 (· + 1)
  match s.lowestTerminal m with
  | some n => min top n
  | none => top

/-- The synced position for a bound: the heat after the last parity heat of the train with the trailer of the record below it
(Table 02-14, R316). -/
def State.syncedPosFor (s : State) (b : Nat) : TapePos :=
  let below := (s.recs.recs.filter (fun r => r.num < b && r.train.isSome)).getLast?
  match below.bind (fun r => r.train.bind (fun t => assocGet s.forge.ends t)) with
  | some p => p
  | none => s.cart.image.syncedPos

/-- The image of a SYNC (R76, R316): synced limit raised to b, never lowered. -/
def State.issueSyncImage (b : Nat) (s : State) : State :=
  let p := s.syncedPosFor b
  let s := s.modImage (fun m => { m with
    syncedPos := if m.syncedLimit < b then p else m.syncedPos
    syncedLimit := max m.syncedLimit b, recordLimit := max m.recordLimit b })
  s.issueImage

/-- A LEDGER_ISSUED event is still held. -/
def State.issuedHeld (s : State) : Bool := s.evq.held.any (fun e => e.code = 0x0303)

/-- The oldest SYNC completes once every covered record is written or discarded, an image that reaches b has been issued and posted,
and its deferred errors have been posted (R316, R317). -/
def execSyncCompletion (io : Io) (s : State) : Host.Outcome State Fault Refusal :=
  .next (match s.recs.syncs with
  | [] => s
  | y :: _ =>
    let s := s.withPairIo y.pair io
    let ready := (s.covered y.m).all (fun r => r.state = .written || r.state = .synced || r.state = .discarded)
    if !ready then s
    else
      let b := s.syncBound y.m
      let idle := (s.covered y.m).all (fun r => r.state = .synced || r.state = .discarded)
      let serves := idle || (b ≤ s.lastImage.syncedLimit && !s.cart.changed)
      let s := if serves then s else s.issueSyncImage b
      if s.issuedHeld || !s.errorsPosted y.m then s else s.finishSync y.pair y.tag y.m)

/-! ## LOCATE (R322 to R324) -/

/-- The LOCATE that waits for the tape longest. -/
def State.waitingLocate (s : State) : Option Cmd := s.recs.cmds.find? (fun c => c.op = 0x07 && c.started)

/-- A record read in progress ends with ABORTED, PREEMPTED (R212, R323). -/
def State.preemptRead (s : State) : State :=
  match s.rd.jobs with
  | j :: _ => (s.endLadder).endRead j Status.abortedPreempted 6
  | [] => s

/-- A write start point that no OPEN or MARK has used is cancelled (R324). -/
def State.cancelStart (s : State) : State :=
  { s with recs := { s.recs with startSet := none }, cart := { s.cart with startPos := none } }

/-- A waiting LOCATE gets the tape (R214, R216, R323, R324). -/
def beginLocate (c : Cmd) (s : State) : State :=
  let write := bitAt c.dwA 0
  let m := s.cart.image
  if s.searchFirst c.num then s.startSearch
  else if s.eodFirst c.num then s.startEodCheck
  else
    let s := if write then s else s.cancelStart
    if write && m.eodValid && c.num = m.recordLimit then
      let p := s.cart.appendPos
      let s := { s with recs := { s.recs with startSet := some c.num }, cart := { s.cart with startPos := none } }
      c.end Status.success (p.wrap + p.heat * 256) (ofSigned 32 p.lpos) s
    else if write && !m.eodValid && c.num = s.recs.next then
      let p := s.splicePos
      c.end Status.success (p.wrap + p.heat * 256) (ofSigned 32 p.lpos) { s with recs := { s.recs with startSet := some c.num } }
    else if m.eodValid && m.recordLimit ≤ c.num then
      c.end (if write then Status.recordAbsent else Status.endOfData) 0 0 s
    else s.startLocate { num := c.num, write := write, cmd := some (c.pair, c.tag) }

/-- CART_UNLOAD once writing has ended: image, temper store and derived keys gone, CARTRIDGE clear (R349). -/
def State.unloadCart (s : State) : State :=
  let s := (if s.cart.changed then s.issueImage else s).mirror .unloaded
  { s with cart := { s.cart with loaded := false, searchPending := false, searching := false, eodChecking := false, searchMb := [],
                                 waitStored := none, reserved := none, startPos := none },
           recs := { s.recs with recs := [], startSet := none },
           rd := { s.rd with temper := [], recovery := [], billets := [], raBytes := 0, reading := false, streaming := false, locate := none,
                             reread := none },
           sec := { s.sec with writeRefused := false } }

/-- The mailbox whose accepted CART_UNLOAD waits for the tape. -/
def State.unloadMb (s : State) : Option Nat :=
  (List.range 16).find? (fun m => let b := s.mbox m; b.state = 1 && b.opcode = 0x0202 && !b.held)

/-- The tape goes to whoever waits for it when nothing writes, searches or locates: a search the host asked for, a LOCATE, the
queued reads, what waits to be written, and a CART_UNLOAD last (R205, R220, R322, R349, log 26). -/
def State.pumpTape (s : State) : State :=
  if s.forge.writing || s.cart.searching || s.cart.eodChecking || s.rd.locate.isSome then s
  else if s.cart.searchPending && s.cart.searchMb ≠ [] then s.startSearch
  else match s.waitingLocate with
    | some c => beginLocate c s
    | none =>
      let s := s.pumpReads.beginWriting
      match s.unloadMb with
      | none => s
      | some m =>
        if s.rd.jobs = [] && s.rd.locate.isNone && !s.cart.searching && !s.cart.eodChecking && !s.forge.writing then
          (if s.rd.reading then s.stopTape else s).unloadCart.done m []
        else s

def locateBody (c : Cmd) (s : State) : State :=
  let write := bitAt c.dwA 0
  if write && (s.recsIn .opened) ≠ [] then c.end Status.sequenceError 0 0 s
  else if write && (c.num < s.cart.image.recordLimit || !s.cart.image.eodValid)
      && (s.cart.image.writeRefused || s.cart.image.session = 0xFFFFFFFF || 0xFFFFFFFF ≤ s.nextSession) then
    c.end Status.sessionExhausted 0 0 s
  else
    let s := s.modCmd c.pair c.tag (fun c => { c with started := true })
    if s.forge.writing then s.endWriting else (s.preemptRead).pumpTape

/-- LOCATE (R323, R324), admitted once writing has ended (R322). -/
def execLocate (q : Fin 256) (tag : BitVec 16) (io : Io) (s : State) : Host.Outcome State Fault Refusal :=
  .next (recCmd 0x07 q tag io locateBody s)

/-! ## RECORD READ (R264, R325) -/

/-- Cut-through is refused (R264): it needs SEC_APPROVED 0. -/
def State.cutRefused (s : State) : Bool := s.sec.approved

def readBody (c : Cmd) (s : State) : State :=
  if s.rd.jobs.any (fun j => j.pair = c.pair && j.tag = c.tag) then s
  else
    let cut := bitAt c.dwA 16
    if cut && s.cutRefused then c.end Status.cutThroughRefused 0 0 s
    else
      let j : ReadJob := { pair := c.pair, tag := c.tag, num := c.num, first := c.dwA % 2 ^ 14, count := c.dwB, cut := cut,
                           addr := BitVec.ofNat 64 c.addr, len := c.xferLen, report := BitVec.ofNat 64 c.report }
      let s := s.cancelStart
      let s := { s with rd := { s.rd with jobs := s.rd.jobs ++ [j] } }
      let s := s.modCmd c.pair c.tag (fun c => { c with started := true })
      if s.forge.writing then s.endWriting else s.pumpTape

/-- RECORD READ (R325): queued behind the earlier reads, admitted once writing has ended (R205, R322). -/
def execRecordRead (q : Fin 256) (tag : BitVec 16) (io : Io) (s : State) : Host.Outcome State Fault Refusal :=
  .next (recCmd 0x08 q tag io readBody s)

/-! ## QUERY and ABORT (R327, R329) -/

/-- The state code of Table 11-6 for a record this load knows. -/
def State.stateCode (s : State) (r : Rec) : Nat :=
  match r.state with
  | .opened => 1
  | .sealed => if s.recs.recs.any (fun x => x.num < r.num && x.state = .opened) then 2 else 3
  | .written => 4
  | .synced => 5
  | .abandoned => 6
  | .discarded => 7

/-- State code of a number (R327). -/
def State.numberCode (s : State) (n : Nat) : Nat :=
  match s.rec? n with
  | some r => s.stateCode r
  | none => if s.cart.loaded && n < s.cart.image.recordLimit then (if n < s.cart.image.syncedLimit then 5 else 4) else 0

/-- The 64 bytes of Table 11-6. -/
def State.queryBytes (s : State) (n : Nat) : Bytes :=
  let img := s.lastImage
  let of := s.rec? n
  let r := of.getD { num := n, state := .discarded, pair := 0 }
  let isOpen := of.isSome && r.state = .opened
  [byte (s.numberCode n), byte (b2n r.shared + 2 * b2n r.encrypted + 4 * b2n r.mark + 8 * b2n (r.deferred ≠ 0)),
   byte r.setting.toNat, byte (if r.encrypted then r.slot else 0), byte r.pair] ++ zeros 3 ++ leBytes 8 n
  ++ leBytes 8 (if isOpen then extentBytes r.extents else r.len) ++ leBytes 2 (if isOpen then r.extents.length else 0)
  ++ leBytes 2 r.deferred.toNat ++ zeros 4 ++ leBytes 8 s.nextNumber ++ optBytes 8 s.lowestOpen
  ++ leBytes 8 img.syncedLimit ++ leBytes 8 img.recordLimit

def queryBody (io : Io) (c : Cmd) (s : State) : State :=
  if io.ok && c.sglOk then c.end Status.success (s.numberCode c.num) 0 (c.deliver (s.queryBytes c.num) s)
  else c.end Status.dataTransferError 0 0 s

/-- QUERY (R327). -/
def execQuery (q : Fin 256) (tag : BitVec 16) (io : Io) (s : State) : Host.Outcome State Fault Refusal :=
  .next (recCmd 0x0A q tag io (queryBody io) s)

def abortBody (c : Cmd) (s : State) : State :=
  if s.recs.cmds.any (fun d => some d.arrival = c.target) then s
  else c.end (if c.caughtTarget then Status.abortCaught else Status.abortNotCaught) 0 0 s

/-- ABORT (R329): completes after its target, as decided at its arrival. -/
def execAbort (q : Fin 256) (tag : BitVec 16) (io : Io) (s : State) : Host.Outcome State Fault Refusal :=
  .next (recCmd 0x0B q tag io abortBody s)

end Sys2Proof.Machine
end

