-- ==== Sys2Proof/Machine/Mailbox.lean ====
section
/-! DEFINITION. The mailbox protocol that every mailbox command shares (R336 to R340, R357, R480), and the status words of
Tables 10-6 and 09-11. -/

namespace Sys2Proof.Machine

/-! ## Status words -/

/-- GLOBAL_STATUS (Table 10-6). -/
def State.globalStatus (s : State) : Nat :=
  b2n s.glob.ready + 2 * b2n s.glob.enabled + 4 * b2n s.glob.enablePending + 8 * s.glob.shutdown.toNat + 32 * b2n s.glob.fatal
  + 64 * b2n s.glob.linkDegraded + 128 * b2n s.cart.loaded + 256 * s.pwr.state.toNat + 1024 * s.twin.role.toNat
  + 4096 * b2n (s.evq.held ≠ []) + 8192 * b2n s.evq.error

/-- APPROVED: conditions 1 to 4 of R272. -/
def State.approvedNow (s : State) : Bool :=
  decide (s.sec.state = .operational) && s.sec.postPassed && s.sec.approved && !s.sec.debug && s.fw.signed

/-- STATE of Table 09-11. -/
def SecState.code : SecState → Nat
  | .selfTest => 0
  | .uncommissioned => 1
  | .operational => 2
  | .error => 3

/-- SEC_STATUS (Table 09-11). -/
def State.secStatus (s : State) : Nat :=
  s.sec.state.code + 16 * b2n s.approvedNow + 32 * b2n s.sec.allowPlain + 64 * b2n s.sec.writeRefused
  + 128 * b2n s.pins.tamperLow + 256 * b2n s.sec.lockedOut

/-- SESSION_CUR (Table 09-10). -/
def State.sessionCur (s : State) : Nat := if s.cart.loaded then s.lastImage.session else 0

/-- HELD_EVENTS (Table 10-5). -/
def State.heldEvents (s : State) : Nat := s.evq.held.length

/-! ## A request (R337, R339, R340) -/

/-- Commands that bring the formatter out of P2 (Table 12-5, W). -/
def wakesP2 (op : Nat) : Bool :=
  op = 0x0201 || op = 0x0202 || op = 0x0205 || op = 0x0401 || op = 0x0604 || op = 0x0702 || op = 0x0801 || op = 0x0802
  || op = 0x0901 || op = 0x0902 || op = 0x0903 || op = 0x0905

/-- Long-running commands (Table 12-5, L). -/
def longRunning (op : Nat) : Bool :=
  op = 0x0201 || op = 0x0205 || op = 0x0401 || op = 0x050B || op = 0x0603 || op = 0x0902 || op = 0x0903 || op = 0x0905

/-- The GO is a wake event (R340, R357, R358): a W command in P2 or on the way there, any but SEC_ZEROIZE in P3. -/
def State.goWakes (s : State) (op : Nat) : Bool :=
  let deep := fun (t : BitVec 2) => (t = 2 && wakesP2 op) || (t = 3 && op ≠ 0x050E)
  deep s.pwr.state || s.pwr.entering.any deep

/-- The 16 header bytes of a request (Table 12-3). -/
def mbHeader (r : MbReq) (op : Nat) : Bytes :=
  leBytes 2 op ++ leBytes 2 r.flags.toNat ++ leBytes 4 r.seq.toNat ++ leBytes 4 r.len.toNat ++ leBytes 4 r.rsv.toNat

/-- The MAILBOX journal entry: header and payload, or the payload's CRC for a SEC_ opcode (Table 15-9). -/
def mbEntry (r : MbReq) (op : Nat) : Bytes :=
  if op / 256 = 5 then mbHeader r op ++ leBytes 4 (crc32c r.payload).toNat else mbHeader r op ++ r.payload

/-- A request's payload, its length field's worth of bytes. -/
def mbData (r : MbReq) : Bytes := fit r.len.toNat r.payload

/-- An accepted GO: BUSY, sequence kept, journal entry and GO-order stamp (R337, R338, R449). -/
def State.acceptGo (op : Nat) (r : MbReq) (s : State) : State :=
  let s := s.modMbox r.mb (fun b => { b with
    state := 1, lastSeq := BitVec.ofNat 16 r.seq.toNat, seq := r.seq, opcode := BitVec.ofNat 16 op, req := some r, held := false })
  (s.journal 0x04 r.mb (mbEntry r op)).order 2 (leBytes 1 r.mb ++ leBytes 2 (r.seq.toNat % 65536))

/-- Requests are accepted and wait: a drain or blackout, or a power-state entry still to be left (Table 12-2, R354, R358, R359). -/
def State.mbWaits (s : State) (op : Nat) : Bool :=
  s.fw.act = .draining || s.fw.act = .blackout
    || (s.pwr.entering.isSome && s.pwr.wake) || (s.pwr.d3hot && s.pwr.state = 3 && op ≠ 0x050E)

/-- A GO of a mailbox command (R337): ignored and counted while BUSY, held where it must wait, otherwise served at once. -/
def mbGo (op : Nat) (r : MbReq) (serve : MbReq → State → State) (s : State) : State :=
  let s := s.linkIn
  if !s.glob.ready || s.glob.fatal then s
  else if (s.mbox r.mb).state = 1 then s.countError
  else
    let s := (s.withIo r.io).acceptGo op r
    let s := if s.goWakes op then s.wake else s
    if s.mbWaits op then
      { s.modMbox r.mb (fun b => { b with held := true }) with fw := { s.fw with heldMb := s.fw.heldMb ++ [r.mb.toNat] } }
    else serve r s

/-- Statistics commands, whose CLEAR flag is defined (Table 12-3). -/
def hasClear (op : Nat) : Bool := op = 0x0301 || op = 0x0303 || op = 0x0402 || op = 0x0403 || op = 0x0803

/-- Role a mailbox must hold: 0 none, 1 Crypto Officer, 2 User, 3 any of the two (Tables 09-6, 12-5). -/
def roleOk (role : BitVec 2) : Nat → Bool
  | 0 => true
  | 1 => role = 1
  | 2 => role = 2
  | _ => role ≠ 0

/-- What the security state refuses (R267, R270, R271): TAMPERED, SELF-TEST FAILED, UNCOMMISSIONED, in this order. -/
def State.secRefuses (s : State) (op : Nat) : Option (BitVec 16) :=
  if op / 256 ≠ 5 then none
  else if s.pins.tamperLow then some Status.tampered
  else if s.sec.state = .error && op ≠ 0x050E && op ≠ 0x050F then some Status.selfTestFailed
  else if s.sec.state = .uncommissioned && op ≠ 0x0501 && op ≠ 0x0505 && op ≠ 0x0506 && op ≠ 0x050E then some Status.uncommissioned
  else none

/-- Bytes `[o, o + n)` of a payload are zero. -/
def zeroAt (b : Bytes) (o n : Nat) : Bool := (slice b o n).all (· = 0)

/-- Detail of a rejection for which the spec gives no value: some value below 0x0100 (R339, log 24). -/
def openDetail (op check : Nat) : Nat := (Config.detail op check).toNat

/-- A rejection with INVALID FIELD whose detail the spec leaves open. -/
def State.invalidOpen (op check : Nat) (r : MbReq) (s : State) : State :=
  s.respond r.mb Status.invalidField (openDetail op check) []

/-- A rejection with another status whose detail the spec leaves open. -/
def State.refuse (op : Nat) (st : BitVec 16) (r : MbReq) (s : State) : State := s.respond r.mb st (openDetail op st.toNat) []

/-- SEQUENCE ERROR with a detail. -/
def State.seqError (r : MbReq) (detail : Nat) (s : State) : State := s.respond r.mb Status.sequenceError detail []

/-- A command with a payload of fixed length. -/
def sized (n : Nat) : Nat → Bytes → Bool := fun l _ => l = n

/-- The checks every mailbox command shares, in the order of R480, then its own rule. `sizeOk` says which payload lengths the
command defines, `resOk` that its reserved fields are zero and its encodings defined. -/
def mbChecks (op : Nat) (sizeOk : Nat → Bytes → Bool) (resOk : Bytes → Bool) (role : Nat) (body : MbReq → State → State)
    (r : MbReq) (s : State) : State :=
  if !sizeOk r.len.toNat (mbData r) then s.respond r.mb Status.invalidField 0x8000 []
  else if r.rsv ≠ 0 || 2 ≤ r.flags.toNat || (r.flags ≠ 0 && !hasClear op) || !resOk (mbData r) then
    s.respond r.mb Status.invalidField 0x8001 []
  else match s.secRefuses op with
    | some st => s.refuse op st r
    | none =>
      if !roleOk (s.mbox r.mb).role role then s.refuse op Status.roleRequired r
      else body r s

end Sys2Proof.Machine
end

