-- ==== Sys2Proof/Machine/MbGeneral.lean ====
section
/-! DEFINITION. State summary, parameters, queue pairs, cartridge and ledger (R280, R341 to R351, R76, R216, R220). -/

namespace Sys2Proof.Machine

/-! ## STATE_SUMMARY (R351) -/

/-- Version of a firmware image (Table 12-13). -/
def fwVersion (img : Bytes) : Nat := getLe img 8 8

/-- The staged image is complete: header and body are there (R353). -/
def Firmware.stagedComplete (f : Firmware) : Bool :=
  decide (4096 < f.staged.length) && decide (f.staged.length = 4096 + getLe f.staged 24 4)

/-- Image of a slot. -/
def Firmware.slot (f : Firmware) (one : Bool) : Bytes := if one then f.slot1 else f.slot0

/-- Deferred-error entries by rising record number. -/
def insertDeferred (d : DeferredEntry) : List DeferredEntry → List DeferredEntry
  | [] => [d]
  | x :: r => if d.num < x.num then d :: x :: r else x :: insertDeferred d r

def sortDeferred (l : List DeferredEntry) : List DeferredEntry := l.foldl (fun a d => insertDeferred d a) []

/-- A deferred-error entry as 16 bytes (Table 12-12). -/
def DeferredEntry.bytes (d : DeferredEntry) : Bytes :=
  leBytes 5 d.num ++ leBytes 1 d.pair ++ leBytes 2 d.status.toNat ++ leBytes 1 (b2n d.posted + 2 * b2n d.held + 4 * b2n d.replayed)
  ++ zeros 7

/-- A pair-table entry as 16 bytes (Table 12-11). -/
def State.pairBytes (s : State) (q : Nat) : Bytes :=
  match s.pair? q with
  | none => zeros 16
  | some p =>
    leBytes 1 (if p.error then 2 else if s.fenced q then 3 else 1) ++ leBytes 1 p.rev ++ leBytes 1 (b2n p.motion + 2 * b2n p.urgent)
    ++ leBytes 1 p.weight ++ leBytes 2 p.sqFetch ++ leBytes 2 p.cqTail ++ leBytes 2 (s.owed q) ++ leBytes 1 (b2n p.cqPhase) ++ zeros 5

/-- Why fetch stands (Table 12-10, offset 34). -/
def State.fetchCode (s : State) : Nat :=
  if !s.glob.enabled then (if s.glob.shutdown = 1 then 2 else 3)
  else if s.glob.shutdown = 1 then 2
  else if s.fw.act = .draining || s.fw.act = .blackout then 1
  else if 2 ≤ s.pwr.state.toNat || s.pwr.entering.any (fun t => 2 ≤ t.toNat) then 4 else 0

/-- The code of an activation phase (Table 12-10). -/
def ActPhase.code : ActPhase → Nat
  | .none => 0
  | .preparing => 1
  | .draining => 2
  | .blackout => 3

/-- Bits with numbers of a list set. -/
def bitMask (l : List Nat) : Nat := l.foldl (fun a n => a + 2 ^ n) 0

/-- Offsets 0 to 36 of Table 12-10: status words, versions, power, fetch, activation, self-test. -/
def State.summaryHead (s : State) : Bytes :=
  let boot := fwVersion (s.fw.slot s.fw.bootSlot)
  leBytes 4 s.globalStatus ++ leBytes 4 s.secStatus ++ leBytes 8 s.fw.running.toNat
  ++ leBytes 8 (if boot = s.fw.running.toNat then 0 else boot)
  ++ leBytes 8 (if s.fw.stagedComplete then fwVersion s.fw.staged else 0)
  ++ leBytes 1 (if s.pwr.entering.isSome then (if s.pwr.wake then 2 else 1) else 0)
  ++ leBytes 1 (if s.pwr.wake then 0 else (s.pwr.entering.getD s.pwr.state).toNat)
  ++ leBytes 1 s.fetchCode ++ leBytes 1 s.fw.act.code
  ++ leBytes 1 ((s.units.running.map (·.kind)).getD 0)

/-- The cartridge flags of Table 12-10, offset 37. -/
def State.summaryFlags (s : State) : Nat :=
  b2n (s.cart.issued.any (fun _ => true) && s.lastImage.sessionOpen) + 2 * b2n s.sec.writeRefused + 4 * b2n s.cart.searchPending
    + 8 * b2n s.cart.searching + 16 * b2n s.cart.waitStored.isSome + 32 * b2n s.forge.writing + 64 * b2n s.rd.reading + 128 * b2n s.cart.blank

/-- Offset 37 on of Table 12-10: cartridge, counts, ledger and record numbers. -/
def State.summaryRecords (s : State) : Bytes :=
  leBytes 1 (if s.cart.loaded then s.summaryFlags else 0) ++ leBytes 1 (if s.cart.loaded then s.fmt else 0) ++ zeros 1
  ++ leBytes 4 s.recs.cmds.length ++ leBytes 4 s.heldEvents ++ leBytes 4 s.sessionCur ++ leBytes 4 s.recs.deferredCount
  ++ optBytes 8 s.cart.lastIssued ++ optBytes 8 s.cart.lastStored ++ leBytes 8 s.lastImage.syncedLimit ++ leBytes 8 s.lastImage.recordLimit
  ++ leBytes 8 s.nextNumber ++ optBytes 8 s.lowestOpen ++ leBytes 4 (s.recsIn .opened).length ++ leBytes 4 (s.recsIn .sealed).length

/-- Table 12-10 with its count of entries written. -/
def State.summaryBytes (s : State) (written : Nat) : Bytes :=
  s.summaryHead ++ s.summaryRecords
  ++ leBytes 8 s.now.toNat ++ (if s.cart.loaded then fit 16 s.cart.image.serial else zeros 16)
  ++ leBytes 2 s.units.quarantined.length ++ leBytes 1 s.heat.retired.length
  ++ leBytes 1 (bitMask ((List.range 8).filter (fun n => (s.hearth.chans[n]?).any (fun c => c.state = 3))))
  ++ leBytes 4 written
  ++ s.mail.flatMap (fun b => leBytes 2 (b.state.toNat + 4 * b2n b.held + 16 * b.role.toNat) ++ leBytes 2 b.opcode.toNat)
  ++ zeros 48

def summaryBody (r : MbReq) (s : State) : State :=
  let p := mbData r
  let addr := getLe p 0 8
  let len := getLe p 8 4
  if addr % 16 ≠ 0 then s.invalidOpen 0x0001 0 r
  else if len ≠ 0 && len < 4096 then s.invalidOpen 0x0001 1 r
  else
    let list := if addr = 0 || len = 0 then [] else (sortDeferred s.recs.deferred).take ((len - 4096) / 16)
    let out := (List.range 256).flatMap s.pairBytes ++ list.flatMap DeferredEntry.bytes
    let resp := s.summaryBytes list.length
    if addr = 0 || len = 0 then s.done r.mb resp
    else if !r.io.ok then s.refuse 0x0001 Status.dataTransferError r
    else (s.emit (.dma (BitVec.ofNat 64 addr) out)).done r.mb resp

def serveStateSummary : MbReq → State → State := mbChecks 0x0001 (sized 16) (fun p => zeroAt p 12 4) 0 summaryBody

/-- STATE_SUMMARY (R351). -/
def execStateSummary (r : MbReq) (s : State) : Host.Outcome State Fault Refusal := .next (mbGo 0x0001 r serveStateSummary s)

/-! ## Parameters (R341 to R345) -/

/-- Read-channel lanes that still use an older value of a parameter (R176). -/
def State.lanePending (s : State) (id : Nat) : Bool := s.rd.lanes.any (fun l => l.old.any (fun e => e.1 = id))

/-- PENDING of a parameter (R344). -/
def State.paramPending (s : State) (id : Nat) : Bool :=
  if (paramRow id).any (fun p => p.eff = .item) then s.lanePending id else (assocGet s.params.inForce id).isSome

/-- Every identifier a parameter table defines, in rising order of tables. -/
def paramIds : List Nat := paramTable.flatMap (fun p => (List.range p.elems).map (p.id + ·))

/-- CRC-32C of all parameter values, each as 8 bytes in the order of the tables (Table 15-9, log 25). -/
def State.paramCrc (s : State) : BitVec 32 := crc32c (paramIds.flatMap (fun id => leBytes 8 (ofSigned 64 (s.accepted id))))

/-- A MARKER entry (Table 15-9). -/
def State.marker (s : State) : State :=
  s.journal 0x00 0 (leBytes 6 s.time.sec.toNat ++ leBytes 8 s.fw.running.toNat ++ leBytes 4 s.paramCrc.toNat)

def paramGetBody (r : MbReq) (s : State) : State :=
  let p := mbData r
  let n := getLe p 0 2
  let ids := (List.range n).map (fun i => getLe p (8 + 4 * i) 4)
  if n = 0 || 254 < n then s.invalidOpen 0x0002 0 r
  else match (List.range n).find? (fun i => (paramRow (ids.getD i 0)).isNone) with
    | some i => s.respond r.mb Status.invalidField i []
    | none => s.done r.mb (ids.flatMap (fun id =>
        leBytes 4 id ++ leBytes 4 (b2n (s.paramPending id)) ++ leBytes 8 (ofSigned 64 (s.accepted id))))

def serveParamGet : MbReq → State → State :=
  mbChecks 0x0002 (fun l p => l = 8 + 4 * getLe p 0 2) (fun p => zeroAt p 2 6) 0 paramGetBody

/-- PARAM_GET (R344). -/
def execParamGet (r : MbReq) (s : State) : Host.Outcome State Fault Refusal := .next (mbGo 0x0002 r serveParamGet s)

/-- The entries of a PARAM_SET: identifier and value (R342, R343). -/
def setEntries (p : Bytes) : List (Nat × Int) :=
  (List.range (getLe p 0 2)).map (fun i => (getLe p (8 + 16 * i) 4, toSigned 64 (getLe p (16 + 16 * i) 8)))

/-- The value that would result from a set. -/
def State.resulting (s : State) (l : List (Nat × Int)) (id : Nat) : Int := (assocGet l id).getD (s.accepted id)

/-- A change of FA_BQ or FA_SHIFT while writing (R201). -/
def State.fineLoopLocked (s : State) (id : Nat) (v : Int) : Bool :=
  s.forge.writing && (id / 256 = 0x060509 || id = 0x06050A00) && v ≠ s.param id

/-- Status with which entry `i` of a set fails, if it does (R343). -/
def State.entryFails (s : State) (l : List (Nat × Int)) (i : Nat) : Option (BitVec 16) :=
  match l[i]? with
  | none => none
  | some (id, v) =>
    if !paramInRange id v || (l.take i).any (fun e => e.1 = id)
        || (paramRules s.hearth.readAheadBytes (s.resulting l)).any (fun x => x.1.any (fun y =>
            y = id || (y / 4 = id / 4 && id / 256 = 0x050701)) && !x.2) then some Status.invalidField
    else if s.fineLoopLocked id v then some Status.sequenceError else none

/-- One accepted value: lanes in TRACK keep the old value until their next frame item (R176), every other value with a later
moment of effect leaves the old one in force until then (R344). -/
def State.acceptParam (e : Nat × Int) (s : State) : State :=
  let old := s.param e.1
  let eff : Option PWhen := (paramRow e.1).map (·.eff)
  let s := if eff = some .item then
      { s with rd := { s.rd with lanes := s.rd.lanes.map (fun (l : Lane) =>
          if l.track && (assocGet l.old e.1).isNone then { l with old := (e.1, old) :: l.old } else l) } }
    else if eff ≠ some .atOnce then
      { s with params := { s.params with inForce := assocSet s.params.inForce e.1 old } }
    else s
  let s := State.takePool { s with params := { s.params with accepted := assocSet s.params.accepted e.1 e.2 } }
  -- a change of SNAP_CH restarts the ring concerned (R454)
  if e.1 / 256 = 0x0F0C02 && e.2 ≠ old then
    { s with jnl := { s.jnl with rings := s.jnl.rings.filter (fun x => x.1 ≠ e.1 % 256), gather := s.jnl.gather.filter (fun x => x.1 ≠ e.1 % 256) } }
  else s

def paramSetBody (r : MbReq) (s : State) : State :=
  let l := setEntries (mbData r)
  if l = [] || 254 < l.length then s.invalidOpen 0x0003 0 r
  else match (List.range l.length).findSome? (fun i => (s.entryFails l i).map (fun st => (i, st))) with
    | some (i, st) => s.respond r.mb st i []
    | none =>
      -- the stamp of the set's acceptance: its index among the mailbox's entries (Table 15-10)
      let idx := ((assocGet s.jnl.seqs (65536 * 4 + r.mb)).getD (0, 0)).2 - 1
      let s := s.order 8 (leBytes 4 idx)
      ((l.foldl (fun s e => (s.acceptParam e).mirror (.param e.1 e.2)) s).marker).done r.mb (leBytes 2 l.length)

/-- Reserved fields of a PARAM_SET are zero. -/
def setReservedOk (p : Bytes) : Bool := zeroAt p 2 6 && (List.range (getLe p 0 2)).all (fun i => zeroAt p (12 + 16 * i) 4)

def serveParamSet : MbReq → State → State := mbChecks 0x0003 (fun l p => l = 8 + 16 * getLe p 0 2) setReservedOk 0 paramSetBody

/-- PARAM_SET (R343). -/
def execParamSet (r : MbReq) (s : State) : Host.Outcome State Fault Refusal := .next (mbGo 0x0003 r serveParamSet s)

/-! ## Queue pairs (R280, R330) -/

/-- Offset of the first field of a QP_CREATE outside its range (Table 10-8). -/
def qpBadField (p : Bytes) : Option Nat :=
  let at1 := fun (o : Nat) => getLe p o 1
  let motion := at1 2 = 1
  let revOk := if motion then at1 1 = 0 else 1 ≤ at1 1 && at1 1 ≤ 3
  let bad : List (Nat × Bool) := [
    (1, revOk), (2, decide (at1 2 ≤ 1)), (3, at1 3 ≤ 1 && !(motion && at1 3 = 1)),
    (4, motion || at1 3 = 1 || at1 4 ≠ 0), (5, 4 ≤ at1 5 && at1 5 ≤ 16), (6, 4 ≤ at1 6 && at1 6 ≤ 16),
    (8, getLe p 8 8 % 4096 = 0), (16, getLe p 16 8 % 4096 = 0), (24, motion || getLe p 24 2 ≤ 1000)]
  (bad.find? (fun b => !b.2)).map Prod.fst

/-- A pair created from the payload of a QP_CREATE (Table 10-8). -/
def State.createPair (p : Bytes) (s : State) : State :=
  let pair : Pair := { rev := getLe p 1 1, motion := decide (getLe p 2 1 = 1), urgent := decide (getLe p 3 1 = 1), weight := getLe p 4 1,
                       sqLog := getLe p 5 1, cqLog := getLe p 6 1, coCount := getLe p 7 1, coTime := getLe p 24 2,
                       sqBase := BitVec.ofNat 64 (getLe p 8 8), cqBase := BitVec.ofNat 64 (getLe p 16 8) }
  { s with pairs := modAt s.pairs (getLe p 0 1) (fun _ => some pair) }

def qpCreateBody (r : MbReq) (s : State) : State :=
  let p := mbData r
  let q := getLe p 0 1
  let motion := getLe p 2 1 = 1
  if !s.glob.enabled || s.bench.on then s.refuse 0x0101 Status.sequenceError r
  -- a pair number in use, or a second motion pair (Table 10-18)
  else if (s.pair? q).isSome || (motion && s.motionPair.isSome) then s.refuse 0x0101 Status.resourceBusy r
  else match qpBadField p with
    | some o => s.respond r.mb Status.invalidField (o + 1) []
    | none =>
      let s := (s.createPair p).mirror (.qpCreate p)
      (if motion then s.drainMotion else s).done r.mb []

def serveQpCreate : MbReq → State → State := mbChecks 0x0101 (sized 32) (fun p => zeroAt p 26 6) 0 qpCreateBody

/-- QP_CREATE (R280). -/
def execQpCreate (r : MbReq) (s : State) : Host.Outcome State Fault Refusal := .next (mbGo 0x0101 r serveQpCreate s)

def qpDeleteBody (r : MbReq) (s : State) : State :=
  let q := getLe (mbData r) 0 1
  match s.pair? q with
  | none => s.respond r.mb Status.invalidField 1 []
  | some p =>
    let s := s.withPairIo q r.io
    let s := s.deletePair q
    let s := if p.motion then { s with motion := { s.motion with owed := [], consumed := 0 } } else s
    ((s.mirror (.qpDelete q)).pumpTape).done r.mb []

def serveQpDelete : MbReq → State → State := mbChecks 0x0102 (sized 8) (fun p => zeroAt p 1 7) 0 qpDeleteBody

/-- QP_DELETE (R280, R330). -/
def execQpDelete (r : MbReq) (s : State) : Host.Outcome State Fault Refusal := .next (mbGo 0x0102 r serveQpDelete s)

/-! ## Cartridge (R346 to R349, R216) -/

/-- Image of a BLANK load (R347). -/
def blankImage (f : Nat) (serial : Bytes) : LedgerImage :=
  let p : TapePos := { wrap := 0, heat := 0, lpos := 12000, serial := 0 }
  { format := f, serial := serial, eodPos := p, syncedPos := p, wraps := List.replicate (fmtWraps f) {} }

/-- Image of a RECOVER load (R348). -/
def recoverImage (f : Nat) (serial : Bytes) : LedgerImage := { blankImage f serial with sessionOpen := true }

/-- A cartridge is loaded with an image (an image with neither EOD valid nor session open needs the search, log 26): records, numbers, sessions and the tape's bookkeeping begin anew, counters are cleared (R148, R177, R216, R244, R298, R346). -/
def State.loadCart (m : LedgerImage) (blank : Bool) (s : State) : State :=
  { s with
    cart := { loaded := true, image := m, blank := blank, eodChecked := blank, appendPos := m.eodPos, searchPending := m.sessionOpen || (!m.eodValid && !blank),
              barred := s.cart.barred },
    recs := { s.recs with recs := [], sealQ := [], next := m.recordLimit, startSet := none, deferred := [], deferredCount := 0 },
    forge := { nextSerial := m.eodPos.serial, train := s.forge.train + 1 },
    heat := { gate := s.heat.gate, quench := s.heat.quench, map := initialMap m.format },
    rd := { s.rd with temper := [], recovery := [], stats := List.replicate 1024 {} },
    blw := { s.blw with framesFirst := 0, framesRewritten := 0, rewriteHeats := 0, slagFrames := 0, poisonedWords := 0, correctedWords := 0,
                        quenchCount := 0, exhaustedFrames := 0 },
    comp := {},
    sec := { s.sec with writeRefused := m.writeRefused || m.session = 0xFFFFFFFF } }

/-- Detail with which a supplied image is rejected (Table 12-9). -/
def imageFault (b : Bytes) (f : Nat) (serial : Bytes) : Option Nat :=
  if slice b 0 8 ≠ ascii "GK4LEDGR" || getLe b 0x0C 4 ≠ 65536 then some 1
  else if getLe b 0xFFFC 4 ≠ (crc32c (slice b 0 0xFFFC)).toNat then some 2
  else if getLe b 0x0A 2 ≠ f then some 3
  else if slice b 0x18 16 ≠ serial then some 4
  else none

/-- The command is done: CARTRIDGE set, write elements enabled, the end-of-data search begun where R216 begins it at once. -/
def finishLoad (r : MbReq) (s : State) : State :=
  let s := (s.sendWen.mirror (.image s.cart.image.bytes)).done r.mb []
  if s.cart.searchPending && s.param 0x07080700 = 1 then s.startSearch else s

def cartLoadBody (r : MbReq) (s : State) : State :=
  let p := mbData r
  let f := getLe p 0 1
  let blank := bitAt (getLe p 1 1) 0
  let recover := bitAt (getLe p 1 1) 1
  let serial := slice p 8 16
  let addr := getLe p 24 8
  if s.cart.loaded || s.cart.barred || s.bench.on then s.refuse 0x0201 Status.sequenceError r
  else if addr % 8 ≠ 0 then s.invalidOpen 0x0201 0 r
  else if blank then
    if f = 2 then s.respond r.mb Status.invalidField 6 []
    -- the tape's answer to the read of EOD_BLANK heats: a frame was accepted (R347)
    else if r.aux.headD 0 ≠ 0 then (s.applyParams .reread).respond r.mb Status.invalidField 5 []
    else finishLoad r (((s.applyParams .reread).loadCart (blankImage f serial) true).issueImage)
  else if recover then finishLoad r (s.loadCart (recoverImage f serial) false)
  else if !r.io.ok then s.refuse 0x0201 Status.dataTransferError r
  else
    let b := fit 65536 r.io.data
    match imageFault b f serial with
    | some d => s.respond r.mb Status.invalidField d []
    | none => finishLoad r (s.loadCart (parseImage b) false)

/-- Reserved fields and encodings of a CART_LOAD (Table 12-8). -/
def cartReservedOk (p : Bytes) : Bool :=
  let f := getLe p 0 1
  let fl := getLe p 1 1
  2 ≤ f && f ≤ 4 && fl < 3 && zeroAt p 2 6 && (fl = 0 || zeroAt p 24 8)

def serveCartLoad : MbReq → State → State := mbChecks 0x0201 (sized 32) cartReservedOk 0 cartLoadBody

/-- CART_LOAD (R346). -/
def execCartLoad (r : MbReq) (s : State) : Host.Outcome State Fault Refusal := .next (mbGo 0x0201 r serveCartLoad s)

def cartUnloadBody (r : MbReq) (s : State) : State :=
  if (s.recsIn .opened) ≠ [] || (s.recsIn .sealed) ≠ [] then s.refuse 0x0202 Status.sequenceError r
  else if !s.cart.loaded then s.refuse 0x0202 Status.noCartridge r
  else if s.forge.writing then s.endWriting else s.pumpTape

def serveCartUnload : MbReq → State → State := mbChecks 0x0202 (sized 0) (fun _ => true) 0 cartUnloadBody

/-- CART_UNLOAD (R349): answered by `State.pumpTape` once writing and the reads under way have ended. -/
def execCartUnload (r : MbReq) (s : State) : Host.Outcome State Fault Refusal := .next (mbGo 0x0202 r serveCartUnload s)

/-! ## Ledger images (R350, R76) -/

def ledgerGetBody (r : MbReq) (s : State) : State :=
  let p := mbData r
  let seq := getLe p 0 8
  let addr := getLe p 8 8
  if addr % 8 ≠ 0 then s.invalidOpen 0x0203 0 r
  else match s.cart.issued.find? (fun m => m.seq = seq) with
    | none => s.invalidOpen 0x0203 1 r
    | some m =>
      if !r.io.ok then s.refuse 0x0203 Status.dataTransferError r
      else (s.emit (.dma (BitVec.ofNat 64 addr) m.bytes)).done r.mb (leBytes 1 (seq % 8) ++ zeros 7)

def serveLedgerGet : MbReq → State → State := mbChecks 0x0203 (sized 16) (fun _ => true) 0 ledgerGetBody

/-- LEDGER_GET (R350). -/
def execLedgerGet (r : MbReq) (s : State) : Host.Outcome State Fault Refusal := .next (mbGo 0x0203 r serveLedgerGet s)

def ledgerStoredBody (r : MbReq) (s : State) : State :=
  let seq := getLe (mbData r) 0 8
  if s.cart.lastIssued.any (fun l => seq ≤ l) then
    ({ s with cart := { s.cart with lastStored := some (max seq (s.cart.lastStored.getD 0)) } }.mirror (.stored seq)).done r.mb []
  else s.invalidOpen 0x0204 0 r

def serveLedgerStored : MbReq → State → State := mbChecks 0x0204 (sized 8) (fun _ => true) 0 ledgerStoredBody

/-- LEDGER_STORED (R350). -/
def execLedgerStored (r : MbReq) (s : State) : Host.Outcome State Fault Refusal := .next (mbGo 0x0204 r serveLedgerStored s)

/-- The image of the new session has been reported stored (R76). -/
def State.sessionStored (s : State) : Bool := match s.cart.waitStored with
  | some k => s.cart.lastStored.any (fun l => k ≤ l)
  | none => false

/-- The first frame of a new write session may be written: the wait ends, and writing starts where something waits to be formed and
nothing else holds the tape (R76). -/
def execSessionFirstFrame (s : State) : Host.Outcome State Fault Refusal :=
  .next (if s.sessionStored && s.tapeFree && s.formable then s.launchWriting else s)

/-! ## EOD_SEARCH (R216, R220) -/

/-- The 48-byte result (Table 07-5). -/
def EodResult.bytes (e : EodResult) : Bytes :=
  leBytes 1 e.outcome ++ leBytes 1 (b2n e.stale + 2 * b2n e.unclosed) ++ zeros 2 ++ leBytes 4 e.session ++ leBytes 5 e.recordLimit ++ zeros 3
  ++ leBytes 4 e.found ++ leBytes 4 e.withoutC3 ++ leBytes 4 e.heats ++ zeros 4 ++ e.append.bytes

def eodSearchBody (r : MbReq) (s : State) : State :=
  if s.cart.searchPending || s.cart.searching then
    { s with cart := { s.cart with searchMb := s.cart.searchMb ++ [r.mb.toNat] } }.pumpTape
  else s.done r.mb s.cart.eod.bytes

def serveEodSearch : MbReq → State → State := mbChecks 0x0205 (sized 0) (fun _ => true) 0 eodSearchBody

/-- EOD_SEARCH (R220): runs a pending search, whose end answers it, or returns the last result. -/
def execEodSearch (r : MbReq) (s : State) : Host.Outcome State Fault Refusal := .next (mbGo 0x0205 r serveEodSearch s)

end Sys2Proof.Machine
end

