-- ==== Sys2Proof/Machine/Units.lean ====
section
/-! DEFINITION. Units, their tests and their faults (R364, R365, R429 to R437, R442). -/

namespace Sys2Proof.Machine

/-! ## Unit classes (Table 15-1) -/

/-- Units of a class; none for a class that Table 15-1 does not list. -/
def unitCount (cls : Nat) : Option Nat :=
  match cls with
  | 1 => some 52
  | 2 => some 18
  | 3 => some 24
  | 4 => some 80
  | 5 => some 1024
  | 6 => some 4
  | 7 => some 18
  | 8 => some 214
  | 9 => some 8
  | _ => if 0x10 ≤ cls && cls ≤ 0x1B then some 1 else none

/-- Singleton classes. -/
def isSingleton (cls : Nat) : Bool := 0x10 ≤ cls && cls ≤ 0x1B

/-- A unit number exists in its class; lane numbers are 16 × port + physical lane, 13 lanes on a head port, 3 on a servo port. -/
def unitExists (cls num : Nat) : Bool :=
  if cls = 8 then num / 16 < 18 && num % 16 < (if num / 16 < 16 then 13 else 3)
  else match unitCount cls with
    | some n => num < n
    | none => false

/-- Unit identifier (R429). -/
def unitId (cls num : Nat) : Nat := 2 ^ 24 * cls + num

/-- Classes 0x01 to 0x06, 0x08 and 0x09, whose units the self-tests run one by one (Table 15-3). -/
def testedPools : List Nat := [1, 2, 3, 4, 5, 6, 8, 9]

/-- Singleton classes. -/
def singletons : List Nat := (List.range 12).map (· + 0x10)

/-! ## A unit taken out of service (R246, R138, R420, R435) -/

/-- A logical channel whose element is `p`. -/
def Heat.logicalOf (h : Heat) (p : Nat) : Option Nat := h.map.findIdx? (· = p)

/-- The retirement of the element of lane `p` waits for the next billet heat boundary, once a map is in force (R138, Table 15-1). -/
def State.retireLane (p : Nat) (s : State) : State :=
  match s.heat.logicalOf p with
  | some l => if s.heat.retireDue.contains l then s else { s with heat := { s.heat with retireDue := s.heat.retireDue ++ [l] } }
  | none => s

/-! ## FAULT of an active die (R442) -/

/-- An active die of an armed twin sends RELEASE on every port, then FAULT, and stops: it writes and fetches no more. -/
def State.sendFault (s : State) : State :=
  let s := { s with tongs := { s.tongs with ports := s.tongs.ports.map (fun (p : Port) => { p with release := true, owner := false, gate := false }) } }
  let s := (s.flushAnvil).clearForge.dropSpeedRequest
  { s with twin := { s.twin with role := 2, peer := 0, faultSent := true } }.emit .peerFault

/-- The twin is armed and this die is the active (R440). -/
def State.armedActive (s : State) : Bool := s.twin.role = 1 && s.twin.peer = 2

/-- FATAL while the formatter runs: an armed active first sends RELEASE and FAULT (R442, R457). -/
def State.stopFatal (s : State) : State := (if s.armedActive then s.sendFault else s).setFatal

/-- A unit is quarantined with what its class then does without it; for a head port an armed active sends FAULT (R420, R442). -/
def State.quarantineUnit (cls num : Nat) (s : State) : State :=
  let s := s.quarantine cls num
  if cls = 4 then { s with sec := { s.sec with pairs := s.sec.pairs.filter (· ≠ num) } }
  else if cls = 5 then s.retireLane num
  else if cls = 7 then
    let s := s.modPort num (fun (p : Port) => { p with state := 4, gate := false, owner := false, swap := none })
    if num < 16 && s.armedActive then s.sendFault else s
  else if cls = 8 then
    s.modPort (num / 16) (Port.dropLane (num / 16) (num % 16))
  else s

/-- A unit returns to service (R431, R435). -/
def State.returnUnit (cls num : Nat) (s : State) : State :=
  let s := { s with units := { s.units with quarantined := s.units.quarantined.filter (fun u => !(u.cls = cls && u.num = num)),
                                            underTest := s.units.underTest.filter (fun u => !(u.cls = cls && u.num = num)),
                                            events := s.units.events.filter (fun e => !(e.1.cls = cls && e.1.num = num)) } }
  if cls = 4 then { s with sec := { s.sec with pairs := (List.range 80).filter (fun n => n = num || s.sec.pairs.contains n) } }
  else if cls = 8 then s.modPort (num / 16) (Port.returnLane (num / 16) (num % 16))
  else s

/-! ## C1 encoders (Table 15-2) -/

/-- The encoder that serves a head port: its own, or in place of one out of service a spare, 16 or 17. -/
def State.encoderOf (s : State) (port : Nat) : Option Nat :=
  let out := s.outUnits 2
  if !out.contains port then some port
  else
    let spares := [16, 17].filter (fun n => !out.contains n)
    (((List.range 16).filter out.contains).findIdx? (· = port)).bind (fun i => spares[i]?)

/-- An Anvil copy that fails H is an event of the port's encoder; its second quarantines it, and a spare takes its port. -/
def State.encoderEvent (port : Nat) (s : State) : State :=
  match s.encoderOf port with
  | none => s
  | some e =>
    let u : UnitId := { cls := 2, num := e }
    let rest := s.units.events.filter (fun x => x.1 ≠ u)
    if s.units.events.any (fun x => x.1 = u) then { s with units := { s.units with events := rest } }.quarantineUnit 2 e
    else { s with units := { s.units with events := (u, 1) :: rest } }

/-! ## Streaming singletons (Table 15-2) -/

/-- A stop of a streaming singleton (Table 15-2): FAULT in an armed twin, a write abort in a single formatter that writes. -/
def State.streamingFault (s : State) : State :=
  if s.armedActive then s.sendFault
  else if s.forge.writing || (s.recsIn .sealed) ≠ [] then s.writeAbortAll.pumpTape
  else s

/-- The two copies of a streaming singleton disagree (R432). -/
def execStreamingSingletonFault (_cls : Fin 4) (s : State) : Host.Outcome State Fault Refusal := .next s.streamingFault

/-- A Smithy pair fails its lockstep comparison: it is quarantined while another is left, on which the task restarts (R432). -/
def execSmithyLockstepFault (pair : Fin 4) (s : State) : Host.Outcome State Fault Refusal :=
  .next (if 1 < s.unitsIn 6 4 then s.quarantineUnit 6 pair else s)

/-! ## Self-test commands (R364, R365) -/

/-- Class `cls` is selected by a scope mask; 0 selects every class (R364, R429). -/
def inScope (mask cls : Nat) : Bool := mask = 0 || bitAt mask (cls - 1)

def testStartBody (r : MbReq) (s : State) : State :=
  let p := mbData r
  match s.units.running with
  | some _ => s.refuse 0x0702 Status.sequenceError r
  | none =>
    let t : TestResult := { id := s.units.nextTest, kind := getLe p 0 1, scope := BitVec.ofNat 32 (getLe p 4 4), start := s.now }
    ({ s with units := { s.units with running := some t, nextTest := s.units.nextTest + 1 } }).done r.mb (leBytes 4 t.id.toNat)

def serveSelftestStart : MbReq → State → State :=
  mbChecks 0x0702 (sized 8) (fun p => (getLe p 0 1 = 1 || getLe p 0 1 = 2) && zeroAt p 1 3) 0 testStartBody

/-- SELFTEST_START (R364). -/
def execSelftestStart (r : MbReq) (s : State) : Host.Outcome State Fault Refusal := .next (mbGo 0x0702 r serveSelftestStart s)

def testAbortBody (r : MbReq) (s : State) : State :=
  match s.units.running with
  | some _ => (s.endSelfTest 2).done r.mb []
  | none => s.refuse 0x0703 Status.sequenceError r

def serveSelftestAbort : MbReq → State → State := mbChecks 0x0703 (sized 0) (fun _ => true) 0 testAbortBody

/-- SELFTEST_ABORT (R365). -/
def execSelftestAbort (r : MbReq) (s : State) : Host.Outcome State Fault Refusal := .next (mbGo 0x0703 r serveSelftestAbort s)

/-- The 32-byte record (Table 12-17). -/
def TestResult.bytes (t : TestResult) : Bytes :=
  leBytes 4 t.id.toNat ++ leBytes 1 t.kind ++ leBytes 1 t.outcome ++ zeros 2 ++ leBytes 4 t.scope.toNat ++ leBytes 4 t.tested
  ++ leBytes 4 t.failed ++ leBytes 4 t.yielded ++ leBytes 4 t.duration ++ leBytes 4 t.first

def testResultBody (r : MbReq) (s : State) : State :=
  let id := BitVec.ofNat 32 (getLe (mbData r) 0 4)
  let run := s.units.running.map (fun (t : TestResult) => { t with duration := msBetween t.start s.now })
  match (run.toList ++ s.units.results).find? (fun t => t.id = id) with
  | some t => s.done r.mb t.bytes
  | none => s.invalidOpen 0x0704 0 r

def serveSelftestResult : MbReq → State → State := mbChecks 0x0704 (sized 4) (fun _ => true) 0 testResultBody

/-- SELFTEST_RESULT (R365). -/
def execSelftestResult (r : MbReq) (s : State) : Host.Outcome State Fault Refusal := .next (mbGo 0x0704 r serveSelftestResult s)

/-- Units that a test of a kind runs (R364). -/
def testedUnits (kind mask : Nat) : Nat :=
  let pools := testedPools.filter (inScope mask)
  let ones := (singletons.filter (inScope mask)).length
  if kind = 1 then pools.length + ones else pools.foldl (fun a c => a + (unitCount c).getD 0) ones

/-- Failed units quarantined one after the other; a singleton's fault is handled as Table 15-2 says (R364, R435). -/
def failUnits : List (Nat × Nat) → State → State
  | [], s => s
  | (c, n) :: r, s =>
    failUnits r (if isSingleton c then (let s := s.quarantine c n; if c ≤ 0x13 then s.streamingFault else s) else s.quarantineUnit c n)

/-- The self-test ends with the units that failed, those that exist in its scope (R364). -/
def execSelftestDone (failed : List (Nat × Nat)) (s : State) : Host.Outcome State Fault Refusal :=
  .next (match s.units.running with
  | none => s
  | some t =>
    let bad := failed.filter (fun u => unitExists u.1 u.2 && inScope t.scope.toNat u.1)
    let s := failUnits bad s
    let first := match bad with
      | u :: _ => unitId u.1 u.2
      | [] => 0
    let t := { t with tested := testedUnits t.kind t.scope.toNat, failed := bad.length, first := first }
    { s with units := { s.units with running := some t } }.endSelfTest (if bad = [] then 0 else 1))

/-- A slice of a singleton's test (R436): a request that meets it is held in a short test, makes an extended one yield, up to 64
times in a row. -/
def execSingletonTestSlice (cls : Nat) (request : Bool) (s : State) : Host.Outcome State Fault Refusal :=
  .next (
    if !isSingleton cls then s
    else
      let hold := { s with units := { s.units with sliceHeld := s.units.sliceHeld + b2n request, slice := some (cls, 0) } }
      match s.units.running with
      | none => hold
      | some t =>
        let n := match s.units.slice with
          | some (c, k) => if c = cls then k else 0
          | none => 0
        if t.kind = 2 && request && n < 64 then
          let t := { t with yielded := t.yielded + 1 }
          { s with units := { s.units with running := some t, slice := some (cls, n + 1) } }
        else hold)

/-! ## Periodic tests (R437) -/

/-- A unit may be tested now: read-channel lanes with the tape stopped or turning, a Tongs lane while a spare is free, classes 0x11 to
0x13 while neither writing nor reading (Table 15-3). -/
def State.testableNow (s : State) (cls num : Nat) : Bool :=
  if cls = 5 then s.tapeStopped || s.motion.state = 5
  else if cls = 8 then ((s.port (num / 16)).spareFor (num % 16)).isSome && (s.port (num / 16)).swap.isNone
  else if 0x11 ≤ cls && cls ≤ 0x13 then !s.forge.writing && !s.rd.reading
  else true

/-- The next unit of a class in ascending order that is in service, from `n` on; Tongs lanes without a free spare are passed over. -/
def nextInService (s : State) (cls count n : Nat) : Option Nat :=
  (List.range count).findSome? (fun i => let u := (n + i) % count; if unitExists cls u && !(s.outUnits cls).contains u && (cls ≠ 8 || s.testableNow 8 u) then some u else none)

/-- Numbers that a class counts over; lane numbers run over 16 × 18. -/
def unitSpan (cls : Nat) : Nat := if cls = 8 then 288 else (unitCount cls).getD 1

/-- The periodic test of one class: 64 lanes at a time for class 0x05, one unit otherwise; a failing unit is quarantined. -/
def State.bistClass (cls : Nat) (fails : Bool) (s : State) : State :=
  match nextInService s cls (unitSpan cls) ((assocGet s.units.nextUnit cls).getD 0) with
    | none => s
    | some u => if !s.testableNow cls u then s else
      let next := if cls = 5 then (u / 64 * 64 + 64) % 1024 else (u + 1) % unitSpan cls
      let s := { s with units := { s.units with nextUnit := assocSet s.units.nextUnit cls next } }
      if fails then s.quarantineUnit cls u else s

/-- BIST_INTERVAL has passed: the next unit of each pooled class is tested; `failed` are the classes whose unit failed (R437). -/
def execBistIntervalTick (failed : List Nat) (s : State) : Host.Outcome State Fault Refusal :=
  .next (if s.param 0x0F0C0100 = 0 then s
    else testedPools.foldl (fun s c => s.bistClass c (failed.contains c)) s)

/-- The daily test of classes 0x11 to 0x13 at a stop of the tape (R437): a failure is the fault of a streaming singleton. -/
def execDailySingletonTest (failed : List (Fin 3)) (s : State) : Host.Outcome State Fault Refusal :=
  .next (if s.tapeStopped && !s.forge.writing && !s.rd.reading then
      if failed = [] then s
      else (failed.foldl (fun s k => s.quarantine (0x11 + k) 0) s).streamingFault
    else s)

end Sys2Proof.Machine
end

