-- ==== Sys2Proof/Machine/Hearth.lean ====
section
/-! DEFINITION. The Hearth in service: scheduling, refresh, row disturbance, power-down, training, error correction, scrub and
its status commands (R373 to R400). -/

namespace Sys2Proof.Machine

/-! ## Channels and panic -/

/-- Channel `c`. -/
def Hearth.chan (h : Hearth) (c : Nat) : HChan := (h.chans[c]?).getD {}

/-- Channel `c` changed. -/
def State.modChan (c : Nat) (f : HChan → HChan) (s : State) : State := { s with hearth := { s.hearth with chans := modAt s.hearth.chans c f } }

/-- Rank `r` of a channel changed. -/
def HChan.modRank (r : Nat) (f : Rank → Rank) (c : HChan) : HChan := { c with ranks := modAt c.ranks r f }

/-- The channel that serves a name of T: in mirror mode a pair's first channel, or its partner once the first has failed (R389). -/
def Hearth.serving (h : Hearth) (t : Nat) : Nat := if h.mirror then (if (h.chan (2 * t)).state = 3 || (h.chan (2 * t)).state = 4 then 2 * t + 1 else 2 * t) else t

/-- The forming feeder panics (R377). -/
def State.feedPanic (s : State) : Bool := s.forge.writing && decide (s.hearth.feedFifo < s.paramN 0x0D0F0100)

/-- Read-ahead fill panics (R377). -/
def State.raPanic (s : State) : Bool := s.rd.reading && decide (s.paramN 0x0D0F0200 < s.hearth.raFifo)

/-- A real-time port panics (R377). -/
def State.panic (s : State) : Bool := s.feedPanic || s.raPanic

/-! ## Scheduling (R376, Tables 13-6 and 13-7) -/

/-- Bucket of a reserved source and its share in bytes per 2 ns (Table 01-4). -/
def bucketOf (req : Nat) : Option (Nat × Nat) :=
  if req = 5 then some (0, 4) else if req = 7 || req = 8 || req = 9 then some (1, 3) else if req = 10 then some (2, 5)
  else if req = 11 then some (3, 8) else none

/-- Tokens of a bucket after `dt` ns of refill; it holds 64 KiB. -/
def Hearth.refilled (h : Hearth) (b share dt : Nat) : Nat := min 65536 ((assocGet h.tokens b).getD 65536 + share * dt / 2)

/-- The level of Table 13-7 at which a requester is served. -/
def State.levelOf (s : State) (req tokens : Nat) : Nat :=
  if req = 1 || req = 2 then (if s.panic then 2 else 3)
  else if req = 5 then (if s.feedPanic then 2 else if 64 ≤ tokens then 3 else 4)
  else if req = 10 then 3
  else if req = 7 || req = 8 || req = 9 then (if 64 ≤ tokens then 3 else 4)
  else if req = 11 then (if (s.forge.writing || s.rd.reading) && 64 ≤ tokens then 3 else 6)
  else if req = 12 || req = 13 then 6 else 4

/-- Every bucket refilled to the present time, and 64 bytes taken from a requester's (R376). -/
def State.takeTokens (req : Nat) (s : State) : State :=
  let now := 1000000000 * s.time.sec.toNat + s.time.ns.toNat
  let dt := now - s.hearth.tokenTime
  let h := s.hearth
  let all := [(0, 4), (1, 3), (2, 5), (3, 8)].map (fun (e : Nat × Nat) =>
    let v := h.refilled e.1 e.2 dt
    (e.1, if (bucketOf req).any (fun b => b.1 = e.1) then v - 64 else v))
  { s with hearth := { h with tokens := all, tokenTime := now } }

/-! ## Error correction (R390, R391) -/

/-- What a burst read gives. -/
inductive BurstRead where
  | clean (data : Bytes)
  | corrected (device : Nat) (data : Bytes)
  | bad
deriving DecidableEq, Repr

/-- The 80 symbols of a burst (R390). -/
def burstWord (data : Bytes) : Bytes := fit 64 data ++ rsParity 16 (fit 64 data)

/-- A burst with an error pattern read through the decoder: up to 8 symbols, all within one device (R391). -/
def readBurst (data : Bytes) (errs : List (Fin 80 × BitVec 8)) : BurstRead :=
  let w := errs.foldl (fun (w : Bytes) e => modAt w e.1 (· ^^^ e.2)) (burstWord data)
  match rsDecode 80 16 w [] 8 with
  | none => .bad
  | some (c, pos) =>
    match pos with
    | [] => .clean (c.take 64)
    | p :: r => if r.all (fun q => q / 8 = p / 8) then .corrected (p / 8) (c.take 64) else .bad

/-- Class D, the data pool, as opposed to class M (R392). -/
def classD (a : Nat) : Bool := decide (poolBase ≤ a)

/-! ## Loss of staged data (R319, R320, R394) -/

/-- OPEN records of a list are abandoned with BUFFER LOSS. -/
def loseOpen : List Rec → State → State
  | [], s => s
  | x :: r, s => loseOpen r (((s.deferError x.num Status.bufferLoss).endRec x.num .abandoned).mirror (.abandon x.num))

/-- Records for which `lost` holds lose staged bytes: BUFFER LOSS, the OPEN ones abandoned, the SEALED ones ended with a write
abort of the others (R319, R320). -/
def State.bufferLoss (lost : Rec → Bool) (s : State) : State :=
  let s := loseOpen ((s.recsIn .opened).filter lost) s
  if (s.recsIn .sealed).any lost then
    (s.writeAbort (fun x => if lost x then Status.bufferLoss else Status.abortedWriteAbort)).pumpTape
  else s

/-- The record has staged bytes in the chunk of a Hearth address. -/
def Rec.stagedAt (x : Rec) (G a : Nat) : Bool := x.chunks.any (fun c => c.2 = a / G)

/-- First address that held billet `i` of read-ahead takes: billets lie one behind another from the pool's base (log 34). -/
def billetBase (i : Nat) : Nat := poolBase + 103840 * i

/-- A read-ahead billet is treated as not complete, for the recovery ladder to reread (R387, R394). -/
def loseBillets (lost : Nat → Bool) (bs : List RBillet) : List RBillet :=
  bs.mapIdx (fun i b => if lost i then { b with state := .failed, frames := [], data := [], final := true } else b)

/-- Journal entries for which `lost` holds are gone, counted, each followed by a GAP entry (R448). -/
def State.loseEntries (lost : JnlEntry → Bool) (s : State) : State :=
  let gone := s.jnl.entries.filter lost
  let s := { s with jnl := { s.jnl with entries := s.jnl.entries.filter (fun e => !lost e), lost := s.jnl.lost + BitVec.ofNat 64 gone.length } }
  gone.foldr (fun e s => s.journal 0x0E 0 (leBytes 8 e.off ++ leBytes 8 (16 * (1 + cdiv e.payload.length 16)))) s

/-- The owner of a region meets an uncorrectable burst (Table 13-10). -/
def State.ownerMeets (req a : Nat) (s : State) : State :=
  if a < journalBase then s.stopFatal
  else if a < snapBase then
    s.loseEntries (fun e => journalBase + e.off ≤ a + 63 && a < journalBase + e.off + 16 * (1 + cdiv e.payload.length 16))
  else if a < poolBase then
    { s with jnl := { s.jnl with rings := s.jnl.rings.filter (fun x =>
        let base := snapBase + 4 * gib * x.1 + x.2.1
        !(base ≤ a + 63 && a < base + 160)) } }
  else if req = 2 then { s with rd := { s.rd with billets := loseBillets (fun i => i = (a - poolBase) / 103840) s.rd.billets } }
  else if req = 6 then { s with twin := { s.twin with resends := s.twin.resends + 1 } }
  else if req = 3 || req = 4 then s
  else s.bufferLoss (fun x => x.stagedAt s.hearth.G a)

/-! ## Counters, scale log, retraining schedule (R386, R392, R393) -/

/-- A channel in service is scheduled for full retraining (R386). -/
def HChan.schedule (c : HChan) : HChan := if c.state = 0 || c.state = 5 then { c with state := 2 } else c

/-- A correction counted on a channel, and the hourly limit HRT_CE_RETRAIN (R386, R392). -/
def HChan.countCorrected (d : Bool) (limit now : Nat) (c : HChan) : HChan :=
  let c := if d then { c with corrD := satAdd 64 c.corrD 1 } else { c with corrM := satAdd 64 c.corrM 1 }
  let fresh := c.hourStart + 3600 * 1000000000 ≤ now
  let c := if fresh then { c with hourStart := now, hourCorr := 1 } else { c with hourCorr := c.hourCorr + 1 }
  if limit < c.hourCorr then c.schedule else c

/-- An uncorrectable burst counted; two different rows within 1 s schedule a full retraining (R386). -/
def HChan.countBad (row now : Nat) (c : HChan) : HChan :=
  let two := c.lastBadRow.any (fun e => e.1 ≠ row && now < e.2 + 1000000000)
  let c := { c with uncorr := satAdd 32 c.uncorr 1, lastBadRow := some (row, now) }
  if two then c.schedule else c

/-- A correction in class M enters the scale log (R393); `repaired` says that the burst was rewritten. -/
def Hearth.logScale (h : Hearth) (a chan device req : Nat) (d : DramAddr) (repaired : Bool) (time : BitVec 64) : Hearth :=
  if h.scale.any (fun e => e.addr = a) then
    { h with scale := h.scale.map (fun (e : ScaleEntry) =>
        if e.addr = a then { e with count := min 65535 (e.count + 1), recurrent := e.recurrent || e.repaired,
                                    repaired := e.repaired || repaired, device := device, requester := req, time := time } else e) }
  else if h.scale.length < 32 then
    let e : ScaleEntry := { addr := a, chan := chan, subRank := d.sub + 2 * d.rank, device := device, bank := d.group + 8 * d.bank,
                            row := d.row, count := 1, repaired := repaired, requester := req, time := time }
    { h with scale := h.scale ++ [e] }
  else { h with scaleOver := satAdd 32 h.scaleOver 1 }

/-- Time in nanoseconds, as the counters of this chapter use it. -/
def State.hns (s : State) : Nat := 1000000000 * s.time.sec.toNat + s.time.ns.toNat

/-- A burst is a bus error from now on, until a whole-burst write replaces it (R394). -/
def State.markBad (a : Nat) (s : State) : State :=
  { s with hearth := { s.hearth with bad := (a / 64) :: s.hearth.bad.filter (· ≠ a / 64) } }

/-- The stored burst of an address. -/
def Hearth.burst (h : Hearth) (a : Nat) : Bytes := Mem.reads h.mem (a / 64 * 64) 64

/-- A corrected burst: counted, and in class M entered in the scale log and rewritten (R392). -/
def State.corrected (a chan device req : Nat) (d : DramAddr) (rewrite : Bool) (s : State) : State :=
  let s := s.modChan chan (HChan.countCorrected (classD a) (s.paramN 0x0D0F0700) s.hns)
  if classD a then s else { s with hearth := s.hearth.logScale (a / 64 * 64) chan device req d rewrite s.now }

/-- A burst met through ECC by a requester: corrected, or a bus error with its outcome; a second copy, in mirror mode or in the
system region, serves where it is good (R389, R391, R394). Tells whether the burst was found uncorrectable in every copy. -/
def State.meetBurst (req a chan : Nat) (d : DramAddr) (errs errs2 : List (Fin 80 × BitVec 8)) (s : State) : State × Bool :=
  let stored := s.hearth.burst a
  let one := if s.hearth.bad.contains (a / 64) then BurstRead.bad else readBurst stored errs
  match one with
  | .clean _ => (s, false)
  | .corrected dev _ => (s.corrected a chan dev req d (!classD a) , false)
  | .bad =>
    let two := s.hearth.mirror || a < journalBase
    let rescued := two && !s.hearth.bad.contains (a / 64) && (match readBurst stored errs2 with
      | .bad => false
      | _ => true)
    let s := s.modChan chan (HChan.countBad d.row s.hns)
    -- in mirror mode a class D requester notices nothing (Table 13-10)
    if rescued then (if classD a then s else s.uncorrectable (a / 64 * 64) req, false)
    else
      let s := (s.markBad a).uncorrectable (a / 64 * 64) req
      (s.ownerMeets req (a / 64 * 64), true)

/-! ## One access (R374 to R382) -/

/-- Key of a bank within a channel: sub-channel, rank, bank group, bank. -/
def bankKey (d : DramAddr) : Nat := 64 * d.sub + 32 * d.rank + 4 * d.group + d.bank

/-- A count kept for a key, raised by one. -/
def bump (l : List (Nat × Nat)) (k : Nat) : List (Nat × Nat) := assocSet l k ((assocGet l k).getD 0 + 1)

/-- The rolling activation count of a bank, with RFMab at the device's thresholds (R381): at the initial one at level 5 unless a
panic postpones it, at the maximum one at level 1. -/
def HChan.activate (panic : Bool) (key : Nat) (c : HChan) : HChan :=
  let n := (assocGet c.raa key).getD 0 + 1
  let init := Config.rfmInitial
  let due := init ≠ 0 && init ≤ n && (!panic || Config.rfmMaximum ≤ n)
  { c with raa := assocSet c.raa key (if due then n - init else n), rfm := if due then satAdd 32 c.rfm 1 else c.rfm }

/-- The summary of a sub-channel's most activated rows with one more activation; a full summary drops its least active row (R382,
log 35). -/
def hotAdd (hot : List (Nat × Nat × Nat)) (sub row : Nat) : List (Nat × Nat × Nat) × Nat :=
  match hot.find? (fun e => e.1 = sub && e.2.1 = row) with
  | some e => ((sub, row, e.2.2 + 1) :: hot.filter (fun x => !(x.1 = sub && x.2.1 = row)), e.2.2 + 1)
  | none =>
    let mine := hot.filter (fun x => x.1 = sub)
    let least := mine.foldl (fun m x => min m x.2.2) (2 ^ 32)
    let kept := if mine.length < 128 then hot else
      match hot.find? (fun x => x.1 = sub && x.2.2 = least) with
      | some v => hot.erase v
      | none => hot
    ((sub, row, 1) :: kept, 1)

/-- Requesters that R382 limits. -/
def throttledKind (req : Nat) : Bool := req = 3 || req = 4 || req = 6 || req = 7 || req = 8 || req = 9

/-- The activation of a row by a requester, with the hot-row rule (R382). -/
def HChan.hotRow (limit req : Nat) (d : DramAddr) (c : HChan) : HChan :=
  let key := 2 ^ 20 * bankKey d + d.row
  let r := hotAdd c.hot d.sub key
  let c := { c with hot := r.1 }
  if r.2 = limit then
    if throttledKind req then { c with throttles := satAdd 32 c.throttles 1, throttled := (req, bankKey d) :: c.throttled }
    else { c with rfm := satAdd 32 c.rfm 1 }
  else c

/-- One access of a requester to a burst: `kind` 0 a read, 1 a whole-burst write, 2 a partial write; `errs` and `errs2` are the
symbols that the burst and its second copy return in error; `feed` and `ra` are the FIFO levels of the real-time ports (R376).
While a port panics, levels 4 and 6 are not served (R377). -/
def execHearthAccess (req addr : Nat) (kind : Fin 3) (errs errs2 : List (Fin 80 × BitVec 8)) (feed ra : Nat) (s : State) :
    Host.Outcome State Fault Refusal :=
  .next (
    let s := { s with hearth := { s.hearth with feedFifo := min feed 524288, raFifo := min ra 1048576 } }
    match s.hearth.place addr with
    | none => s
    | some (t, u) =>
      let d := s.hearth.dram u
      let c := s.hearth.serving t
      let tokens := match bucketOf req with
        | some b => s.hearth.refilled b.1 b.2 (s.hns - s.hearth.tokenTime)
        | none => 0
      let level := s.levelOf req tokens
      let blocked := s.hearth.selfRefresh || (s.hearth.chan c).state = 1 || (s.panic && (level = 4 || level = 6))
      if blocked then s
      else
        let s := s.takeTokens req
        let s := s.modChan c (fun ch =>
          ((ch.modRank (2 * d.sub + d.rank) (fun r => { r with powerDown := false })).activate s.panic (bankKey d)).hotRow
            (s.paramN 0x0D0F0400) req d)
        if kind = 1 then { s with hearth := { s.hearth with bad := s.hearth.bad.filter (· ≠ addr / 64) } }
        else (s.meetBurst req addr c d errs errs2).1)

/-! ## Refresh and power-down (R378, R379, R383) -/

/-- A refresh of a rank is due (R378): postponed while a port panics, forced at a debt of 4, otherwise issued, and one owed
refresh paid. -/
def execRefreshDue (chan : Fin 8) (rank : Fin 4) (s : State) : Host.Outcome State Fault Refusal :=
  .next (
    let r := ((s.hearth.chan chan).ranks[rank.toNat]?).getD {}
    let up := fun (x : Rank) => { x with powerDown := false }
    if s.hearth.selfRefresh then s
    else if s.panic then
      if r.debt < 4 then s.modChan chan (fun c => c.modRank rank (fun x => { up x with debt := x.debt + 1 }))
      else s.modChan chan (fun c => { c.modRank rank up with forced := satAdd 32 c.forced 1 })
    else s.modChan chan (fun c => c.modRank rank (fun x => { up x with debt := x.debt - 1 })))

/-- Every rank of a channel changed. -/
def HChan.mapRanks (f : Rank → Rank) (c : HChan) : HChan := { c with ranks := c.ranks.map f }

/-- The refresh-rate indicators of every rank (R378, R379): the change to the doubled rate converts every debt to 2 × d and pays it
at once; the change back halves it; an indicator above the doubled rate posts THERMAL. -/
def execRefreshRateIndicatorRead (doubled above : Bool) (s : State) : Host.Outcome State Fault Refusal :=
  .next (
    let fast := doubled || above
    let h := s.hearth
    let pay := fun (r : Rank) => { r with debt := 0, powerDown := false }
    let chans := if fast && !h.doubled then
        h.chans.map (fun (c : HChan) => if c.state = 3 || c.state = 4 then c else { c.mapRanks pay with conversions := satAdd 32 c.conversions 1 })
      else if !fast && h.doubled then h.chans.map (HChan.mapRanks (fun r => { r with debt := (r.debt + 1) / 2 }))
      else h.chans
    let s := { s with hearth := { h with doubled := fast, chans := chans } }
    if above then s.event 0x0409 (ofSigned 64 s.pvt.temp) 0 else s)

/-- Every 32 ms a sub-channel clears its summary; its throttles end (R382). -/
def execHotRowWindowClear (chan : Fin 8) (sub : Fin 2) (s : State) : Host.Outcome State Fault Refusal :=
  .next (s.modChan chan (fun c => { c with hot := c.hot.filter (fun e => e.1 ≠ sub), throttled := c.throttled.filter (fun e => e.2 / 64 ≠ sub) }))

/-- A rank without a queued request for HRT_PD_IDLE enters power-down, unless a port panics or it owes refresh (R383). -/
def execRankPowerDown (chan : Fin 8) (rank : Fin 4) (s : State) : Host.Outcome State Fault Refusal :=
  .next (if s.param 0x0D0F0300 = 0 || s.panic || s.hearth.selfRefresh then s
    else s.modChan chan (fun c => c.modRank rank (fun r => if r.debt = 0 then { r with powerDown := true } else r)))

/-! ## Training (R384 to R388) -/

/-- The DQS oscillator of a rank shows a drift since the last update, in ps (R385): 2 ps or more move its write delays in a
micro-retraining slot, at a debt of 0 with no panic; drift beyond half the write eye schedules a full retraining (R386). -/
def execDqsOscillator (chan : Fin 8) (rank : Fin 4) (drift : Int) (s : State) : Host.Outcome State Fault Refusal :=
  .next (s.modChan chan (fun (c : HChan) =>
    let r := (c.ranks[rank.toNat]?).getD {}
    if c.state = 3 || c.state = 4 then c
    else if 2 ≤ drift.natAbs && r.debt = 0 && !s.panic then
      let c : HChan := { c.modRank rank (fun r => { r with drift := 0, powerDown := false }) with
        microSlots := satAdd 32 c.microSlots 1, drift := c.drift + drift }
      if c.wEye.toNat < 2 * c.drift.natAbs then c.schedule else c
    else c.modRank rank (fun r => { r with drift := drift })))

/-- A scheduled full retraining begins; one channel is retrained at a time (R386). -/
def execFullRetrainingStart (chan : Fin 8) (s : State) : Host.Outcome State Fault Refusal :=
  .next (if (s.hearth.chan chan).state = 2 && s.hearth.chans.all (fun c => c.state ≠ 1) then
      s.modChan chan (fun c => { c with state := 1 })
    else s)

/-- State of a channel in service: with a failed mirror partner, or without (Table 13-14). -/
def Hearth.serviceState (h : Hearth) (c : Nat) : Nat :=
  let mate := if c % 2 = 0 then c + 1 else c - 1
  if h.mirror && (h.chan mate).state = 3 then 5 else 0

/-- A channel after a full training that succeeded (R384, R386). -/
def HChan.trained (c : HChan) (e : Eyes) (now : BitVec 32) (state : Nat) : HChan :=
  { c.mapRanks (fun r => { r with drift := 0 }) with
    state := state, retrainings := satAdd 16 c.retrainings 1, wEye := e.write, rEye := e.read, vref := e.vref, drift := 0,
    trainedAt := now, hourCorr := 0 }

/-- A channel fails: holes in T unless a mirror partner survives, HEARTH_CHANNEL_FAILED, and the loss settled (R370, R387, R389). -/
def State.failChannel (c : Nat) (s : State) : State :=
  let s := s.modChan c (fun x => { x with state := 3 })
  let mate := if c % 2 = 0 then c + 1 else c - 1
  let h := s.hearth
  if h.mirror && (h.chan mate).state ≠ 3 && (h.chan mate).state ≠ 4 then
    (s.modChan mate (fun x => if x.state = 0 then { x with state := 5 } else x)).event 0x0403 c 0
  else
    let name := if h.mirror then c / 2 else c
    let s := { s with hearth := { h with rot := h.rot.map (fun e => if e = some name then none else e) } }
    let s := s.event 0x0403 c 0
    let hole := fun (a : Nat) => (s.hearth.place a).isNone
    let s := s.loseEntries (fun e => hole (journalBase + e.off))
    let s := { s with rd := { s.rd with billets := loseBillets (fun i =>
        (List.range (103840 / s.hearth.G + 2)).any (fun k => hole (billetBase i + k * s.hearth.G))) s.rd.billets } }
    let lost := fun (x : Rec) => x.chunks.any (fun e => hole (e.2 * s.hearth.G))
    if s.armedActive && s.recs.recs.any lost then s.sendFault else s.bufferLoss lost

/-- The end of a full retraining (R386, R387). -/
def execFullRetrainingEnd (chan : Fin 8) (ok : Bool) (eyes : Eyes) (s : State) : Host.Outcome State Fault Refusal :=
  .next (if (s.hearth.chan chan).state ≠ 1 then s
    else if ok then s.modChan chan (fun c => c.trained eyes s.nowSec (s.hearth.serviceState chan))
    else s.failChannel chan)

/-! ## Scrub (R397) -/

/-- Live chunks among the first `k` of the address map. -/
def Hearth.liveChunks (h : Hearth) (k : Nat) : Nat :=
  let len := max 1 h.rot.length
  let live := fun (l : List (Option Nat)) => (l.filter (·.isSome)).length
  k / len * live h.rot + live (h.rot.take (k % len))

/-- Bursts below burst number `b` that lie in no hole. -/
def Hearth.liveBursts (h : Hearth) (b : Nat) : Nat :=
  let per := h.G / 64
  let k := b / per
  h.liveChunks k * per + (if ((h.rot[k % max 1 h.rot.length]?).join).isSome then b % per else 0)

/-- Copies read of the bursts `[lo, hi)`: two in mirror mode and in the system region (R397). -/
def Hearth.copiesRead (h : Hearth) (lo hi : Nat) : Nat :=
  let n := h.liveBursts hi - h.liveBursts lo
  let sys := journalBase / 64
  if h.mirror then 2 * n else n + (h.liveBursts (min hi sys) - h.liveBursts (min lo sys))

def scrubBody (r : MbReq) (s : State) : State :=
  let p := mbData r
  let start := getLe p 0 8
  let len := getLe p 8 8
  if s.hearth.scrub.isSome then s.refuse 0x0401 Status.sequenceError r
  else if start % 64 ≠ 0 || len % 64 ≠ 0 || len = 0 || s.hearth.limit < start + len then s.invalidOpen 0x0401 0 r
  else
    let sc : Scrub := { mb := r.mb.toNat, start := start, len := len, repair := getLe p 16 4 = 1, time := s.now }
    { s with hearth := { s.hearth with scrub := some sc } }

def serveScrub : MbReq → State → State := mbChecks 0x0401 (sized 24) (fun p => getLe p 16 4 ≤ 1 && zeroAt p 20 4) 0 scrubBody

/-- SCRUB (R397): it begins; its end is a command of its own. -/
def execScrub (r : MbReq) (s : State) : Host.Outcome State Fault Refusal := .next (mbGo 0x0401 r serveScrub s)

/-- A burst the scrub found other than clean: classified, repaired where asked, its outcome that of the region's owner. -/
def scrubHit (sc : Scrub) (x : ScrubHit) (s : State) : Scrub × State :=
  match s.hearth.place x.addr with
  | none => (sc, s)
  | some (t, u) =>
    if !(sc.start ≤ x.addr && x.addr < sc.start + sc.len) then (sc, s)
    else
      let c := s.hearth.serving t
      let d := s.hearth.dram u
      let kind := if s.hearth.bad.contains (x.addr / 64) then BurstRead.bad else readBurst (s.hearth.burst x.addr) x.errs
      let r := s.meetBurst 11 x.addr c d x.errs x.errs2
      match kind with
      | .clean _ => (sc, s)
      | .corrected _ _ =>
        let m := !classD x.addr
        let repairs := sc.repair || m
        ({ sc with corrD := sc.corrD + b2n (!m), corrM := sc.corrM + b2n m, repaired := sc.repaired + b2n (repairs && !x.overwritten),
                   abandoned := sc.abandoned + b2n (repairs && x.overwritten) }, r.1)
      | .bad =>
        if r.2 then ({ sc with uncorr := sc.uncorr + 1, firstBad := some (min (x.addr / 64 * 64) (sc.firstBad.getD (x.addr / 64 * 64))) }, r.1)
        else (sc, r.1)

/-- The hits of a scrub in order. -/
def scrubHits : List ScrubHit → Scrub → State → Scrub × State
  | [], sc, s => (sc, s)
  | x :: rest, sc, s =>
    let r := scrubHit sc x s
    scrubHits rest r.1 r.2

/-- Table 13-12. -/
def Scrub.bytes (sc : Scrub) (now : BitVec 64) : Bytes :=
  leBytes 8 sc.start ++ leBytes 8 sc.len ++ leBytes 8 sc.read ++ leBytes 8 sc.skipped ++ leBytes 4 sc.corrD ++ leBytes 4 sc.corrM
  ++ leBytes 4 sc.uncorr ++ leBytes 4 sc.repaired ++ leBytes 4 sc.abandoned ++ leBytes 4 (msBetween sc.time now) ++ optBytes 8 sc.firstBad

/-- The scrub has read its range: summary and SCRUB_DONE (R397). -/
def execScrubDone (found : List ScrubHit) (s : State) : Host.Outcome State Fault Refusal :=
  .next (match s.hearth.scrub with
  | none => s
  | some sc =>
    let lo := sc.start / 64
    let hi := (sc.start + sc.len) / 64
    let sc := { sc with read := s.hearth.copiesRead lo hi, skipped := hi - lo - (s.hearth.liveBursts hi - s.hearth.liveBursts lo) }
    let s := { s with hearth := { s.hearth with scrub := none } }
    let r := scrubHits found sc s
    let id := (s.mbox sc.mb).seq
    (r.2.done sc.mb (r.1.bytes s.now)).event 0x0404 id.toNat 0)

/-! ## Status commands (R398, R399) -/

/-- A scale-log entry as 32 bytes (Table 13-13). -/
def ScaleEntry.bytes (e : ScaleEntry) : Bytes :=
  leBytes 8 e.addr ++ leBytes 1 e.chan ++ leBytes 1 e.subRank ++ leBytes 1 e.device ++ leBytes 1 e.bank ++ leBytes 4 e.row
  ++ leBytes 2 e.count ++ leBytes 1 (b2n e.recurrent + 2 * b2n e.repaired) ++ leBytes 1 e.requester ++ zeros 4 ++ leBytes 8 e.time.toNat

def scaleReadBody (r : MbReq) (s : State) : State :=
  let h := s.hearth
  let b := leBytes 1 h.scale.length ++ zeros 3 ++ leBytes 4 h.scaleOver.toNat ++ zeros 8 ++ fit 1024 (h.scale.flatMap ScaleEntry.bytes)
  (if r.flags = 1 then { s with hearth := { h with scale := [], scaleOver := 0 } } else s).done r.mb b

def serveScaleLogRead : MbReq → State → State := mbChecks 0x0402 (sized 0) (fun _ => true) 0 scaleReadBody

/-- SCALE_LOG_READ (R398). -/
def execScaleLogRead (r : MbReq) (s : State) : Host.Outcome State Fault Refusal := .next (mbGo 0x0402 r serveScaleLogRead s)

/-- The configuration record in force (Table 13-3). -/
def Hearth.record (h : Hearth) : Bytes :=
  ascii "HCFG" ++ leBytes 1 h.rate ++ leBytes 1 h.density ++ leBytes 1 h.nranks ++ leBytes 1 h.grain ++ leBytes 1 (b2n h.mirror) ++ zeros 3
  ++ leBytes 4 h.cfgCrc.toNat

/-- Table 13-14. -/
def HChan.bytes (c : HChan) (doubled : Bool) : Bytes :=
  leBytes 1 c.state ++ leBytes 1 (b2n doubled) ++ leBytes 2 c.retrainings.toNat ++ leBytes 4 c.microSlots.toNat ++ leBytes 8 c.corrD.toNat
  ++ leBytes 8 c.corrM.toNat ++ leBytes 4 c.uncorr.toNat ++ leBytes 4 c.conversions.toNat ++ leBytes 4 c.forced.toNat ++ leBytes 4 c.rfm.toNat
  ++ leBytes 4 c.throttles.toNat ++ leBytes 2 c.wEye.toNat ++ leBytes 2 c.rEye.toNat ++ leBytes 2 c.vref.toNat ++ leBytes 2 (ofSigned 16 c.drift)
  ++ leBytes 4 c.trainedAt.toNat ++ zeros 8

/-- The counters of a channel cleared (R399). -/
def HChan.cleared (c : HChan) : HChan :=
  { c with retrainings := 0, microSlots := 0, corrD := 0, corrM := 0, uncorr := 0, conversions := 0, forced := 0, rfm := 0, throttles := 0 }

/-- The 64-byte header (R399). -/
def State.hearthHeader (s : State) : Bytes :=
  let h := s.hearth
  let holes := bitMask ((List.range 8).filter (fun n => (h.chan n).state = 3))
  let lone := bitMask ((List.range 4).filter (fun n => h.mirror && ((h.chan (2 * n)).state = 5 || (h.chan (2 * n + 1)).state = 5)))
  let working := (h.chans.filter (fun c => c.state ≠ 3 && c.state ≠ 4)).length
  h.record ++ leBytes 1 working ++ leBytes 1 h.rot.length ++ leBytes 1 holes ++ leBytes 1 lone ++ zeros 4 ++ leBytes 8 h.poolBytes
  ++ leBytes 8 h.freeBytes ++ leBytes 8 s.rd.raBytes ++ zeros 16

def hearthStatusBody (r : MbReq) (s : State) : State :=
  let b := s.hearthHeader ++ s.hearth.chans.flatMap (fun c => c.bytes s.hearth.doubled)
  (if r.flags = 1 then { s with hearth := { s.hearth with chans := s.hearth.chans.map HChan.cleared } } else s).done r.mb b

def serveHearthChannelStatus : MbReq → State → State := mbChecks 0x0403 (sized 0) (fun _ => true) 0 hearthStatusBody

/-- HEARTH_CHANNEL_STATUS (R399). -/
def execHearthChannelStatus (r : MbReq) (s : State) : Host.Outcome State Fault Refusal := .next (mbGo 0x0403 r serveHearthChannelStatus s)

end Sys2Proof.Machine
end

