-- ==== Sys2Proof/Machine/Forge.lean ====
section
/-! DEFINITION. Forming: CUs compressed and sealed, items packed into billets, billet heats with C2, C3 and C1 up to the encoders,
re-forming, compression statistics (R60 to R67, R104, R114 to R122, R136, R234 to R237, R244, R248 to R252, R328). -/

namespace Sys2Proof.Machine

/-! ## Compression of the next CU (R114, R115, R234 to R237, R328) -/

/-- Sealed records in seal order up to the first that a lower OPEN record holds back (R114, R299). -/
def State.sealOrder (s : State) : List Rec :=
  ((s.recs.sealQ.filterMap (fun i => match i with
    | .record n => s.rec? n
    | .closeMark _ => none)).filter (fun x => x.state = .sealed)).takeWhile (fun x => match s.lowestOpen with
      | some n => decide (x.num < n)
      | none => true)

/-- The forming state of a CU of a record; a CU not yet begun has the default. -/
def Rec.cu (x : Rec) (i : Nat) : CuForm := (x.cus.find? (fun c => c.idx = i)).getD { idx := i }

/-- The forming state of CU `i` of record `r` changed. -/
def State.modCu (r i : Nat) (f : CuForm → CuForm) (s : State) : State :=
  s.modRec r (fun x => { x with cus := x.cus.filter (fun c => c.idx ≠ i) ++ [f (x.cu i)] })

/-- First CU in seal order and index order with a property. -/
def State.firstCu (s : State) (p : CuForm → Bool) : Option (Rec × Nat) :=
  s.sealOrder.findSome? (fun x => ((List.range (cuCount x.len)).find? (fun i => p (x.cu i))).map (fun i => (x, i)))

/-- CUs in the 32 output buffers: compressed, not the stored encoding, not yet sealed (R234). -/
def State.buffersUsed (s : State) : Nat :=
  s.recs.recs.foldl (fun n x => n + (x.cus.filter (fun c => c.comp.isSome && !c.stored)).length) 0

/-- Raw bytes of a CU through the forming feeder (requester 1), or none where an uncorrectable burst or a hole answers. -/
def Hearth.rawCu (h : Hearth) (x : Rec) (i : Nat) : Except Nat Bytes :=
  let lo := 262144 * i
  let n := cuRaw x.len i
  match h.busError ((h.bursts x.chunks lo (lo + n)).map Prod.fst) with
  | some a => .error a
  | none => .ok (h.stageRead x.chunks lo n)

/-- A digest entry (Table 11-7). -/
def digestEntry (i : Nat) (rawCrc : BitVec 32) (c : Nat) (crc : BitVec 32) : Bytes :=
  leBytes 2 i ++ zeros 2 ++ leBytes 4 rawCrc.toNat ++ leBytes 4 c ++ leBytes 4 crc.toNat

/-- The digest entry of a CU goes to the host, once, unless one of the record has failed (R328). -/
def State.sendDigest (x : Rec) (i : Nat) (e : Bytes) (ok : Bool) (s : State) : State :=
  if x.digestAddr = 0 || x.digestFailed then s
  else if ok then s.emit (.dma (x.digestAddr + BitVec.ofNat 64 (16 * i)) e)
  else s.deferError x.num Status.dataTransferError

/-- The checked output of an engine becomes the CU's compressed form with its digest (R237). -/
def State.takeOutput (x : Rec) (i engine : Nat) (raw : Bytes) (io : Io) (s : State) : State :=
  let d := deflate x.setting.toNat raw
  let crc := crc32c d.out
  let rawCrc := crc32c raw
  let s := s.modCu x.num i (fun c => { c with
    comp := some d.out, stored := decide (d.how ≠ Fallback.none), c := d.out.length, crc := crc, engine := engine, rawCrc := rawCrc })
  let s := { s with comp := { s.comp with
    probeAb := if d.how = Fallback.probe then satAdd 32 s.comp.probeAb 1 else s.comp.probeAb,
    lateAb := if d.how = Fallback.late then satAdd 32 s.comp.lateAb 1 else s.comp.lateAb } }
  (s.mirror (.digest x.num i d.out.length crc rawCrc engine)).sendDigest x i (digestEntry i rawCrc d.out.length crc) io.ok

/-- An engine's check has found a mismatch: the attempt is discarded, the engine quarantined, the CU runs on another (R236). -/
def State.engineFails (x : Rec) (engine : Nat) (s : State) : State :=
  let s := { s with comp := { s.comp with mismatches := satAdd 32 s.comp.mismatches 1 } }
  (s.event 0x0400 engine x.num).quarantineUnit 3 engine

/-- A compression engine runs the next CU; `mismatch`: its checking decompressor finds a difference (R114, R225, R235, R236). -/
def execCuCompress (engine : Fin 24) (mismatch : Bool) (io : Io) (s : State) : Host.Outcome State Fault Refusal :=
  let s := s.withIo io
  .next (match s.firstCu (fun c => c.comp.isNone && c.item.isNone) with
  | none => s
  | some (x, i) =>
    if !s.forge.writing || (s.outUnits 3).contains engine || 32 ≤ s.buffersUsed then s
    else match s.hearth.rawCu x i with
      | .error a => (s.uncorrectable a 1).bufferLoss (fun y => y.num = x.num)
      | .ok raw => if mismatch then s.engineFails x engine else s.takeOutput x i engine raw io)

/-! ## Sealing (R116, R246 to R252, Table 02-10) -/

/-- The descriptor of a record (Table 02-9). -/
def Rec.descriptor (x : Rec) : Bytes :=
  descriptorBytes x.encrypted x.mark x.setting.toNat x.num x.len (cuCount x.len) x.label x.openTime.toNat

/-- The slot key of a record's captured generation. -/
def State.recKey (s : State) (x : Rec) : Bytes :=
  let k := (s.sec.slots[x.slot]?).getD {}
  (((k.cur.toList ++ k.old.toList).find? (fun g => g.gen = x.gen)).map KeyGen.key).getD []

/-- IV of a CU (R250). -/
def cuIv (session num i : Nat) : Bytes := beBytes 4 session ++ beBytes 8 (2 ^ 24 * num + i)

/-- The sealed item of a CU from its compressed bytes: header, ciphertext, tag field (R65, R116, R248, R252). -/
def State.sealItem (s : State) (x : Rec) (i : Nat) (c : Bytes) : Bytes :=
  let l := 16 * cdiv c.length 16
  let head := cuHeader (i + 1 = cuCount x.len) i l (cuRaw x.len i) c.length
  let plain := fit l c
  if x.encrypted then
    let key := dataKey (s.recKey x) s.cart.image.serial x.label
    let r := gcmSeal key (cuIv s.cart.image.session x.num i) (head ++ x.descriptor.take 16) plain
    head ++ r.1 ++ r.2
  else head ++ plain ++ beBytes 4 (crc32c plain).toNat ++ zeros 12

/-- The tag field of a sealed item: its last 16 bytes. -/
def itemTag (item : Bytes) : Bytes := item.drop (item.length - 16)

/-- Statistics of a CU sealed (Table 08-6). -/
def Comp.sealed (m : Comp) (c : CuForm) (raw : Nat) : Comp :=
  { m with compressed := if c.stored then m.compressed else satAdd 64 m.compressed 1,
           stored := if c.stored then satAdd 64 m.stored 1 else m.stored,
           rawBytes := satAdd 64 m.rawBytes raw, cBytes := satAdd 64 m.cBytes c.c }

/-- A lockstep fault of an AES pair: counted, LOCKSTEP_FAULT, the pair leaves service and the CU is sealed by another (R246). -/
def State.lockstepFault (pair : Nat) (s : State) : State :=
  let s := { s with sec := { s.sec with lockstep := satAdd 32 s.sec.lockstep 1 } }
  (s.secCause 4 pair).quarantineUnit 4 pair

/-- An AES pair seals the next compressed CU (R114, R246, R248). -/
def execCuSeal (pair : Fin 80) (mismatch : Bool) (s : State) : Host.Outcome State Fault Refusal :=
  .next (match s.firstCu (fun c => c.comp.isSome) with
  | none => s
  | some (x, i) =>
    if !s.forge.writing || !s.sec.pairs.contains pair.toNat then s
    else if mismatch then s.lockstepFault pair
    else
      let c := x.cu i
      let item := s.sealItem x i (c.comp.getD [])
      let s := s.modCu x.num i (fun c => { c with comp := none, item := some item, tag := itemTag item })
      { s with comp := s.comp.sealed c (cuRaw x.len i) })

/-! ## The packer (R66, R67, R114, R117) -/

/-- What the packer reads: records by number, the sealed item of a CU, the numbers an OPEN record holds back (R299). -/
structure PackCtx where
  record : Nat → Option Rec
  item : Rec → Nat → Option Bytes
  held : Nat → Bool

/-- The packer inside a billet: where it stands, the seal queue ahead, and what the billet holds so far. `pos` is none at a record
boundary. -/
structure PackState where
  pos : Option PackPos
  queue : List SealItem
  body : Bytes := []
  descs : Nat := 0
  firstDesc : Option Nat := none
  recs : List Nat := []
  trailers : List Nat := []
deriving DecidableEq, Repr

/-- Why the packer stops in a billet. -/
inductive PackEnd where
  | full
  | starved
  | mark
  | drained
deriving DecidableEq, Repr

/-- Item bytes of record `n` put into the billet. -/
def PackState.emit (p : PackState) (n : Nat) (b : Bytes) : PackState :=
  { p with body := p.body ++ b, recs := if p.recs.contains n then p.recs else p.recs ++ [n] }

/-- Where the packer goes after CU `i` of a record of `k` CUs: the next CU's header, or the trailer. -/
def afterCu (n i k : Nat) : PackPos := if i + 1 < k then { num := n, part := 1, cu := i + 1 } else { num := n, part := 3, cu := k }

/-- CRC-32C over the tag fields of a record's CUs in CU order, 0 for a mark record (Table 02-11). -/
def PackCtx.chain (c : PackCtx) (x : Rec) : BitVec 32 :=
  if x.mark then 0 else crc32c ((List.range (cuCount x.len)).flatMap (fun i => itemTag ((c.item x i).getD [])))

/-- The next piece into a billet with `space` bytes left (R66). -/
def packPiece (c : PackCtx) (space : Nat) (p : PackState) : Except PackEnd PackState :=
  match p.pos with
  | none =>
    match p.queue with
    | [] => .error .drained
    | .closeMark _ :: _ => .error .mark
    | .record n :: rest =>
      if c.held n then .error .drained
      else match c.record n with
        | none => .ok { p with queue := rest }
        | some x =>
          if space < 32 then .error .full
          else
            let p := p.emit n x.descriptor
            .ok { p with descs := p.descs + 1, firstDesc := some (p.firstDesc.getD n),
                         pos := some (if cuCount x.len = 0 then { num := n, part := 3 } else { num := n, part := 1 }) }
  | some q =>
    match c.record q.num with
    | none => .error .starved
    | some x =>
      if q.part = 3 then
        if space < 32 then .error .full
        else
          let p := p.emit q.num (trailerBytes (cuCount x.len) q.num x.len (c.chain x))
          .ok { p with pos := none, queue := p.queue.filter (fun i => i ≠ .record q.num), trailers := p.trailers ++ [q.num] }
      else match c.item x q.cu with
        | none => .error .starved
        | some it =>
          if q.part = 1 then
            if space < 16 then .error .full
            else .ok { p.emit q.num (it.take 16) with pos := some { q with part := 2, off := 0 } }
          else if space = 0 then .error .full
          else
            let rest := it.drop (16 + q.off)
            if rest.length ≤ space then .ok { p.emit q.num rest with pos := some (afterCu q.num q.cu (cuCount x.len)) }
            else .ok { p.emit q.num (rest.take space) with pos := some { q with off := q.off + space } }

/-- Pieces into one billet of `room` item bytes; the second state is the one at the last trailer packed in it (R67). -/
def packBillet (c : PackCtx) (room : Nat) : Nat → PackState → Option PackState → PackState × Option PackState × PackEnd
  | 0, p, cut => (p, cut, .full)
  | k + 1, p, cut =>
    match packPiece c (room - p.body.length) p with
    | .error e => (p, cut, e)
    | .ok p' => packBillet c room k p' (if p'.pos.isNone && p'.trailers ≠ p.trailers then some p' else cut)

/-- Item space of a billet. -/
def billetRoom : Nat := 103808

/-- Steps that always suffice for one billet: each but the drop of a missing record puts at least 16 bytes in. -/
def packFuel (q : List SealItem) : Nat := billetRoom / 16 + q.length + 2

/-- Header fields of a billet that begins where the packer stands (Table 02-7). -/
def startHdr (p : PackState) : BilletHdr :=
  match p.pos with
  | some q => { first := q.num, cu := q.cu, resume := if q.part = 2 then q.off else 0, cont := q.part = 2 }
  | none => { first := match p.queue with
      | .record n :: _ => n
      | _ => 0 }

/-- A packed billet: its header and items, and the packer after it. -/
structure Packed where
  hdr : BilletHdr
  st : PackState
deriving DecidableEq, Repr

/-- The header completed from what was packed. -/
def packedOf (start : PackState) (st : PackState) (early : Bool) : Packed :=
  { hdr := { startHdr start with early := early, descs := st.descs, used := st.body.length }, st := st }

/-- The packer's state at the start of the next billet. -/
def PackState.fresh (p : PackState) : PackState := { pos := p.pos, queue := p.queue }

/-- A data billet without items (R63). -/
def emptyBillet (next : Nat) (p : PackState) : Packed := { hdr := { first := next }, st := p.fresh }

/-- The close marks at the front of the queue dropped. -/
def dropMarks (q : List SealItem) : List SealItem := q.dropWhile (fun i => match i with
  | .closeMark _ => true
  | .record _ => false)

/-- How the billets of a heat are to be closed: writing is ending, the wrap's last data heat, an early close behind us. -/
structure CloseRule where
  ending : Bool
  last : Bool
  closing : Bool
deriving DecidableEq, Repr

/-- The data billets of one heat, `n` of them still to pack; none while items are lacking. Answers them with whether one has
closed early for SYNC or end of writing (R62, R63, R67). -/
def packHeat (c : PackCtx) (r : CloseRule) : Nat → PackState → Nat → Option (List Packed × Bool)
  | 0, _, _ => some ([], r.closing)
  | n + 1, p, next =>
    let go := fun (b : Packed) (r : CloseRule) (next : Nat) => (packHeat c r n b.st.fresh next).map (fun x => (b :: x.1, x.2))
    if r.closing then go (emptyBillet next p) r next
    else
      let x := packBillet c billetRoom (packFuel p.queue) p none
      let st := x.1
      let next' := (st.trailers.getLast?.map (· + 1)).getD next
      match x.2.2 with
      | .starved => none
      | .mark => go (packedOf p { st with queue := dropMarks st.queue } true) { r with closing := true } next'
      | .drained => if r.ending then go (packedOf p st true) { r with closing := true } next' else none
      | .full =>
        if n = 0 && r.last then
          match x.2.1 with
          | some cut => go (packedOf p cut true) r next'
          | none => go (packedOf p st false) r next'
        else go (packedOf p st false) r next'

/-! ## Forming a billet heat (R60 to R64, R104, R117, R121) -/

/-- What the packer reads while forming. -/
def State.packCtx (s : State) : PackCtx :=
  { record := s.rec?, item := fun x i => (x.cu i).item, held := fun n => match s.lowestOpen with
      | some o => decide (o ≤ n)
      | none => false }

/-- Frames of a logical channel in write, hold and encoder lists: those of its element, and those it has left on retired elements. -/
def State.occupancy (s : State) (l : Nat) : Nat :=
  let own := s.chan (s.heat.element l)
  own.wlist.length + own.hold.length + (own.enc.filter (fun x => x.present = 0)).length
    + (s.heat.retired.flatMap (fun p => (s.chan p).hold.filter (fun x => x.l = l))).length

/-- R121: every logical channel has room in its window. -/
def State.windowOpen (s : State) : Bool := (List.range (fmtChans s.fmt)).all (fun l => s.occupancy l < s.anvil.window)

/-- Heat positions that remain on the wrap for heats not yet formed. -/
def State.positionsFree (s : State) : Nat := s.heat.left - s.forge.formed.length

/-- A billet of group `g` of the heat being formed. -/
def State.newBillet (s : State) (g : Nat) (parity : Bool) : Billet :=
  let t := s.forge.t
  let c := s.forge.tc.getD 240
  { serial := s.forge.nextSerial + g, train := s.forge.train, ingot := ingotAt s.fmt t g,
    pos := if parity then 60 + (t - c) / 4 else t / 4, group := g, parity := parity, session := s.cart.image.session, wrap := s.heat.wrap }

/-- The formed heat joins those that wait; serials and the billet-heat count move on. -/
def State.heatFormed (parity : Bool) (s : State) : State :=
  let g := fmtGroups s.fmt
  let x : FormedHeat := { train := s.forge.train, t := s.forge.t, serials := (List.range g).map (s.forge.nextSerial + ·), parity := parity }
  { s with forge := { s.forge with formed := s.forge.formed ++ [x], nextSerial := (s.forge.nextSerial + g) % 2 ^ 32, t := s.forge.t + 1 } }

/-- A data billet joins the heat: descriptor kept and mirrored, C3 accumulated, frames to the encoders (R104, R117). -/
def State.addData (g : Nat) (x : Packed) (s : State) : State :=
  let b := s.newBillet g false
  let h := { x.hdr with session := b.session, serial := b.serial }
  let payload := billetPayload h.head x.st.body
  let b := { b with firstRec := h.first, firstCu := h.cu, resume := h.resume, cont := h.cont, early := h.early, descs := h.descs,
                    used := h.used, recs := x.st.recs, firstDesc := x.st.firstDesc, trailers := x.st.trailers }
  let train := s.forge.train
  let acc := c3Add ((assocGet s.forge.acc b.ingot).getD []) payload
  let s := { s with
    forge := { s.forge with acc := assocSet s.forge.acc b.ingot acc, lastPacked := (x.st.trailers.getLast?).or s.forge.lastPacked },
    recs := { s.recs with recs := s.recs.recs.map (fun (y : Rec) =>
      let y := if x.st.recs.contains y.num then { y with billets := y.billets ++ [b.serial] } else y
      if x.st.trailers.contains y.num then { y with packed := true, train := some train } else y) } }
  s.pushBillet b false payload

/-- Data billets added in group order. -/
def addDataAll : List Packed → Nat → State → State
  | [], _, s => s
  | x :: r, g, s => addDataAll r (g + 1) (s.addData g x)

/-- The train closes with `c` data heats: accumulators brought to full length, the short train noted (R62, R63, R103). -/
def State.closeTrain (c : Nat) (s : State) : State :=
  { s with forge := { s.forge with
      tc := some c, acc := if c = 240 then s.forge.acc else s.forge.acc.map (fun e => (e.1, c3Zeros e.2 (60 - c / 4))),
      shortTrains := if c = 240 then s.forge.shortTrains else s.forge.train :: s.forge.shortTrains } }

/-- A parity billet heat; after the last of 16 the next train can begin (R61, R62). -/
def State.formParity (c : Nat) (s : State) : State :=
  let short := s.forge.shortTrains.contains s.forge.train
  let s := (List.range (fmtGroups s.fmt)).foldl (fun s g =>
    let b := s.newBillet g true
    s.pushBillet b short (c3Billet ((assocGet s.forge.acc b.ingot).getD []) (b.pos - 60))) s
  let s := s.heatFormed true
  if s.forge.t = c + 16 then
    { s with forge := { s.forge with train := s.forge.train + 1, t := 0, closing := false, tc := none, acc := [] } }
  else s

/-- Close marks at the front of the queue between heats, or nothing left to form when writing or the wrap ends: a train that holds
heats closes at once at a multiple of four, otherwise it goes on with billets without items (R62). -/
def State.noteClose (s : State) : State :=
  let marks := s.forge.pos.isNone && dropMarks s.recs.sealQ ≠ s.recs.sealQ
  let near := decide (s.positionsFree - 1 < (if s.forge.t = 239 then 84 else 68))
  let done := (s.forge.ending || near) && s.forge.pos.isNone && !s.formable
  let s := if marks then { s with recs := { s.recs with sealQ := dropMarks s.recs.sealQ } } else s
  if (marks || done) && s.forge.tc.isNone && 0 < s.forge.t then
    if s.forge.t % 4 = 0 then s.closeTrain s.forge.t else { s with forge := { s.forge with closing := true } }
  else s

/-- A data heat, once the packer has its items; then the closes of R62. -/
def State.formData (s : State) : State :=
  let free := s.positionsFree
  let t := s.forge.t
  let near := decide (free - 1 < (if t = 239 then 84 else 68))
  let last := near && t % 4 = 3
  -- with no record left near the wrap end the train closes as at the end of writing (log 38)
  let rule : CloseRule := { ending := s.forge.ending || near, last := last, closing := s.forge.closing }
  let next := (s.forge.lastPacked.map (· + 1)).getD 0
  match packHeat s.packCtx rule (fmtGroups s.fmt) { pos := s.forge.pos, queue := s.recs.sealQ } next with
  | none => s
  | some (bs, closing) =>
    let st := (bs.getLast?.map Packed.st).getD { pos := s.forge.pos, queue := s.recs.sealQ }
    let s := { s with forge := { s.forge with pos := st.pos, closing := closing }, recs := { s.recs with sealQ := st.queue } }
    let s := (addDataAll bs 0 s).heatFormed false
    let s := if last then { s with heat := { s.heat with drain := true } } else s
    if s.forge.t = 240 then s.closeTrain 240
    else if s.forge.t % 4 = 0 && (closing || last) then s.closeTrain s.forge.t
    else s

/-- The next billet heat of an open or closing train; a wrap without room for another train is left to its drain (R60, R62). -/
def State.formNext (s : State) : State :=
  match s.forge.tc with
  | some c => s.formParity c
  | none =>
    let s := s.noteClose
    match s.forge.tc with
    | some c => s.formParity c
    | none =>
      if s.heat.drain then s
      else if s.forge.t = 0 && s.positionsFree < 68 then { s with heat := { s.heat with drain := true } }
      else if s.forge.closing || s.formable || s.forge.pos.isSome then s.formData
      else s

/-- The Forge Sequencer forms the next billet heat (R121), or pauses for lack of window. -/
def execFormBilletHeat (s : State) : Host.Outcome State Fault Refusal :=
  .next (if !s.forge.writing || s.forge.rebuild || s.paramN 0x04070700 ≤ s.forge.formed.length then s
    else if !s.windowOpen then
      if s.forge.paused then s else { s with forge := { s.forge with paused := true } }.blwCause 2 0
    else ((State.formNext { s with forge := { s.forge with paused := false } }).mirrorForming s.forge.formed.length).checkLevel)

/-! ## COMPRESS_STATS (R244) -/

/-- The 64-byte record of Table 08-6. -/
def State.compBytes (s : State) : Bytes :=
  let m := s.comp
  let out := (s.outUnits 3).eraseDups.foldl (fun n k => n + 2 ^ k) 0
  leBytes 8 m.compressed.toNat ++ leBytes 8 m.stored.toNat ++ leBytes 4 m.probeAb.toNat ++ leBytes 4 m.lateAb.toNat
  ++ leBytes 4 m.mismatches.toNat ++ leBytes 4 m.digestMis.toNat ++ leBytes 4 m.digestExh.toNat ++ leBytes 4 m.streamErrs.toNat
  ++ leBytes 4 out ++ zeros 4 ++ leBytes 8 m.rawBytes.toNat ++ leBytes 8 m.cBytes.toNat

def compStatsBody (r : MbReq) (s : State) : State :=
  let b := s.compBytes
  (if r.flags = 0 then s else { s with comp := {} }).done r.mb b

def serveCompressStats : MbReq → State → State := mbChecks 0x0303 (sized 0) (fun _ => true) 0 compStatsBody

/-- COMPRESS_STATS (R244). -/
def execCompressStats (r : MbReq) (s : State) : Host.Outcome State Fault Refusal := .next (mbGo 0x0303 r serveCompressStats s)

end Sys2Proof.Machine
end

