-- ==== Sys2Proof/Machine/Measure.lean ====
section
/-! DEFINITION. Temper measurement: what the lanes gather of a zone and the entries made of it (R165, R166, Tables 05-3, 05-4). -/

namespace Sys2Proof.Machine

/-- NRZ write-current levels of NRZI channel bits from a level on: a 1 reverses (R47). -/
def nrzLevels : Int → List Bool → List Int
  | _, [] => []
  | a, b :: r =>
    let n := if b then -a else a
    n :: nrzLevels n r

/-- Ideal detector outputs of levels: d_k from a_k to a_(k−3) (R155). -/
def idealOut (t : List Int) : List Int → List Int
  | a0 :: a1 :: a2 :: a3 :: r =>
    -- the list runs forward in time, the newest level of a window is its fourth
    (t.getD 0 0 * a3 + t.getD 1 0 * a2 + t.getD 2 0 * a1 + t.getD 3 0 * a0) :: idealOut t (a1 :: a2 :: a3 :: r)
  | _ => []

/-- Target outputs d of the known channel bits of an item from its codeword on, behind its sync mark; their sign is not fixed (R155, R165). -/
def targetOut (t : List Int) (mark known : List Bool) : List Int :=
  (idealOut t (nrzLevels 1 (mark ++ known))).drop (mark.length - 3)

/-- Sums over unflagged bits: Σd², Σ(q − d)², Σ(q × d), with the sign of d under which q and d agree. -/
def Meas.add (m : Meas) (d : List Int) (qs : List (Int × Bool)) (flips : Nat) (slag : Bool) : Meas :=
  let xs := (d.zip qs).filter (fun x => !x.2.2)
  let qd := xs.foldl (fun n x => n + x.1 * x.2.1) (0 : Int)
  let sgn : Int := if qd < 0 then -1 else 1
  { frames := m.frames + 1, flips := m.flips + flips,
    dd := m.dd + xs.foldl (fun n x => n + (x.1 * x.1).toNat) 0,
    ee := m.ee + xs.foldl (fun n x => n + ((x.2.1 - sgn * x.1) * (x.2.1 - sgn * x.1)).toNat) 0,
    qd := m.qd + sgn * qd, slag := slag }

/-- A lane measures one frame whose content is known (R165). -/
def State.measure (p : Nat) (mark known : List Bool) (qs : List (Int × Bool)) (flips : Nat) (slag : Bool) (s : State) : State :=
  { s with rd := { s.rd with lanes := modAt s.rd.lanes p (fun (l : Lane) =>
      { l with meas := l.meas.add (targetOut (s.laneTargets l) mark known) qs flips slag }) } }

/-- A codeword's channel bits as written on a wrap by an element (R47 to R49). -/
def wordBits (word : Bytes) (wrap p : Nat) : List Bool := modulate (scramble wrap p (bytesBits word))

/-- SNR in 0.25 dB: the largest n up to 255 with 10^n × Σ(q − d)²^40 ≤ Σd²^40, or the next (R161; rounding free, log 14). -/
def snrOf (dd ee : Nat) : Nat :=
  if ee = 0 then 255
  else
    let n := ((List.range 256).filter (fun n => 10 ^ n * ee ^ 40 ≤ dd ^ 40)).length - 1
    min 255 (n + b2n (Config.roundUp 3 dd ee))

/-- The entry of a lane's zone when the tape leaves it, from the values in force and what was measured (R161, R165); what the spec does
not determine is free (log 43). -/
def State.temperEntry (s : State) (p n : Nat) (l : Lane) : Temper :=
  let m := l.meas
  let (pp, pn) := Config.peakMean n
  let off := clampInt (-128) 127 (l.offset + Config.temperMean n)
  let den := pp * pp + pn * pn
  let asym := clampInt (-128) 127 (l.asym - (if den = 0 then Config.temperFree n else roundHalf (4096 * (pp + pn)) den))
  let gain : Int := if m.qd ≤ 0 then (Config.temperFree (n + 1)).natAbs else roundHalf (l.gain * m.dd) m.qd
  let gain := min 4095 gain
  let dflt := s.tongs.gainDef p s.row
  { gainRel := if dflt = 0 then (Config.temperFree (n + 2)).natAbs % 4096 else min 4095 (roundFree 4 (gain * 256) dflt).toNat,
    offsetRel := clampInt (-128) 127 (off - s.tongs.offsetDef p s.row), asymRel := clampInt (-128) 127 (asym - s.tongs.asymDef p s.row),
    snr := snrOf m.dd m.ee, frames := min 4095 m.frames, flipMean := min 255 (roundFree 5 m.flips m.frames).toNat, slag := m.slag,
    caldef := false, valid := (s.laneParam l 0x05071200).toNat ≤ m.frames }

/-- An entry put into a table. -/
def putTemper (tab : List (Nat × Nat × Nat × Temper)) (w n p : Nat) (t : Temper) : List (Nat × Nat × Nat × Temper) :=
  (w, n, p, t) :: tab.filter (fun e => !(e.1 = w && e.2.1 = n && e.2.2.1 = p))

/-- The temper summary of a segment and band (Table 05-4, R166). -/
def summaryOf (tab : List (Nat × Nat × Nat × Temper)) (w n b : Nat) : BitVec 32 :=
  let es := (List.range 256).map (fun e => (temperAt tab w n (256 * b + e)).getD { frames := 0 })
  let ok := es.filter (·.valid)
  let k : Int := ok.length
  if ok = [] then BitVec.ofNat 32 (min 15 es.length)
  else
    let gain := (roundFree 6 (ok.foldl (fun n (t : Temper) => n + (t.gainRel : Int)) 0) k).toNat
    let off := roundFree 7 (ok.foldl (fun n (t : Temper) => n + t.offsetRel) 0) k
    let snr := ok.foldl (fun m (t : Temper) => min m t.snr) 255
    BitVec.ofNat 32 (gain * 2 ^ 20 + ofSigned 8 off * 2 ^ 12 + snr * 16 + min 15 (es.length - ok.length))

/-- The segment of a lane's read element. -/
def State.laneSeg (s : State) (p : Nat) : Nat := segmentOf (s.laneLpos p / 256000)

/-- The lane has left the segment that it measured. -/
def State.leftSegment (s : State) (p : Nat) : Bool :=
  match s.rd.lanes[p]? with
  | some l => 0 < l.meas.frames && l.seg ≠ s.laneSeg p
  | none => false

/-- A lane's entry joins the store while writing, the recovery copy on a first reading pass (R165, R166, R210). -/
def State.closeSegment (p : Nat) (s : State) : State :=
  match s.rd.lanes[p]? with
  | none => s
  | some l =>
    let t := s.temperEntry p s.free l
    let w := s.heat.wrap
    let s := { s with free := s.free + 3, rd := { s.rd with lanes := modAt s.rd.lanes p (fun l => { l with meas := {}, seg := s.laneSeg p }) } }
    if s.verifying then { s with rd := { s.rd with temper := putTemper s.rd.temper w l.seg p t } }
    else if s.attempt = 0 then { s with rd := { s.rd with recovery := putTemper s.rd.recovery w l.seg p t } }
    else s

/-- Lanes that left a segment, one after another. -/
def closeSegments : List Nat → State → State
  | [], s => s
  | p :: r, s => closeSegments r (s.closeSegment p)

/-- The temper summary of a segment in the ledger image of a GK4 cartridge (R166). -/
def State.noteSummary (w n : Nat) (s : State) : State :=
  if s.fmt = 4 then
    { s with cart := { s.cart with
        image := { s.cart.image with temper := (List.range 4).foldl (fun t b =>
          assocSet t ((w * 65 + n) * 4 + b) (summaryOf s.rd.temper w n b)) s.cart.image.temper },
        changed := true } }
  else s

/-- TEMPER_SEGMENT_END: the tape has left a segment (R165, R166). -/
def execTemperSegmentEnd (s : State) : Host.Outcome State Fault Refusal :=
  .next (
    let ps := (List.range 1024).filter s.leftSegment
    let segs := (ps.filterMap (fun p => (s.rd.lanes[p]?).map (·.seg))).eraseDups
    let t := closeSegments ps s
    if s.verifying then segs.foldl (fun t n => t.noteSummary s.heat.wrap n) t else t)

/-- A PASS or QUALITY verdict: the frame's element measures its zone on the Anvil copy (R165). -/
def State.measureVerify (p : Nat) (patched : Bytes) (r : VerifyResult) (s : State) : State :=
  s.measure p syncData (wordBits patched s.heat.wrap p) r.qs r.flips false

end Sys2Proof.Machine
end

