-- ==== Sys2Proof/Machine/Anvil.lean ====
section
/-! DEFINITION. The Anvil cell pool and the head ports' frames: push, pop, underrun, poison, drop; verdicts, rewriting, exhaustion,
re-forming (R119, R120, R123 to R136, R237, R441). -/

namespace Sys2Proof.Machine

/-! ## Cells (R123 to R130) -/

/-- Cells in a write list. -/
def Chan.cells (c : Chan) : Nat := c.wlist.foldl (fun n x => n + (x.present - x.sent)) 0

/-- Cells of a channel in both lists (ANVIL_MAX of Table 04-8). -/
def Chan.allCells (c : Chan) : Nat := c.wlist.foldl (fun n x => n + x.present) 0 + 16 * c.hold.length

/-- The same frame: serial, index and class. -/
def Frame.same (x y : Frame) : Bool := x.serial = y.serial && x.j = y.j && x.cls = y.cls

/-- Cells returned to the free list. -/
def State.freeCells (n : Nat) (s : State) : State := { s with anvil := { s.anvil with free := s.anvil.free + n } }

/-- A channel after its encoder has pushed the next cell of its first frame. -/
def Chan.push (c : Chan) : Chan :=
  match c.enc with
  | [] => c
  | x :: rest =>
    let k := x.present + 1
    { c with
      enc := if k = 16 then rest else { x with present := k } :: rest, discarding := false,
      wlist := if x.present = 0 then c.wlist ++ [{ x with present := 1 }]
        else c.wlist.map (fun y => if y.same x then { y with present := k } else y) }

/-- A C1 encoder pushes a cell, or stalls at ANVIL_WQ_LIMIT or without a free cell (R123, R126); ANVIL_FREE_LOW and ANVIL_CH_HIGH
set at their crossings. -/
def execAnvilPush (chan : Fin 1024) (s : State) : Host.Outcome State Fault Refusal :=
  let c := s.chan chan
  .next (if c.enc = [] || s.anvil.free = 0 || s.paramN 0x04070300 ≤ c.cells then s
    else
      let low := s.paramN 0x04070400
      let d := c.push
      let falls := s.anvil.free = low
      let high := decide (c.wlist.length < d.wlist.length) && d.wlist.length + d.hold.length = s.paramN 0x04070500
      let s := s.modAnvil chan (fun _ => d)
      let s := { s with anvil := { s.anvil with free := s.anvil.free - 1 } }
      let s := if falls then s.blwCause 3 0 else s
      if high then s.blwCause 4 chan else s)

/-- What reading a 64-bit Anvil word with an error pattern gives: the word as read, corrected, or poison (R129, R130). -/
inductive WordRead where
  | as_ (err : BitVec 64)
  | corrected
  | poison
deriving DecidableEq, Repr

/-- Set bits of a number's low `n` bits. -/
def weight (n v : Nat) : Nat := ((List.range n).filter (fun i => bitAt v i)).length

/-- A read in the protection mode in force: byte parity misses an even number of flips in a byte; SECDED corrects one bit and poisons
more (log 39). -/
def readWord (secded : Bool) (err : BitVec 64) : WordRead :=
  if secded then (match weight 64 err.toNat with
    | 0 => .as_ 0
    | 1 => .corrected
    | _ => .poison)
  else if (List.range 8).any (fun k => weight 8 (err.toNat / 256 ^ k) % 2 = 1) then .poison
  else .as_ err

/-- An error pattern laid over word `w` of cell `i` of a codeword. -/
def flipWord (b : Bytes) (i w : Nat) (err : BitVec 64) : Bytes :=
  if err = 0 then b else putAt b (64 * i + 8 * w) (xorBytes (slice b (64 * i + 8 * w) 8) (beBytes 8 err.toNat))

/-- A frame whose Anvil copy has taken an undetected error. -/
def Frame.corrupt (x : Frame) (i w : Nat) (err : BitVec 64) : Frame :=
  { x with word := flipWord x.word i w err, patched := flipWord x.patched i w err }

/-- An Anvil word delivered with poison: counted, POISON set (R129). -/
def State.countPoison (chan : Nat) (s : State) : State :=
  { s with blw := { s.blw with poisonedWords := satAdd 64 s.blw.poisonedWords 1 } }.blwCause 9 chan

/-- One frame cut while it is written (SLAG_FRAMES of Table 04-8). -/
def State.countSlag (n : Nat) (s : State) : State :=
  { s with blw := { s.blw with slagFrames := satAdd 64 s.blw.slagFrames n } }

/-- A channel whose frame in progress is cut, behind some last bits of it: the preamble pattern fills the item, the frame stands whole at
the head (R52, R125, R128). -/
def Chan.cutBehind (c : Chan) (last : List Bool) : Chan :=
  if !c.inFrame then c
  else match c.wlist with
    | [] => { c with inFrame := false, slag := true }
    | x :: rest => { c with wlist := { x with sent := 0 } :: rest, inFrame := false, slag := true,
                            bits := c.bits ++ last ++ preamble (8608 - 144 - 528 * x.sent - last.length) }

/-- A channel whose frame in progress is cut at a cell's begin. -/
def Chan.cut (c : Chan) : Chan := c.cutBehind []

/-- The head port has taken the last cell: the frame is in the hold list, with the pad behind it (R123). -/
def Chan.finish (c : Chan) : Chan :=
  match c.wlist with
  | [] => c
  | x :: rest => { c with wlist := rest, inFrame := false, hold := c.hold ++ [{ x with sent := 0, own := none, standby := none }],
                          bits := c.bits ++ padBits }

/-- Frames written at attempt 0, or at attempts 1 to 3 (Table 04-8). -/
def State.countFrame (attempt : Nat) (s : State) : State :=
  { s with blw := if attempt = 0 then { s.blw with framesFirst := satAdd 64 s.blw.framesFirst 1 }
                  else { s.blw with framesRewritten := satAdd 64 s.blw.framesRewritten 1 } }

/-- A frame leaves the Anvil to be re-formed: its cells are freed, what its encoder still holds is dropped (R129, R131). -/
def State.toReform (chan : Nat) (x : Frame) (s : State) : State :=
  let s := s.modAnvil chan (fun c => { c with
    wlist := c.wlist.filter (fun y => !y.same x), hold := c.hold.filter (fun y => !y.same x),
    enc := c.enc.filter (fun y => !(y.same x && 0 < y.present)) })
  let s := s.freeCells x.present
  { s with forge := { s.forge with reforms := s.forge.reforms ++ [{ x with sent := 0, present := 0, own := none, standby := none }] } }

/-- A head port takes the next cell of the frame it writes, reading it with `err` over one word: the cell's channel bits, an underrun
cut, or the cut of a poisoned word (R124, R125, R129, R130). -/
def execAnvilPop (chan : Fin 1024) (word : Fin 8) (err : BitVec 64) (s : State) : Host.Outcome State Fault Refusal :=
  let c := s.chan chan
  .next (match c.inFrame, c.wlist with
  | false, _ => s
  | true, [] => s.modAnvil chan Chan.cut
  | true, x :: _ =>
    if x.present ≤ x.sent then (s.modAnvil chan Chan.cut).countSlag 1
    else
      let send := fun (e : BitVec 64) (s : State) =>
        let y := x.corrupt x.sent word e
        let bits := cellBits y.patched s.heat.wrap chan x.sent
        let s := s.modAnvil chan (fun c => { c with wlist := { y with sent := x.sent + 1 } :: c.wlist.drop 1, bits := c.bits ++ bits })
        if x.sent = 15 then (s.modAnvil chan Chan.finish).countFrame x.attempt else s
      match readWord s.anvil.secded err with
      | .as_ e => send e s
      | .corrected => send 0 { s with blw := { s.blw with correctedWords := satAdd 64 s.blw.correctedWords 1 } }
      | .poison =>
        let sent := (cellBits x.patched s.heat.wrap chan x.sent).take (66 * word.val)
        (((s.modAnvil chan (fun c => c.cutBehind sent)).countSlag 1).countPoison chan).toReform chan x)

/-- Channels of a set of head ports. -/
def portChans (ports : List Nat) (p : Nat) : Bool := ports.contains (p / 64)

/-- The drop command on a set of head ports (R128). -/
def State.drop (ports : List Nat) (s : State) : State :=
  let n := ((List.range 1024).filter (fun p => portChans ports p && (s.chan p).inFrame)).length
  let s := { s with anvil := { s.anvil with chans := s.anvil.chans.mapIdx (fun p (c : Chan) => if portChans ports p then c.cut else c) } }
  s.countSlag n

/-! ## Exhaustion (R133, R134, R138) -/

/-- The retirement of a logical channel's element waits for the next billet heat boundary (R138). -/
def State.retireLogical (l : Nat) (s : State) : State :=
  if s.heat.retireDue.contains l then s else { s with heat := { s.heat with retireDue := s.heat.retireDue ++ [l] } }

/-- One frame of a billet is settled, passed or exhausted. -/
def State.settleFrame (serial cls : Nat) (exhausted : Bool) (s : State) : State :=
  { s with forge := { s.forge with billets := s.forge.billets.map (fun (b : Billet) => if b.serial = serial && b.cls = cls then
      { b with pending := b.pending - 1, exhausted := b.exhausted + b2n exhausted } else b) } }

/-- UNVERIFIED WRITE for each record of a list (R134, R319). -/
def deferAll : List Nat → State → State
  | [], s => s
  | r :: rest, s => deferAll rest (s.deferError r Status.unverifiedWrite)

/-- A frame is exhausted: it leaves the Anvil, is counted, its channel is to be retired, and a data billet with more of them than
EXH_PER_BILLET makes its records unverified (R133, R134). -/
def State.exhaust (x : Frame) (s : State) : State :=
  let p := s.heat.element x.l
  let s := { s with blw := { s.blw with exhaustedFrames := satAdd 64 s.blw.exhaustedFrames 1 } }.blwCause 8 p
  let s := (s.retireLogical x.l).settleFrame x.serial x.cls true
  let b := s.forge.billets.find? (fun b => b.serial = x.serial && b.cls = x.cls)
  let tooMany := b.filter (fun b => b.cls = 0 && !b.parity && s.paramN 0x04070E00 < b.exhausted)
  (deferAll ((tooMany.map (·.recs)).getD []) s).tryRelease

/-- Frames of a list exhausted, their cells freed. -/
def exhaustAll : List Frame → State → State
  | [], s => s
  | x :: r, s => exhaustAll r ((s.freeCells x.present).exhaust x)

/-! ## Verdicts (R131, R132, R137, R441) -/

/-- Verdict numbers as the ORDER entry of a verdict records them: 0 PASS to 5 TIMEOUT, in the order of Table 04-3. -/
def verdictOrder (x : Frame) (v : Nat) (s : State) : State :=
  if v = 0 then s else s.order 6 (leBytes 4 x.serial ++ [byte x.j, byte v])

/-- Physical channels of the snapshot (R450). -/
def State.snapChan (s : State) (p : Nat) : Bool := s.paramN 0x0F0C0200 = p || s.paramN 0x0F0C0201 = p

/-- The retirement window of a logical channel takes a verdict; the one that brings the count up to RET_LIMIT retires (R137, R138; DEDUCED,
log 62). -/
def State.noteVerdict (l : Nat) (failed : Bool) (s : State) : State :=
  let old := (assocGet s.heat.verdicts l).getD []
  let now := (failed :: old).take (s.paramN 0x04070F00)
  let s := { s with heat := { s.heat with verdicts := assocSet s.heat.verdicts l now } }
  let lim := s.paramN 0x04071000
  if (old.filter (· = true)).length < lim && lim ≤ (now.filter (· = true)).length then s.retireLogical l else s

/-- A frame put at the head of its logical channel's write list, behind a frame just being written (R58, R132). -/
def State.pushFront (x : Frame) (s : State) : State :=
  s.modAnvil (s.heat.element x.l) (fun c =>
    if c.inFrame then { c with wlist := c.wlist.take 1 ++ [x] ++ c.wlist.drop 1 } else { c with wlist := x :: c.wlist })

/-- A frame leaves the hold list of a physical channel. -/
def State.unhold (chan : Nat) (x : Frame) (s : State) : State :=
  s.modAnvil chan (fun c => { c with hold := c.hold.filter (fun y => !y.same x) })

/-- PASS: the cells are released and the frame is settled. -/
def State.passFrame (chan : Nat) (x : Frame) (s : State) : State :=
  (((s.unhold chan x).freeCells 16).settleFrame x.serial x.cls false).tryRelease

/-- A rewrite from the Anvil copy with the next attempt number, or exhaustion after attempt 3 (R132, R133). -/
def State.rewriteFrame (chan : Nat) (x : Frame) (s : State) : State :=
  let s := s.unhold chan x
  if x.attempt = 3 then (s.freeCells 16).exhaust x
  else s.pushFront { x with attempt := x.attempt + 1, own := none, standby := none }

/-- A verdict takes effect: 0 PASS, 1 QUALITY, 2 DECODE, 3 COMPARE, 4 POISON (Table 04-3). -/
def State.applyVerdict (chan : Nat) (x : Frame) (v : Nat) (s : State) : State :=
  let s := if (v = 2 || v = 3) && s.snapChan chan then s.trigger 4 else s
  -- COMPARE: a copy that fails H is never written again
  let bad := v = 3 && !c1Valid x.patched
  let s := if bad then s.encoderEvent (chan / 64) else s
  let v := if bad then 4 else v
  let s := verdictOrder x v s
  if v = 4 then s.toReform chan x
  else
    let s := s.noteVerdict x.l (v ≠ 0)
    if v = 0 then s.passFrame chan x
    else s.rewriteFrame chan x

/-- Both verdicts of an armed twin are known: PASS needs both with equal digests, anything else rewrites as for COMPARE and counts a
disagreement (R441). -/
def State.twinVerdict (chan : Nat) (x : Frame) (s : State) : State :=
  match x.own, x.standby with
  | some v, some ok =>
    if v = 0 && ok then s.applyVerdict chan x 0
    else
      let s := { s with twin := { s.twin with disagreements := satAdd 32 s.twin.disagreements 1 } }
      s.applyVerdict chan x 3
  | _, _ => s

/-- This die's verdict on a held frame: alone, or kept until the standby's has come (R441). -/
def State.giveVerdict (chan : Nat) (x : Frame) (v : Nat) (s : State) : State :=
  if v = 4 || !s.armedActive then s.applyVerdict chan x v
  else
    let y := { x with own := some v }
    let s := s.modAnvil chan (fun c => { c with hold := c.hold.map (fun z => if z.same x then y else z) })
    s.twinVerdict chan y

/-- The verdict on a decode result against the frame's patched copy (Table 04-3); header agreement follows from equality (R54). -/
def verdictOf (s : State) (x : Frame) (r : VerifyResult) : Nat :=
  if !r.ok then 2
  else if r.word ≠ x.patched then 3
  else if s.paramN 0x04070900 < r.iters || s.paramN 0x04070A00 < r.flips || s.paramN 0x04070B00 < r.erased || !r.syncOk then 1
  else 0

/-- The copy that a verify decode read is the one written of a held frame: its decoded header or its place on the tape says so. -/
def VerifyResult.mayBe (r : VerifyResult) (x : Frame) : Bool :=
  if r.ok && (parseHdr r.word).serial = x.serial then (parseHdr r.word).written = x.written else r.heat = x.written

/-- The verdict of a decode result is given and mirrored; with PASS and QUALITY the element measures its zone on the copy (R131, R165,
Table 15-4). -/
def State.judge (chan : Nat) (x : Frame) (r : VerifyResult) (s : State) : State :=
  let v := verdictOf s x r
  let s := s.mirror (.verdict x.cls x.serial x.j (decide (v = 0)) (crc32c r.word))
  (if v ≤ 1 then s.measureVerify chan x.patched r else s).giveVerdict chan x v

/-! ### The standby's verify (R441) -/

/-- Both dies' verdicts on a frame are known: two PASS with equal digests settle it, anything else is a failed attempt. -/
def State.pairVerdicts (cls serial j : Nat) (s : State) : State :=
  let is := fun (mine : Bool) (v : TwinVerdict) => v.mine = mine && v.cls = cls && v.serial = serial && v.j = j
  match s.twin.verdicts.find? (is true), s.twin.verdicts.find? (is false) with
  | some a, some b =>
    let s := { s with twin := { s.twin with verdicts := s.twin.verdicts.filter (fun v => !(v = a || v = b)) } }
    let held := fun (x : Nat × Nat × Nat) => s.forge.billets.any (fun (y : Billet) => y.cls = x.1 && y.serial = x.2.1)
    if a.pass && b.pass && a.crc = b.crc then
      ({ s with twin := { s.twin with passes := (cls, serial, j) :: s.twin.passes.filter held } }.settleFrame serial cls false).tryRelease
    else { s with twin := { s.twin with fails := (cls, serial, j) :: s.twin.fails.filter held } }
  | _, _ => s

/-- A verdict joins those kept. -/
def State.keepVerdict (v : TwinVerdict) (s : State) : State :=
  ({ s with twin := { s.twin with verdicts := s.twin.verdicts ++ [v] } }).pairVerdicts v.cls v.serial v.j

/-- Frame index of a logical channel in a billet's group, none where it lies in another group. -/
def frameIn (f g l : Nat) : Option Nat := (List.range 126).find? (fun j => chanOf f g j = l)

/-- The frame that a decode on the standby belongs to: by its header, or where that is unreadable by its place in the billet heat that
the heat record names (R441). -/
def State.standbyFrame (s : State) (chan : Nat) (r : VerifyResult) : Option (Nat × Nat × Nat) :=
  if r.ok then
    let h := parseHdr r.word
    (s.forge.billets.find? (fun (b : Billet) => b.cls = h.cls && b.serial = h.serial)).bind (fun b =>
      (frameIn s.fmt b.group h.l).map (fun j => (b.cls, b.serial, j)))
  else
    (s.heat.logicalOf chan).bind (fun l => s.forge.billets.findSome? (fun (b : Billet) =>
      if b.home = some r.heat then (frameIn s.fmt b.group l).map (fun j => (b.cls, b.serial, j)) else none))

/-- The standby's verdict on a decode, under the verify limits, kept and sent to the active with the digest of its codeword. -/
def State.standbyJudge (chan : Nat) (r : VerifyResult) (s : State) : State :=
  match s.standbyFrame chan r with
  | none => s
  | some (cls, serial, j) =>
    let pass := r.ok && r.iters ≤ s.paramN 0x04070900 && r.flips ≤ s.paramN 0x04070A00 && r.erased ≤ s.paramN 0x04070B00 && r.syncOk
    let crc := crc32c r.word
    (s.keepVerdict { mine := true, cls := cls, serial := serial, j := j, pass := pass, crc := crc }).emit (.peer (.verdict cls serial j pass crc))

/-- The next verify decode of a channel meets its held frame, or on a standby gives its verdict (R441); the comparator reads one Anvil word with `err` over it (R129, R131). A
result for a frame no longer held is dropped. -/
def execVerifyVerdict (chan : Fin 1024) (cell : Fin 16) (word : Fin 8) (err : BitVec 64) (s : State) : Host.Outcome State Fault Refusal :=
  .next (match s.rd.vresults.find? (fun (r : VerifyResult) => r.chan = chan.toNat) with
  | none => s
  | some r =>
    let later := s.rd.vresults.filter (fun (r : VerifyResult) => r.chan = chan.toNat)
    let s := { s with rd := { s.rd with vresults := s.rd.vresults.filter (fun (r : VerifyResult) => r.chan ≠ chan.toNat) ++ later.drop 1 } }
    if s.twin.role = (2 : BitVec 2) then s.standbyJudge chan r
    else match (s.chan chan).hold.find? (fun x => x.own.isNone && r.mayBe x) with
    | none => s
    | some x => match readWord s.anvil.secded err with
      | .poison => (s.countPoison chan).giveVerdict chan x 4
      | .corrected =>
        let s := { s with blw := { s.blw with correctedWords := satAdd 64 s.blw.correctedWords 1 } }
        s.judge chan x r
      | .as_ e =>
        let y := x.corrupt cell word e
        let s := s.modAnvil chan (fun c => { c with hold := c.hold.map (fun z => if z.same x then y else z) })
        s.judge chan y r)

/-- The standby's verdict and codeword digest for a frame (R441). -/
def execStandbyVerdict (serial : BitVec 32) (j : Fin 126) (pass : Bool) (crc : BitVec 32) (s : State) : Host.Outcome State Fault Refusal :=
  .next (if !s.armedActive then s
    else match (List.range 1024).findSome? (fun p =>
        ((s.chan p).hold.find? (fun x => x.serial = serial.toNat && x.j = j.toNat && x.standby.isNone)).map (fun x => (p, x))) with
    | none => s
    | some (p, x) =>
      let y := { x with standby := some (pass && decide (crc = crc32c x.patched)) }
      let s := s.modAnvil p (fun c => { c with hold := c.hold.map (fun z => if z.same x then y else z) })
      s.twinVerdict p y)

/-- No verdict within VFY_TIMEOUT frame times after the last bit: TIMEOUT, counted, the frame is re-formed (R131, R135). -/
def execVerifyTimeout (chan : Fin 1024) (s : State) : Host.Outcome State Fault Refusal :=
  .next (match (s.chan chan).hold with
  | [] => s
  | x :: _ =>
    if x.written + 1 + s.paramN 0x04070D00 ≤ s.heat.h then
      let s := { s with anvil := { s.anvil with timeouts := s.anvil.timeouts + 1 } }
      (verdictOrder x 5 s).toReform chan x
    else s)

/-! ## Re-forming (R136, R237) -/

/-- The packer's items recomputed from the raw copies through the forming feeder; none where a burst is uncorrectable. -/
def State.reformCtx (s : State) : PackCtx :=
  { record := s.rec?, held := fun _ => false, item := fun x i => match s.hearth.rawCu x i with
      | .error _ => none
      | .ok raw => some (s.sealItem x i (deflate x.setting.toNat raw).out) }

/-- Where the packer stood at the start of a billet (R27). -/
def Billet.start (b : Billet) (s : State) : PackState :=
  let k := match s.rec? b.firstRec with
    | some x => cuCount x.len
    | none => 0
  { pos := if b.cont then some { num := b.firstRec, part := 2, cu := b.firstCu, off := b.resume }
      else if b.firstDesc = some b.firstRec then none
      else if b.firstCu = k then some { num := b.firstRec, part := 3, cu := k }
      else some { num := b.firstRec, part := 1, cu := b.firstCu }
    queue := b.recs.map SealItem.record }

/-- pack(descriptor): the payload of a data billet from its packing descriptor, none where raw data are lost (R136). -/
def State.repack (s : State) (b : Billet) : Option Bytes :=
  let st := (packBillet s.reformCtx b.used (packFuel (b.recs.map SealItem.record)) (b.start s) none).1
  if st.body.length < b.used then none
  else
    let h : BilletHdr := { early := b.early, cont := b.cont, descs := b.descs, session := b.session, first := b.firstRec,
                           cu := b.firstCu, resume := b.resume, used := b.used, serial := b.serial }
    some (billetPayload h.head (st.body.take b.used))

/-- C3 accumulation over data billets in ingot position order. -/
def accumulate (s : State) : List Billet → Bytes → Option Bytes
  | [], acc => some acc
  | b :: r, acc => match s.repack b with
    | none => none
    | some p => accumulate s r (c3Add acc p)

/-- After a takeover the C3 accumulators of the open train are rebuilt from raw, as far as the raw copies are there (R443). -/
def State.rebuildAcc (s : State) : State :=
  let ds := s.forge.billets.filter (fun (b : Billet) => b.cls = 0 && !b.parity && b.train = s.forge.train)
  let acc := ((ds.map (·.ingot)).eraseDups).filterMap (fun k =>
    let mates := (List.range 60).flatMap (fun n => ds.filter (fun (b : Billet) => b.ingot = k && b.pos = n))
    (accumulate s mates []).map (fun a => (k, if s.forge.tc.isSome then c3Zeros a (60 - mates.length) else a)))
  { s with forge := { s.forge with acc := acc, rebuild := false } }

/-- Data billets of a billet's ingot by position. -/
def State.ingotMates (s : State) (b : Billet) : List Billet :=
  let ds := s.forge.billets.filter (fun x => x.cls = 0 && !x.parity && x.train = b.train && x.ingot = b.ingot)
  (List.range 60).flatMap (fun n => ds.filter (fun x => x.pos = n))

/-- The payload a frame's billet is re-formed to. -/
def State.reformPayload (s : State) (b : Billet) : Option Bytes :=
  if b.cls ≠ 0 then assocGet s.forge.block b.serial
  else if b.parity then
    let mates := s.ingotMates b
    (accumulate s mates []).map (fun acc => c3Billet (c3Zeros acc (60 - mates.length)) (b.pos - 60))
  else s.repack b

/-- First uncorrectable burst under the raw copies of some records, with the record. -/
def State.badRaw (s : State) (rs : List Nat) : Option (Nat × Nat) :=
  rs.findSome? (fun r => match s.rec? r with
    | none => none
    | some x => ((s.hearth.busError ((s.hearth.bursts x.chunks 0 x.len).map Prod.fst)).map (fun a => (a, r))))

/-- Engines quarantined one after another. -/
def quarantineEngines : List (Fin 24) → State → State
  | [], s => s
  | e :: r, s => quarantineEngines r (s.quarantineUnit 3 e)

/-- Engine named in the form digest of the CU at which a billet begins. -/
def State.digestEngine (s : State) (b : Billet) : Option Nat :=
  (s.rec? b.firstRec).bind (fun x => (x.cus.find? (fun c => c.idx = b.firstCu)).map (·.engine))

/-- The oldest frame that waits is re-formed and pushed to the head of its write list with its attempt number; `wrong` are the engines
whose re-formed CU differed from its digest, `disputed` that two further engines agreed against the digest (R132, R136, R237). After a
takeover, once every owed frame is re-formed, the C3 accumulators are rebuilt (R443). -/
def execReform (wrong : List (Fin 24)) (disputed : Bool) (s : State) : Host.Outcome State Fault Refusal :=
  .next (match s.forge.reforms with
  | [] => if s.forge.rebuild then s.rebuildAcc else s
  | x :: rest =>
    match s.forge.billets.find? (fun b => b.serial = x.serial && b.cls = x.cls) with
    | none => { s with forge := { s.forge with reforms := rest } }
    | some b =>
      if x.home.any (fun h => h + 500 < s.heat.h) then { s with forge := { s.forge with reforms := rest } }.exhaust x
      else if s.anvil.free < 16 then s
      else
        let s := { s with comp := { s.comp with digestMis := satAdd 32 s.comp.digestMis wrong.length } }
        if disputed then
          let s := quarantineEngines (wrong.take 1) s
          let s := match s.digestEngine b with
            | some e => s.quarantineUnit 3 e
            | none => s
          let s := { s with comp := { s.comp with digestExh := satAdd 32 s.comp.digestExh 1 },
                            forge := { s.forge with reforms := rest } }
          s.exhaust x
        else
          let s := quarantineEngines wrong s
          match s.reformPayload b with
          | none =>
            let rs := if b.parity then (s.ingotMates b).flatMap (·.recs) else b.recs
            (match s.badRaw rs with
            | some (a, _) => (s.uncorrectable a 5).bufferLoss (fun y => rs.contains y.num && (s.badRaw [y.num]).isSome)
            | none => s)
          | some payload =>
            match (billetFrames payload)[x.j]? with
            | none => s
            | some bytes =>
              let y := { frameAt s.fmt b x.short x.j bytes with attempt := x.attempt, home := x.home }
              let s := { s with forge := { s.forge with reforms := rest }, anvil := { s.anvil with free := s.anvil.free - 16 } }
              s.pushFront y)

end Sys2Proof.Machine
end

