-- ==== Sys2Proof/Machine/HeatCtl.lean ====
section
/-! DEFINITION. The heat controller: what each heat position holds, home heats, retirements, ledger bookkeeping, the wrap change and
the end of writing (R45, R53, R64, R68 to R76, R118 to R120, R137 to R141, R147, R193, R322). -/

namespace Sys2Proof.Machine

/-! ## Lag (R119) -/

/-- Frames of a write list whose home heat has begun. -/
def Chan.lag (c : Chan) : Nat := (c.wlist.filter (fun x => x.home.isSome)).length

/-- The largest lag over the logical channels. -/
def State.maxLag (s : State) : Nat := s.heat.map.foldl (fun m p => max m (s.chan p).lag) 0

/-- A rewrite heat is due, with `left` positions to the end of the data area. -/
def State.rewriteDue (s : State) (left : Nat) : Bool :=
  s.paramN 0x04070800 ≤ s.maxLag || (left < 192 && 0 < s.maxLag)

/-! ## A formed heat (R118) -/

/-- The frame belongs to a formed heat. -/
def FormedHeat.owns (x : FormedHeat) (f : Frame) : Bool := f.cls = x.cls && x.serials.contains f.serial

/-- At least ANVIL_CUT cells of every frame of a formed heat are in the Anvil. -/
def State.heatReady (s : State) (x : FormedHeat) : Bool :=
  let cut := s.paramN 0x04070100
  s.anvil.chans.foldl (fun n c => n + (c.wlist.filter (fun f => x.owns f && cut ≤ f.present)).length) 0 = 126 * x.serials.length

/-- The home heat of a formed heat's frames and billets is `h` (R118). -/
def State.setHome (x : FormedHeat) (h : Nat) (s : State) : State :=
  let f := fun (y : Frame) => if x.owns y then { y with home := some h } else y
  { s with
    anvil := { s.anvil with chans := s.anvil.chans.map (fun (c : Chan) => { c with wlist := c.wlist.map f, enc := c.enc.map f }) },
    forge := { s.forge with
      formed := s.forge.formed.drop 1,
      billets := s.forge.billets.map (fun (b : Billet) => if b.cls = x.cls && x.serials.contains b.serial then { b with home := some h } else b) } }

/-! ## Retirement (R38, R138 to R140, R193) -/

/-- Element `p` retired at a billet heat boundary: map generation up, logical channel and write list to the spare; without a free
spare it stays and SPARES_EXHAUSTED is reported. An element that carries no logical channel is only noted. -/
def State.retireElement (p : Nat) (s : State) : State :=
  if s.heat.retired.contains p then s
  else if (s.heat.logicalOf p).isNone then { s with heat := { s.heat with retired := s.heat.retired ++ [p] } }
  else match spareFor s.fmt s.heat.map s.heat.retired p with
    | none => { s with blw := { s.blw with sparesExhausted := true } }.blwCause 7 p
    | some x =>
      let c := s.chan p
      let s := s.modAnvil x (fun d => { d with wlist := d.wlist ++ c.wlist, enc := d.enc ++ c.enc })
      let s := s.modAnvil p (fun c => { c with wlist := [], enc := [] })
      { s with heat := { s.heat with map := s.heat.map.map (fun q => if q = p then x else q), mapGen := (s.heat.mapGen + 1) % 128,
                                     retired := s.heat.retired ++ [p] } }.blwCause 6 p

/-- Elements retired one after another. -/
def retireAll : List Nat → State → State
  | [], s => s
  | p :: r, s => retireAll r (s.retireElement p)

/-- Elements that every session retires: HEAD_RETIRED and those the calibration set rules out (R139, R193, Table 14-12). -/
def State.sessionRetired (s : State) : List Nat :=
  let host := (List.range 16).filterMap (fun e =>
    let v := s.paramN (0x04071100 + e)
    if v < 1024 then some v else none)
  let cal := (List.range 1024).filter (fun p => p % 256 % fmtStride s.fmt = 0 && s.tongs.alwaysRetired p)
  (host ++ cal).eraseDups

/-- The retirements of a billet heat boundary (R138, R139). -/
def State.retireNow (s : State) : State :=
  let due := s.heat.retireDue.map (fun l => s.heat.element l)
  let s := { s with heat := { s.heat with retireDue := [] } }
  let s := if s.heat.first then s.applyParams .session else s
  let more := if s.heat.first then s.sessionRetired else []
  let s := retireAll (due ++ more) s
  { s with heat := { s.heat with first := false } }

/-! ## Ledger bookkeeping (Tables 02-14 to 02-16) -/

/-- LPOS of the write row in mm. -/
def State.lposMm (s : State) : Int := s.servo.lpos / 256000

/-- The wrap entry of the current wrap changed. -/
def State.modWrap (f : WrapEntry → WrapEntry) (s : State) : State :=
  s.modImage (fun m => { m with wraps := modAt m.wraps s.heat.wrap f })

/-- Retired elements as a wrap entry lists them: up to four per band (Table 02-16). -/
def retiredEntry (ps : List Nat) : List (Nat × Nat) :=
  (List.range 4).flatMap (fun b => ((ps.filter (fun p => p / 256 = b)).take 4).map (fun p => (b, p % 256)))

/-- The wrap entry after a written heat; it begins anew with the wrap. -/
def State.noteHeat (rewrite : Bool) (rewritten : Nat) (s : State) : State :=
  s.modWrap (fun e =>
    let e : WrapEntry := if s.heat.h = 0 then {} else e
    { e with
      state := max 1 e.state, mapGen := s.heat.mapGen, heats := s.heat.h + 1, rewritten := e.rewritten + rewritten,
      rewriteHeats := e.rewriteHeats + b2n rewrite, retired := retiredEntry s.heat.retired })

/-- Locate index, first record, first serial and byte counts of a billet heat (Tables 02-14, 02-16). -/
def State.noteBillets (bs : List Billet) (s : State) : State :=
  let key := s.heat.wrap * 65 + segmentOf s.lposMm
  let first := bs.findSome? (·.firstDesc)
  let used := bs.foldl (fun n b => n + b.used) 0
  let raw := bs.foldl (fun n b => n + b.trailers.foldl (fun k r => k + ((s.rec? r).map (·.len)).getD 0) 0) 0
  let s := s.modImage (fun m => { m with
    payloadBytes := m.payloadBytes + used, rawBytes := m.rawBytes + raw,
    index := match first with
      | some r => if m.index.any (fun e => e.1 = key) then m.index else m.index ++ [(key, r, s.heat.h)]
      | none => m.index })
  s.modWrap (fun e => { e with
    first := e.first.or first,
    firstSerial := if s.heat.wrap = 0 || e.firstSerial ≠ 0 then e.firstSerial else (bs.head?.map (·.serial)).getD 0 })

/-- The place after a heat, as a tape position. -/
def State.posAfter (s : State) (serial : Nat) : TapePos :=
  { wrap := s.heat.wrap, heat := s.heat.h + 1, lpos := s.lposMm, serial := serial }

/-- The train whose last parity heat begins now ends behind it (Table 02-14, R316). -/
def State.noteTrainEnd (x : FormedHeat) (bs : List Billet) (s : State) : State :=
  if x.parity && x.t % 4 = 3 && bs.any (fun b => b.pos = 63) then
    let p := s.posAfter ((x.serials.headD 0 + fmtGroups s.fmt) % 2 ^ 32)
    { s with forge := { s.forge with ends := s.forge.ends ++ [(x.train, p)] } }
  else s

/-! ## Items of a heat (R39, R51, R119, R120) -/

/-- What every channel needs at a heat's start. -/
structure HeatStart where
  fmt : Nat
  wrap : Nat
  h : Nat
  mapGen : Nat
  rewrite : Bool
  /-- Every channel writes slag fill: a splice heat (R72) -/
  slag : Bool
  cut : Nat

/-- The true header of a frame written in a heat (R55, Table 02-6). -/
def HeatStart.header (i : HeatStart) (x : Frame) : FrameHdr :=
  { id := fmtId i.fmt, cls := x.cls, attempt := x.attempt, rewrite := i.rewrite, short := x.short, parity := x.parity, wrap := i.wrap,
    written := i.h, mapGen := i.mapGen, offset := i.h - x.home.getD i.h, l := x.l, serial := x.serial }

/-- The codeword with the true header: the zeroed-header codeword plus the C1 codeword of the header difference (R120). -/
def HeatStart.patch (i : HeatStart) (x : Frame) : Bytes :=
  let h := i.header x
  xorBytes x.word (c1Encode (xorBytes h.bytes h.zeroed ++ zeros 944))

/-- The item a channel starts: the frame at the head of its list once its home heat has begun and ANVIL_CUT cells are present, else
slag fill; an element that the format does not use writes nothing (R46, R119, R422). -/
def HeatStart.item (i : HeatStart) (p : Nat) (c : Chan) : Chan :=
  let c := c.cut
  if p % 256 % fmtStride i.fmt ≠ 0 then c
  else
    let slag := { c with bits := c.bits ++ slagItem, started := true, slag := true, inFrame := false }
    match c.wlist with
    | x :: rest =>
      if !i.slag && x.home.isSome && i.cut ≤ x.present then
        { c with wlist := { x with patched := i.patch x, written := i.h, sent := 0 } :: rest, bits := c.bits ++ frameHead,
                 started := true, slag := false, inFrame := true }
      else slag
    | [] => slag

/-- Kind of a heat as the journal and the mirror number it. -/
def HeatKind.code : HeatKind → Nat
  | .none => 0
  | .billet => 1
  | .rewrite => 2
  | .ledger => 3
  | .eod => 4
  | .splice => 5

/-- Every channel starts its item; frames that were still in progress count as slag frames; the heat is journalled, mirrored and
counted (R118, R449, Table 15-4). -/
def State.startHeat (kind : HeatKind) (serials : List Nat) (s : State) : State :=
  let cutNow := (s.anvil.chans.filter (·.inFrame)).length
  let i : HeatStart := { fmt := s.fmt, wrap := s.heat.wrap, h := s.heat.h, mapGen := s.heat.mapGen, rewrite := kind = .rewrite,
                         slag := kind = .splice, cut := s.paramN 0x04070100 }
  let s := { s with anvil := { s.anvil with chans := s.anvil.chans.mapIdx i.item } }
  let s := s.countSlag cutNow
  let started := s.heat.map.filterMap (fun p => if (s.chan p).inFrame then (s.chan p).wlist.head? else none)
  let s := s.noteHeat (kind = .rewrite) (started.filter (fun x => x.attempt ≠ 0)).length
  let s := if kind = .rewrite then { s with blw := { s.blw with rewriteHeats := satAdd 64 s.blw.rewriteHeats 1 } } else s
  let s := s.order 3 (leBytes 4 s.heat.h ++ [byte kind.code, byte (b2n s.heat.quench)] ++ leBytes 2 (s.heat.map.length - started.length))
  let sf := ((s.tongs.ports[0]?).map (·.superframe.toNat)).getD 0
  s.mirror (.heat s.heat.wrap s.heat.h kind.code serials s.heat.retired sf)

/-! ## The end of writing (R62, R70, R76, R145, R322) -/

/-- Nothing is left to form: no open train, nothing formable, no formed heat waiting. -/
def State.formingDone (s : State) : Bool :=
  s.forge.t = 0 && s.forge.tc.isNone && s.forge.pos.isNone && s.forge.formed = []
    && (!s.formable || (s.heat.drain && s.heat.wrap + 1 = fmtWraps s.fmt))

/-- Every frame of this writing has been passed or exhausted. -/
def State.allSettled (s : State) : Bool :=
  s.forge.billets = [] && s.forge.reforms = [] && s.anvil.chans.all (fun c => c.wlist = [] && c.hold = [] && c.enc = [])

/-- The image of an end of data at a position (Table 02-14). -/
def State.eodImage (s : State) (p : TapePos) (m : LedgerImage) : LedgerImage :=
  { m with eodValid := true, sessionOpen := false, recordLimit := s.lowestOpen.getD s.nextNumber, eodPos := p }

/-- Writing has ended: the image with EOD valid issued, the tape asked to stop, the next write appends at the EOD block; a
starvation stop is reported (R72, R76, R142, R145). -/
def State.finishWriting (p : TapePos) (s : State) : State :=
  let starve := s.forge.starveEnd
  let s := (s.modImage (s.eodImage p)).issueImage
  let s := ((s.clearForge).dropSpeedRequest).mirror .ended
  let s := { s with cart := { s.cart with appendPos := p, eodChecked := true }, blw := { s.blw with starveStopped := starve } }
  let s := (s.takePool).stopTape
  let s := if starve then s.blwCause 10 0 else s
  s.pumpTape

/-- While writing ends: the EOD block is formed once every frame is settled, and writing ends once the block's frames are (R70,
log 40). -/
def State.endStep (s : State) : State :=
  if !s.forge.ending || !s.formingDone || !s.allSettled then s
  else match s.forge.eodAt with
    | some p => s.finishWriting p
    | none =>
      let p : TapePos := { wrap := s.heat.wrap, heat := s.heat.h + 1, lpos := s.lposMm, serial := s.forge.nextSerial }
      let m := s.eodImage p s.cart.image
      s.formBlock { m with seq := m.seq + 1 } true

/-! ## The boundary (R118, R119) -/

/-- A formed heat begins: retirements first at a billet heat, home heats set, the ledger noted. -/
def State.beginFormed (x : FormedHeat) (s : State) : State :=
  let s := if x.cls = 0 then s.retireNow else s
  let h := s.heat.h
  let s := s.setHome x h
  let bs := s.forge.billets.filter (fun (b : Billet) => b.cls = x.cls && x.serials.contains b.serial)
  let s := if x.cls = 0 then (if x.parity then s.noteTrainEnd x bs else s.noteBillets bs) else s
  let s := if x.cls = 2 && x.t = 0 then
      { s with forge := { s.forge with eodAt := some { wrap := s.heat.wrap, heat := h, lpos := s.lposMm, serial := x.serials.headD 0 } } }
    else s
  let kind : HeatKind := if x.cls = 0 then .billet else if x.cls = 1 then .ledger else .eod
  { s with heat := { s.heat with kind := kind } }.startHeat kind x.serials

/-- A heat of one kind that carries no new billet. -/
def State.plainHeat (kind : HeatKind) (s : State) : State := { s with heat := { s.heat with kind := kind } }.startHeat kind []

/-- The kind of the coming heat, `left` positions before the end of the data area, while write gate is on. -/
def State.chooseHeat (left : Nat) (s : State) : State :=
  if s.heat.splice then
    let k := s.heat.blockLeft
    { s with heat := { s.heat with blockLeft := k - 1, splice := decide (1 < k) } }.plainHeat .splice
  else match s.forge.formed with
    | x :: _ =>
      -- a ledger block stands at heat positions 0 and 1 whatever its frames' progress
      if x.cls = 1 || (!s.rewriteDue left && s.heatReady x && !s.forge.rebuild) then s.beginFormed x
      else s.plainHeat .rewrite
    | [] => s.plainHeat .rewrite

/-- Frames whose next writing would lie beyond home heat + 500 (R133). -/
def State.overdue (s : State) : List Frame :=
  s.heat.map.flatMap (fun p => (s.chan p).wlist.filter (fun x => x.home.any (fun h => h + 500 < s.heat.h)))

/-- Overdue frames taken out of their lists and exhausted. -/
def State.exhaustOverdue (s : State) : State :=
  let l := s.overdue
  if l = [] then s
  else
    let keep := fun (x : Frame) => !l.any (fun y => x.same y)
    let s := { s with anvil := { s.anvil with chans := s.anvil.chans.map (fun (c : Chan) =>
      if c.wlist.all keep then c else { c.cut with wlist := c.cut.wlist.filter keep, enc := c.enc.filter keep }) } }
    exhaustAll l s

/-- What holds write gate off: Quench, a head port DOWN, a fault, a wrap that the servo unit does not confirm (R141, R189, R420, R457,
R476). -/
def State.gateHeld (s : State) : Bool :=
  s.heat.quench || !s.headsUp || s.pins.gateLocked || decide (s.servo.wrap ≠ some s.heat.wrap)

/-- Every frame still pending. -/
def State.pendingFrames (s : State) : List Frame :=
  s.forge.reforms ++ s.anvil.chans.flatMap (fun c =>
    c.wlist ++ c.hold ++ (c.enc.filter (fun x => x.present = 0)))

/-! ## The exchange of roles (R445) -/

/-- The active gives up its role: RELEASE on every port, HANDOVER over M2, TWIN_SWAP answered. What it was writing stays as the mirror of
the new active's writing. -/
def State.handOver (m : Nat) (s : State) : State :=
  let pend := s.pendingFrames
  let was := s.forge.writing
  let passes := s.forge.billets.flatMap (fun (b : Billet) => ((List.range 126).filter (fun j =>
    !pend.any (fun (x : Frame) => x.cls = b.cls && x.serial = b.serial && x.j = j))).map (fun j => (b.cls, b.serial, j)))
  let fails := pend.flatMap (fun (x : Frame) => List.replicate x.attempt (x.cls, x.serial, x.j))
  let s := { s with tongs := { s.tongs with ports := s.tongs.ports.map (fun (p : Port) => { p with release := true, owner := false, gate := false }) } }
  let s := (s.flushAnvil).dropSpeedRequest
  let s := { s with
    forge := { s.forge with writing := false, reforms := [] },
    heat := { s.heat with gate := false, kind := .none },
    twin := { s.twin with role := 2, peer := 1, swap := none, swaps := satAdd 32 s.twin.swaps 1, passes := passes, fails := fails,
                          peerWrites := was } }
  (s.emit .handover).done m []

/-- A heat boundary while writing (R118); a TWIN_SWAP takes effect at it (R445). -/
def State.boundary (s : State) : State :=
  match s.twin.swap with
  | some m => s.handOver m
  | none =>
  let s := (s.applyParams .heat).takePool
  let left := positionsLeft s.fmt s.heat.wrap s.servo.lpos
  let s := s.exhaustOverdue
  let s := if s.heat.drain && s.heat.wrap + 1 = fmtWraps s.fmt then s.endWriting else s
  let s := s.endStep
  if !s.forge.writing then s
  else
    let s := if left = 0 then { s with heat := { s.heat with wrapEnd := true, gate := false, kind := .none } }
      else if s.gateHeld then { s with heat := { s.heat with gate := false, kind := .none } }
      else { s with heat := { s.heat with gate := true } }.chooseHeat left
    let h := s.heat.h
    { s with heat := { s.heat with h := h + 1, left := left - 1 } }

/-- HEAT_BOUNDARY: the tape has reached the next heat position while writing. -/
def execHeatBoundary (s : State) : Host.Outcome State Fault Refusal :=
  .next (if s.forge.writing && (s.motion.state = 3 || s.motion.state = 4) then s.boundary else s)

/-! ## The wrap change (R45, R62, R64, R68, R76, R133, R139) -/

/-- Everything still pending on the wrap is exhausted at the end of its drain (R133). -/
def State.exhaustWrap (s : State) : State :=
  let l := s.pendingFrames
  let s := { s with
    anvil := { s.anvil with chans := s.anvil.chans.map (fun (c : Chan) => { c.cut with wlist := [], hold := [], enc := [] }) },
    forge := { s.forge with reforms := [] } }
  let s := exhaustAll l s
  let s := { s with forge := { s.forge with formed := [], billets := [], block := [], t := 0, closing := false, tc := none, acc := [],
                                            train := if s.forge.t = 0 then s.forge.train else s.forge.train + 1 } }
  s.tryRelease

/-- The turnaround to the next wrap: its entry and image, its ledger block, TURNAROUND posted, lanes to ACQUIRE. -/
def State.nextWrap (s : State) : State :=
  let s := (s.modWrap (fun e => { e with state := 2 })).issueImage
  let w := s.heat.wrap + 1
  let s := { s with heat := { s.heat with wrap := w, h := 0, kind := .none, drain := false, wrapEnd := false, splice := false, blockLeft := 0,
                                          gate := false, left := fmtHeats s.fmt } }
  ((s.formBlock s.cart.image false).lanesAcquire).motionReq { kind := 4, dir := w % 2 = 1 }

end Sys2Proof.Machine
end

