-- ==== Sys2Proof/Machine/Bellows.lean ====
section
/-! DEFINITION. The Bellows: speed caps, requests and their handshake, starvation, the status words of its block (R142 to R148, R239,
R300, R424, R430, R476). -/

namespace Sys2Proof.Machine

/-- Writing or reading is under way: the Bellows acts and SPD_ACK counts (R142). -/
def State.streams (s : State) : Bool := s.forge.writing || s.rd.reading

/-- The lowest record not yet formed is OPEN: the Bellows acts as if nothing waited (R300). -/
def State.heldBack (s : State) : Bool :=
  match (s.recs.recs.filter (fun x => x.state = .opened || (x.state = .sealed && !x.packed))).head? with
  | some x => x.state = .opened
  | none => false

/-- The fill that R143 and R145 act on. -/
def State.actingFill (s : State) : Nat := if s.forge.writing && s.heldBack then 0 else s.blwFill

/-- Some CU of a sealed record of effort `e` is not yet compressed (R239). -/
def State.effortWaits (s : State) (e : Nat) : Bool :=
  (s.recsIn .sealed).any (fun x => x.setting.toNat / 8 = e &&
    (List.range (cuCount x.len)).any (fun i => (x.cu i).comp.isNone && (x.cu i).item.isNone))

/-- Highest speed with `c` C1 decoder cores in service (R430). -/
def coreCap (c : Nat) : Nat := if 48 ≤ c then 3 else if 36 ≤ c then 2 else if 27 ≤ c then 1 else 0

/-- The highest level of SPD_REQ that every cap in force allows. -/
def State.speedCap (s : State) : Nat :=
  let caps := [coreCap (s.unitsIn 1 52), if s.pvt.cap then 1 else 3]
    ++ (if s.forge.writing then
      [if s.tongs.calFailed then 0 else 3, if s.effortWaits 2 then s.paramN 0x08050200 else 3, if s.effortWaits 3 then s.paramN 0x08050300 else 3]
    else [])
    ++ (if s.rd.reread.any (fun r => r.k = 6) then [0] else [])
  caps.foldl min 3

/-- The level a new request would carry: a step down towards a cap, else the step of R143. -/
def State.nextLevel (s : State) : Nat :=
  let v := s.pins.spdReq.toNat
  let cap := s.speedCap
  let fill := s.actingFill
  let up := if s.forge.writing then s.paramN 0x04071400 ≤ fill else fill ≤ s.paramN 0x04071500
  let down := if s.forge.writing then fill ≤ s.paramN 0x04071300 else s.paramN 0x04071600 ≤ fill
  if cap < v then v - 1
  else if up && v < 3 && v < cap then v + 1
  else if down && 0 < v then v - 1
  else v

/-- A SPEED entry: level of SPD_REQ, and 0 no edge, 1 rise, 2 fall of SPD_ACK (Table 15-9). -/
def State.speedEntry (edge : Nat) (s : State) : State := s.journal 0x05 0 [byte s.pins.spdReq.toNat, byte edge]

/-- SPEED_REQUEST: with SPD_ACK high and BLW_DWELL past since its rise, the request changes by one step (R143, R144). -/
def execSpeedRequest (s : State) : Host.Outcome State Fault Refusal :=
  .next (if !s.streams || !s.pins.spdAck || s.blw.ackPending then s
    else
      let v := s.nextLevel
      if v = s.pins.spdReq.toNat then s
      else
        let s := { s with pins := { s.pins with spdReq := BitVec.ofNat 2 v }, blw := { s.blw with ackPending := true, fell := false } }
        s.speedEntry 0)

/-- SPD_ACK_FALL: the ramp of a pending request has begun (Table 04-5). -/
def execSpdAckFall (s : State) : Host.Outcome State Fault Refusal :=
  .next ({ s with pins := { s.pins with spdAck := false }, blw := { s.blw with fell := s.blw.fell || s.blw.ackPending } }.speedEntry 2)

/-- SPD_ACK_RISE: after its fall it acknowledges the pending request (R142, R144). -/
def execSpdAckRise (s : State) : Host.Outcome State Fault Refusal :=
  let acks := s.blw.ackPending && s.blw.fell && s.streams
  let s := { s with
    pins := { s.pins with spdAck := true },
    blw := if acks then { s.blw with speedCur := s.pins.spdReq, ackPending := false, fell := false } else s.blw }
  .next (s.speedEntry 1)

/-- SPEED_TIMEOUT: the request stays and SPEED_TIMEOUT sets (Table 04-5). -/
def execSpeedTimeout (s : State) : Host.Outcome State Fault Refusal :=
  .next (if s.streams && s.blw.ackPending then s.blwCause 1 0 else s)

/-- Writing at 6 m/s with nothing to write: STARVED of BLW_STATE, and the condition of R145 (R300). -/
def State.starved (s : State) : Bool := s.forge.writing && s.blw.speedCur = 0 && s.actingFill = 0

/-- STARVE_STOP: after BLW_STARVE_TIME of starvation writing ends and the tape stops, or streams on with slag rewrite heats (R145). -/
def execStarveStop (s : State) : Host.Outcome State Fault Refusal :=
  .next (if s.starved && !s.forge.ending && s.paramN 0x04071B00 = 1 then
      { s with forge := { s.forge with ending := true, starveEnd := true } }
    else s)

/-- STARVE_RESUME: writing resumes by appending at EOD (R145). -/
def execStarveResume (s : State) : Host.Outcome State Fault Refusal :=
  .next (if s.blw.starveStopped && (s.paramN 0x04071400 ≤ s.actingFill || s.recs.syncs ≠ []) then
      State.beginWriting { s with blw := { s.blw with starveStopped := false } }
    else s)

/-! ## Status words (Tables 04-8, 04-9) -/

/-- MODE of BLW_STATE: 1 write, 3 locate, 2 read (Table 04-9). -/
def State.blwMode (s : State) : Nat :=
  if s.forge.writing then 1 else if s.rd.locate.isSome || s.motion.state = 1 then 3 else if s.rd.reading then 2 else 0

/-- BLW_STATE (Table 04-9). -/
def State.blwState (s : State) : Nat :=
  min 127 s.maxLag + 128 * s.blw.speedCur.toNat + 512 * s.pins.spdReq.toNat + 2048 * b2n s.blw.ackPending + 4096 * s.blwMode
  + 16384 * b2n s.starved + 32768 * b2n s.forge.paused + 65536 * b2n s.heat.quench + 131072 * b2n s.blw.sparesExhausted
  + 262144 * b2n s.anvil.secded + 524288 * min 31 s.heat.retired.length

/-- ANVIL_MAX: the physical channel of highest occupancy and its cells (Table 04-8). -/
def State.anvilMax (s : State) : Nat :=
  let best := (List.range 1024).foldl (fun b p => if b.2 < (s.chan p).allCells then (p, (s.chan p).allCells) else b) (0, 0)
  min 1023 best.2 + best.1 * 65536

end Sys2Proof.Machine
end

