-- ==== Sys2Proof/Machine/Security.lean ====
section
/-! DEFINITION. The security monitor: roles, keys, slots, zeroize, self-tests (R245, R255 to R275). -/

namespace Sys2Proof.Machine

/-! ## Requests to the security monitor (R267, R270, R271) -/

/-- A SEC_ request: held while the self-tests run again (R270), else checked as R480 says. -/
def secServe (op size : Nat) (resOk : Bytes → Bool) (role : Nat) (body : MbReq → State → State) (r : MbReq) (s : State) : State :=
  if s.sec.state = .selfTest && op ≠ 0x0501 && op ≠ 0x050E then
    { s with sec := { s.sec with heldMb := s.sec.heldMb ++ [r.mb.toNat] } }
  else mbChecks op (sized size) resOk role body r s

/-- A nonce drawn from the DRBG (R255, R266). -/
def State.drawNonce (s : State) : Bytes := leBytes 16 (Config.nonce s.free).toNat

/-- Data-key slot `n`. -/
def State.slot (s : State) (n : Nat) : KeySlot := (s.sec.slots[n]?).getD {}

/-- Data-key slot `n` changed. -/
def State.modSlot (n : Nat) (f : KeySlot → KeySlot) (s : State) : State := { s with sec := { s.sec with slots := modAt s.sec.slots n f } }

/-! ## Identity and login (R266, R268) -/

def identityBody (r : MbReq) (s : State) : State :=
  let c := (Config.identityChain ()).take 3072
  s.done r.mb (leBytes 4 c.length ++ zeros 4 ++ c)

def serveSecGetIdentity : MbReq → State → State := secServe 0x0501 0 (fun _ => true) 0 identityBody

/-- SEC_GET_IDENTITY (R268). -/
def execSecGetIdentity (r : MbReq) (s : State) : Host.Outcome State Fault Refusal := .next (mbGo 0x0501 r serveSecGetIdentity s)

def challengeBody (r : MbReq) (s : State) : State :=
  if !s.sec.drbg then s.refuse 0x0502 Status.selfTestFailed r
  else
    let n := s.drawNonce
    ((s.drew).modMbox r.mb (fun b => { b with nonce := some n })).done r.mb n

def serveSecChallenge : MbReq → State → State := secServe 0x0502 0 (fun _ => true) 0 challengeBody

/-- SEC_CHALLENGE (R266). -/
def execSecChallenge (r : MbReq) (s : State) : Host.Outcome State Fault Refusal := .next (mbGo 0x0502 r serveSecChallenge s)

/-- A failed login: counted, AUTH_FAIL, lockout at the eighth in a row (R266). -/
def State.failLogin (m : Nat) (s : State) : State :=
  let n := s.sec.fails + 1
  { s with sec := { s.sec with fails := n, authFails := satAdd 32 s.sec.authFails 1, lockedOut := s.sec.lockedOut || n = 8 } }.secCause 5 m

/-- The authentication key of a role byte. -/
def State.authKey (s : State) (role : Nat) : Option Bytes := if role = 1 then s.sec.coKey else s.sec.userKey

def loginBody (r : MbReq) (s : State) : State :=
  let p := mbData r
  let role := getLe p 0 1
  if s.sec.lockedOut then s.refuse 0x0503 Status.loginLocked r
  else match (s.mbox r.mb).nonce with
    | none => s.refuse 0x0503 Status.sequenceError r
    | some n =>
      let s := s.modMbox r.mb (fun b => { b with nonce := none })
      let ok := match s.authKey role with
        | some k => cmac k (ascii "DXFLOGIN" ++ [byte role] ++ n ++ [byte r.mb]) == slice p 4 16
        | none => false
      if ok then
        (({ s with sec := { s.sec with fails := 0 } }).modMbox r.mb (fun b => { b with role := BitVec.ofNat 2 role })).done r.mb []
      else (s.failLogin r.mb).refuse 0x0503 Status.loginFailed r

/-- The role byte is 0x01 or 0x02, the reserved bytes zero. -/
def roleByteOk (p : Bytes) : Bool := (getLe p 0 1 = 1 || getLe p 0 1 = 2) && zeroAt p 1 3

def serveSecLogin : MbReq → State → State := secServe 0x0503 20 roleByteOk 0 loginBody

/-- SEC_LOGIN (R266). -/
def execSecLogin (r : MbReq) (s : State) : Host.Outcome State Fault Refusal := .next (mbGo 0x0503 r serveSecLogin s)

def logoutBody (r : MbReq) (s : State) : State := (s.modMbox r.mb (fun b => { b with role := 0, ktk := none })).done r.mb []

def serveSecLogout : MbReq → State → State := secServe 0x0504 0 (fun _ => true) 3 logoutBody

/-- SEC_LOGOUT (R266). -/
def execSecLogout (r : MbReq) (s : State) : Host.Outcome State Fault Refusal := .next (mbGo 0x0504 r serveSecLogout s)

/-! ## Key agreement and wrapped loads (R255 to R257) -/

def keyAgreeBody (r : MbReq) (s : State) : State :=
  let p := mbData r
  match ecPublic (slice p 0 97) with
  | none => s.respond r.mb Status.invalidField 1 []
  | some q =>
    if !s.sec.drbg then s.refuse 0x0505 Status.selfTestFailed r
    else
      let n := s.drawNonce
      let k := ktkOf (ecdh Config.identityKey q) s.glob.serial (slice p 97 16) n
      ((s.drew).modMbox r.mb (fun b => { b with ktk := some k })).done r.mb n

def serveSecKeyAgree : MbReq → State → State := secServe 0x0505 116 (fun p => zeroAt p 113 3) 0 keyAgreeBody

/-- SEC_KEY_AGREE (R255). -/
def execSecKeyAgree (r : MbReq) (s : State) : Host.Outcome State Fault Refusal := .next (mbGo 0x0505 r serveSecKeyAgree s)

/-- The role string of Table 09-4. -/
def roleLabel (role : Nat) : Bytes := if role = 1 then ascii "DXF-CO" ++ zeros 2 else ascii "DXF-USR" ++ zeros 1

/-- A load wrapped under the mailbox KTK: SEQUENCE ERROR without a KTK (log 32), WRAP INVALID where the integrity check
fails, else the continuation gets key and label (R256). -/
def underKtk (op : Nat) (wrap : Bytes) (r : MbReq) (f : Bytes → Bytes → State → State) (s : State) : State :=
  match (s.mbox r.mb).ktk with
  | none => s.refuse op Status.sequenceError r
  | some k =>
    match kwpUnwrap k wrap with
    | none => s.refuse op Status.wrapInvalid r
    | some p => f (p.take 32) (p.drop 32) s

def commissionBody (r : MbReq) (s : State) : State :=
  if s.sec.state = .operational || s.sec.debug then s.refuse 0x0506 Status.sequenceError r
  else underKtk 0x0506 (mbData r) r (fun key label s =>
    if label ≠ roleLabel 1 then s.refuse 0x0506 Status.labelInvalid r
    else { s with sec := { s.sec with coKey := some key, state := .operational, allowPlain := false, approved := true } }.done r.mb []) s

def serveSecCommission : MbReq → State → State := secServe 0x0506 48 (fun _ => true) 0 commissionBody

/-- SEC_COMMISSION (R267). -/
def execSecCommission (r : MbReq) (s : State) : Host.Outcome State Fault Refusal := .next (mbGo 0x0506 r serveSecCommission s)

def setAuthBody (r : MbReq) (s : State) : State :=
  let p := mbData r
  let role := getLe p 0 1
  underKtk 0x0507 (slice p 4 48) r (fun key label s =>
    if label ≠ roleLabel role then s.refuse 0x0507 Status.labelInvalid r
    else if role = 1 then { s with sec := { s.sec with coKey := some key } }.done r.mb []
    else { s with sec := { s.sec with userKey := some key } }.done r.mb []) s

def serveSecSetAuth : MbReq → State → State := secServe 0x0507 52 roleByteOk 1 setAuthBody

/-- SEC_SET_AUTH (R256). -/
def execSecSetAuth (r : MbReq) (s : State) : Host.Outcome State Fault Refusal := .next (mbGo 0x0507 r serveSecSetAuth s)

def kekLoadBody (r : MbReq) (s : State) : State :=
  let p := mbData r
  underKtk 0x0508 (slice p 4 48) r (fun key label s =>
    { s with sec := { s.sec with keks := modAt s.sec.keks (getLe p 0 1) (fun _ => some (key, label)) } }.done r.mb label) s

def serveSecKekLoad : MbReq → State → State := secServe 0x0508 52 (fun p => getLe p 0 1 < 4 && zeroAt p 1 3) 1 kekLoadBody

/-- SEC_KEK_LOAD (R256). -/
def execSecKekLoad (r : MbReq) (s : State) : Host.Outcome State Fault Refusal := .next (mbGo 0x0508 r serveSecKekLoad s)

def kekEraseBody (r : MbReq) (s : State) : State :=
  { s with sec := { s.sec with keks := modAt s.sec.keks (getLe (mbData r) 0 1) (fun _ => none) } }.done r.mb []

def serveSecKekErase : MbReq → State → State := secServe 0x0509 8 (fun p => getLe p 0 1 < 4 && zeroAt p 1 7) 1 kekEraseBody

/-- SEC_KEK_ERASE (R268). -/
def execSecKekErase (r : MbReq) (s : State) : Host.Outcome State Fault Refusal := .next (mbGo 0x0509 r serveSecKekErase s)

/-! ## Data-key slots (R257, R259, R260) -/

/-- Labels of every current and retained generation, the target's included (R257). -/
def State.labels (s : State) : List Bytes := s.sec.slots.flatMap (fun k => (k.cur.toList ++ k.old.toList).map (·.label))

/-- A slot after the load of a key: the new generation current, the old one retained while it has users (R259). -/
def KeySlot.load (k : KeySlot) (key label : Bytes) : KeySlot :=
  let g := k.lastGen + 1
  { k with cur := some { key := key, label := label, gen := g }, lastGen := g,
           old := k.cur.bind (fun c => if c.users = 0 then none else some c) }

def keyLoadBody (r : MbReq) (s : State) : State :=
  let p := mbData r
  let n := getLe p 0 1
  let k := s.slot n
  if k.erasing ≠ [] then s.refuse 0x050A Status.keyErasing r
  else match (s.sec.keks[getLe p 1 1]?).join with
    | none => s.refuse 0x050A Status.keyNotAvailable r
    | some (kek, _) =>
      match kwpUnwrap kek (slice p 4 48) with
      | none => s.refuse 0x050A Status.wrapInvalid r
      | some w =>
        let label := w.drop 32
        if label = zeros 8 || s.labels.contains label then s.refuse 0x050A Status.labelInvalid r
        else if k.old.any (fun g => g.users ≠ 0) then s.refuse 0x050A Status.slotBusy r
        else
          let s := s.modSlot n (fun k => k.load (w.take 32) label)
          s.done r.mb (leBytes 2 (k.lastGen + 1).toNat ++ zeros 6 ++ label)

def serveSecKeyLoad : MbReq → State → State :=
  secServe 0x050A 52 (fun p => getLe p 0 1 < 64 && getLe p 1 1 < 4 && zeroAt p 2 2) 2 keyLoadBody

/-- SEC_KEY_LOAD (R259). -/
def execSecKeyLoad (r : MbReq) (s : State) : Host.Outcome State Fault Refusal := .next (mbGo 0x050A r serveSecKeyLoad s)

def keyEraseBody (r : MbReq) (s : State) : State :=
  s.modSlot (getLe (mbData r) 0 1) (fun k => { k with erasing := k.erasing ++ [r.mb.toNat] })

def serveSecKeyErase : MbReq → State → State := secServe 0x050B 8 (fun p => getLe p 0 1 < 64 && zeroAt p 1 7) 2 keyEraseBody

/-- SEC_KEY_ERASE (R260): the slot is erasing; the command's completion is a command of its own. -/
def execSecKeyErase (r : MbReq) (s : State) : Host.Outcome State Fault Refusal := .next (mbGo 0x050B r serveSecKeyErase s)

/-- No generation of the slot has users. -/
def KeySlot.unused (k : KeySlot) : Bool := (k.cur.toList ++ k.old.toList).all (fun g => g.users = 0)

/-- Responses of SUCCESS to a list of mailboxes. -/
def doneAll : List Nat → State → State
  | [], s => s
  | m :: r, s => doneAll r (s.done m [])

/-- The generations of an erasing slot have no users left (R260). -/
def execKeyEraseComplete (slot : Fin 64) (s : State) : Host.Outcome State Fault Refusal :=
  .next (
    let k := s.slot slot
    if k.erasing ≠ [] && k.unused then
      let s := s.modSlot slot (fun k => { lastGen := k.lastGen })
      doneAll k.erasing (s.secCause 6 slot)
    else s)

/-- One entry of SEC_SLOT_INFO (Table 09-14). -/
def KeySlot.info (k : KeySlot) : Bytes :=
  let genOf := fun (g : Option KeyGen) => leBytes 2 ((g.map KeyGen.gen).getD 0).toNat
  let usersOf := fun (g : Option KeyGen) => leBytes 4 ((g.map KeyGen.users).getD 0)
  let labelOf := fun (g : Option KeyGen) => fit 8 ((g.map KeyGen.label).getD [])
  leBytes 1 (if k.erasing ≠ [] then 2 else if k.cur.isSome then 1 else 0) ++ zeros 1 ++ genOf k.cur ++ genOf k.old
  ++ leBytes 2 (b2n k.old.isSome) ++ usersOf k.cur ++ usersOf k.old ++ labelOf k.cur ++ labelOf k.old

def slotInfoBody (r : MbReq) (s : State) : State :=
  let p := mbData r
  s.done r.mb ((List.range (getLe p 1 1)).flatMap (fun i => (s.slot (getLe p 0 1 + i)).info))

/-- First slot, count and reserved bytes of a SEC_SLOT_INFO. -/
def slotRangeOk (p : Bytes) : Bool :=
  let n := getLe p 1 1
  getLe p 0 1 < 64 && 1 ≤ n && n ≤ 64 && getLe p 0 1 + n ≤ 64 && zeroAt p 2 6

def serveSecSlotInfo : MbReq → State → State := secServe 0x050C 8 slotRangeOk 3 slotInfoBody

/-- SEC_SLOT_INFO (R268). -/
def execSecSlotInfo (r : MbReq) (s : State) : Host.Outcome State Fault Refusal := .next (mbGo 0x050C r serveSecSlotInfo s)

/-! ## Zeroize (R261, R271) -/

/-- Generations of a slot. -/
def KeySlot.gens (k : KeySlot) : List KeyGen := k.cur.toList ++ k.old.toList

/-- Slot generations that a zeroize removes, as (slot, generation). -/
def State.gensOf (s : State) (slots : List Nat) : List (Nat × BitVec 16) :=
  slots.flatMap (fun n => (s.slot n).gens.map (fun g => (n, g.gen)))

/-- Every generation of some slots removed at once. -/
def State.wipeSlots (slots : List Nat) (s : State) : State :=
  slots.foldl (fun s n => s.modSlot n (fun k => { k with cur := none, old := none })) s

/-- OPEN records under removed keys become ABANDONED with a KEY ZEROIZED event (R261). -/
def zeroOpen : List Rec → State → State
  | [], s => s
  | x :: r, s => zeroOpen r (((s.deferError x.num Status.keyZeroized).endRec x.num .abandoned).mirror (.abandon x.num))

/-- Record reads under removed keys end with KEY ZEROIZED (R261). -/
def zeroReads : List ReadJob → State → State
  | [], s => s
  | j :: r, s => zeroReads r (s.endLadder.endRead j Status.keyZeroized 4)

/-- The users of removed slot generations are ended (R261). -/
def State.endUsers (gone : List (Nat × BitVec 16)) (s : State) : State :=
  let hit := fun (x : Rec) => x.encrypted && gone.contains (x.slot, x.gen)
  let s := zeroOpen ((s.recsIn .opened).filter hit) s
  let s := if (s.recsIn .sealed).any hit then
      s.writeAbort (fun x => if hit x then Status.keyZeroized else Status.abortedWriteAbort) else s
  let s := zeroReads (s.rd.jobs.filter (fun j => j.key.any gone.contains)) s
  s.pumpTape

/-- A zeroize of some slots, then ZEROIZE_DONE and the end of their users (R261, R271, Table 09-9). -/
def State.zeroizeSlot (slot : Nat) (s : State) : State :=
  let gone := s.gensOf [slot]
  ((s.wipeSlots [slot]).secCause 0 slot).endUsers gone

/-- A full zeroize: every item of Table 09-3 but the identity key in fuses removed, roles ended, the state back to
UNCOMMISSIONED unless it is ERROR, the DRBG seeded again unless TAMPER_N is low (R266, R267, R271). -/
def State.zeroizeFull (s : State) : State :=
  let all := List.range 64
  let gone := s.gensOf all
  let s := s.wipeSlots all
  let st : SecState := if s.sec.state = .operational then .uncommissioned else s.sec.state
  let s := { s with
    sec := { s.sec with
      keks := s.sec.keks.map (fun _ => none), coKey := none, userKey := none, drbg := !s.pins.tamperLow, identity := !s.pins.tamperLow,
      approved := false, allowPlain := true,
      state := st },
    mail := s.mail.map (fun (b : Mailbox) => { b with role := 0, ktk := none }) }
  (s.secCause 0 0).endUsers gone

/-- KEKs, data-key slots and KTKs removed by a change of approved mode (R273). -/
def State.wipeMode (s : State) : State :=
  let s := s.wipeSlots (List.range 64)
  { s with sec := { s.sec with keks := s.sec.keks.map (fun _ => none) }, mail := s.mail.map (fun b => { b with ktk := none }) }

def setModeBody (r : MbReq) (s : State) : State :=
  let p := mbData r
  let a := getLe p 0 1
  let pl := getLe p 1 1
  let change := a ≠ 0xFF && decide (a = 1) ≠ s.sec.approved
  let busy := (s.recsIn .opened) ≠ [] || (s.recsIn .sealed) ≠ [] || s.rd.jobs ≠ []
  if change && busy then s.refuse 0x050D Status.slotBusy r
  else
    let s := if change then s.wipeMode else s
    { s with sec := { s.sec with approved := if a = 0xFF then s.sec.approved else decide (a = 1),
                                 allowPlain := if pl = 0xFF then s.sec.allowPlain else decide (pl = 1) } }.done r.mb []

/-- Encodings of SEC_SET_MODE. -/
def modeOk (p : Bytes) : Bool :=
  let ok := fun (v : Nat) => v = 0 || v = 1 || v = 0xFF
  ok (getLe p 0 1) && ok (getLe p 1 1) && zeroAt p 2 6

def serveSecSetMode : MbReq → State → State := secServe 0x050D 8 modeOk 1 setModeBody

/-- SEC_SET_MODE (R273). -/
def execSecSetMode (r : MbReq) (s : State) : Host.Outcome State Fault Refusal := .next (mbGo 0x050D r serveSecSetMode s)

def zeroizeBody (r : MbReq) (s : State) : State :=
  let p := mbData r
  (if getLe p 0 1 = 1 then s.zeroizeFull else s.zeroizeSlot (getLe p 1 1)).done r.mb []

/-- Encodings of SEC_ZEROIZE. -/
def zeroizeOk (p : Bytes) : Bool :=
  let n := getLe p 1 1
  ((getLe p 0 1 = 0 && n < 64) || (getLe p 0 1 = 1 && n = 0)) && zeroAt p 2 6

def serveSecZeroize : MbReq → State → State := secServe 0x050E 8 zeroizeOk 0 zeroizeBody

/-- SEC_ZEROIZE as a mailbox command (R271). -/
def execSecZeroize (r : MbReq) (s : State) : Host.Outcome State Fault Refusal := .next (mbGo 0x050E r serveSecZeroize s)

/-- A write of 0x5A5A with bit 15 set to the SEC_ZEROIZE register (R275). -/
def execSecZeroizeFullWrite (s : State) : Host.Outcome State Fault Refusal := .next s.linkIn.zeroizeFull

/-- A write of 0x5A5A with bit 15 clear to the SEC_ZEROIZE register (R275). -/
def execSecZeroizeSlotWrite (slot : Fin 64) (s : State) : Host.Outcome State Fault Refusal := .next (s.linkIn.zeroizeSlot slot)

/-! ## TAMPER_N, debug, noise source, timeouts (R266, R270, R271, R475) -/

/-- A PIN entry: which pin and its new level (Table 15-9, log 19). -/
def State.pinEntry (pin : Nat) (level : Bool) (s : State) : State := s.journal 0x0B 0 [byte pin, byte (b2n level)]

/-- TAMPER_N low for 1 µs: a full zeroize (R271). -/
def execTamperNAssert (s : State) : Host.Outcome State Fault Refusal :=
  .next ({ s with pins := { s.pins with tamperLow := true } }.pinEntry 0 false |>.zeroizeFull |>.secCause 1 0)

/-- TAMPER_N high again: the DRBG is seeded and the services of R267 are offered again (R271). -/
def execTamperNRelease (s : State) : Host.Outcome State Fault Refusal :=
  .next ({ s with pins := { s.pins with tamperLow := false }, sec := { s.sec with drbg := true, identity := true } }.pinEntry 0 true)

/-- DEBUG_UNLOCK: a full zeroize, then the debug bridge open until power-on reset (R475). -/
def execDebugUnlock (s : State) : Host.Outcome State Fault Refusal :=
  .next (let s := s.zeroizeFull
         { s with sec := { s.sec with debug := true } })

/-- The time counter in nanoseconds. -/
def State.nowNs (s : State) : Nat := 1000000000 * s.time.sec.toNat + s.time.ns.toNat

/-- The security state becomes ERROR: SELFTEST_FAIL set (R270). -/
def State.secError (s : State) : State := { s with sec := { s.sec with state := .error } }.secCause 2 0

/-- A failure of the continuous health tests: output withheld, ERROR at the third within 1 s (Table 09-8). -/
def execEntropyHealthFail (s : State) : Host.Outcome State Fault Refusal :=
  .next (
    let recent := s.nowNs :: s.sec.entropyFails.filter (fun t => s.nowNs < t + 1000000000)
    let s := { s with sec := { s.sec with drbg := false, entropyFails := recent } }
    if 3 ≤ recent.length then s.secError else s)

/-- 10 s after its issue a nonce is valid no longer (R266). -/
def execNonceExpiry (mb : Fin 16) (s : State) : Host.Outcome State Fault Refusal :=
  .next (s.modMbox mb (fun b => { b with nonce := none }))

/-- 60 s after a lockout began (R266). -/
def execLockoutEnd (s : State) : Host.Outcome State Fault Refusal :=
  .next (if s.sec.lockedOut then { s with sec := { s.sec with lockedOut := false, fails := 0 } } else s)

/-! ## Self-test run (R270) -/

def selftestBody (r : MbReq) (s : State) : State :=
  { s with sec := { s.sec with state := .selfTest, testMb := some r.mb.toNat } }

def serveSecSelftest : MbReq → State → State := secServe 0x050F 0 (fun _ => true) 0 selftestBody

/-- SEC_SELFTEST (R270): the run begins; its end is a command of its own. -/
def execSecSelftest (r : MbReq) (s : State) : Host.Outcome State Fault Refusal := .next (mbGo 0x050F r serveSecSelftest s)

/-- AES pairs after a run: those that passed serve, the others are quarantined (R246, Table 09-8). -/
def State.setPairs (passed : List Nat) (s : State) : State :=
  let s := { s with sec := { s.sec with pairs := (List.range 80).filter passed.contains },
                    units := { s.units with quarantined := s.units.quarantined.filter (fun u => !(u.cls = 4 && passed.contains u.num)) } }
  ((List.range 80).filter (fun n => !passed.contains n)).foldl (fun s n => s.quarantine 4 n) s

/-- The state that a passing run leads to (R270). -/
def State.passTests (s : State) : State :=
  { s with sec := { s.sec with state := if s.sec.coKey.isSome then .operational else .uncommissioned, postPassed := true,
                                        drbg := !s.pins.tamperLow } }

end Sys2Proof.Machine
end

