-- ==== Sys2Proof/Machine/Lifecycle.lean ====
section
/-! DEFINITION. Firmware images, the start of an activation, power states, enable and shutdown, function reset (R352 to R363). -/

namespace Sys2Proof.Machine

/-! ## Firmware images (R352, R353) -/

def fwInfoBody (r : MbReq) (s : State) : State :=
  s.done r.mb (leBytes 8 s.fw.running.toNat ++ leBytes 8 (fwVersion s.fw.slot0) ++ leBytes 8 (fwVersion s.fw.slot1)
    ++ leBytes 8 (b2n s.fw.bootSlot) ++ leBytes 8 (if s.fw.stagedComplete then fwVersion s.fw.staged else 0) ++ leBytes 8 s.fw.floor)

def serveFwInfo : MbReq → State → State := mbChecks 0x0601 (sized 0) (fun _ => true) 0 fwInfoBody

/-- FW_INFO (R353). The order of its six values, 8 bytes each, is log 27. -/
def execFwInfo (r : MbReq) (s : State) : Host.Outcome State Fault Refusal := .next (mbGo 0x0601 r serveFwInfo s)

def fwDownloadBody (r : MbReq) (s : State) : State :=
  let p := mbData r
  let off := getLe p 0 4
  let len := getLe p 4 4
  if len = 0 || 1048576 < len then s.invalidOpen 0x0602 0 r
  else if off ≠ 0 && off ≠ s.fw.staged.length then s.invalidOpen 0x0602 1 r
  else if 4096 + 3145728 < off + len then s.invalidOpen 0x0602 2 r
  else if !r.io.ok then s.refuse 0x0602 Status.dataTransferError r
  else
    let old := if off = 0 then [] else s.fw.staged
    { s with fw := { s.fw with staged := old ++ fit len r.io.data } }.done r.mb []

def serveFwDownload : MbReq → State → State := mbChecks 0x0602 (sized 16) (fun _ => true) 1 fwDownloadBody

/-- FW_DOWNLOAD (R353). -/
def execFwDownload (r : MbReq) (s : State) : Host.Outcome State Fault Refusal := .next (mbGo 0x0602 r serveFwDownload s)

/-- The header of an image is well formed (Table 12-13). -/
def fwHeaderOk (b : Bytes) : Bool :=
  let cls := getLe b 6 2
  let body := getLe b 24 4
  let cert := getLe b 80 4
  slice b 0 4 == ascii "DXFW" && getLe b 4 2 = 1 && (cls = 1 || cls = 2) && getLe b 16 4 ≤ 31 && zeroAt b 21 3
    && 1 ≤ body && body ≤ 3145728 && getLe b 28 4 ≤ 1 && 1 ≤ cert && cert ≤ 2048 && zeroAt b 84 4
    && zeroAt b (88 + cert) (2048 - cert) && zeroAt b 2232 1864

/-- The certificate facts of a request: `aux` is trust, x, y. -/
def certOf (r : MbReq) : CertFacts := { trusted := decide (r.aux.headD 0 ≠ 0), x := (r.aux.getD 1 0).toNat, y := (r.aux.getD 2 0).toNat }

/-- The checks of R353 in their order; the detail of the first that fails. -/
def State.fwFault (s : State) (cert : CertFacts) (b : Bytes) : Option Nat :=
  let cls := getLe b 6 2
  if !fwHeaderOk b then some 1
  else if !cert.trusted then some 2
  else if !ecdsaOk (cert.x, cert.y) (slice b 0 2136) (slice b 2136 96) then some 3
  else if sha384 (slice b 4096 (getLe b 24 4)) != slice b 32 48 then some 4
  else if getLe b 20 1 ≠ 0x21 then some 5
  else if getLe b 16 4 < s.fw.floor then some 6
  else if cls = 2 && s.sec.approved then some 7
  else none

/-- The first FW_COMMIT in GO order is checked: it is rejected and the next one checked, or it goes on to write the slot. -/
def checkCommits : List (Nat × Bool) → State → State
  | [], s => { s with fw := { s.fw with commit := [] } }
  | (m, f) :: rest, s =>
    let b := s.fw.staged
    if b.length < 4096 then checkCommits rest (s.respond m Status.invalidField 8 [])
    else match s.fwFault (((s.mbox m).req.map certOf).getD {}) b with
      | some d => checkCommits rest (s.respond m Status.invalidField (if d = 1 || s.fw.stagedComplete then d else 8) [])
      | none => if s.fw.stagedComplete then { s with fw := { s.fw with commit := (m, f) :: rest } }
        else checkCommits rest (s.respond m Status.invalidField 8 [])

def fwCommitBody (r : MbReq) (s : State) : State :=
  let e := (r.mb.toNat, bitAt (getLe (mbData r) 0 4) 0)
  if s.fw.commit = [] then checkCommits [e] s else { s with fw := { s.fw with commit := s.fw.commit ++ [e] } }

def serveFwCommit : MbReq → State → State := mbChecks 0x0603 (sized 4) (fun p => getLe p 0 4 ≤ 1) 1 fwCommitBody

/-- FW_COMMIT (R353): the checks; writing the slot ends with a command of its own. -/
def execFwCommit (r : MbReq) (s : State) : Host.Outcome State Fault Refusal := .next (mbGo 0x0603 r serveFwCommit s)

/-- A boot-slot record (R472). -/
def bootRecord (seq : BitVec 32) (one : Bool) : Bytes :=
  let b := ascii "BSLT" ++ leBytes 4 seq.toNat ++ leBytes 1 (b2n one) ++ zeros 3
  b ++ leBytes 4 (crc32c b).toNat

/-- A slot is marked as the boot slot: the other record is overwritten with the next sequence number (R353, R472). -/
def State.markSlot (one : Bool) (s : State) : State :=
  let seq := s.fw.bootSeq + 1
  let b := !s.fw.bootRecB
  { s with fw := { s.fw with bootSlot := one, bootSeq := seq, bootRecB := b } }.emit
    (.flash (if b then 0x3000 else 0x2000) (bootRecord seq one))

/-- The inactive slot has been written and read back: the mark, the floor where asked, SUCCESS, the next FW_COMMIT (R353). -/
def execFwCommitComplete (s : State) : Host.Outcome State Fault Refusal :=
  .next (match s.fw.commit with
  | [] => s
  | (m, raise) :: rest =>
    let b := s.fw.staged
    let one := !s.fw.bootSlot
    let s := s.emit (.flash (if one then 0x500000 else 0x100000) b)
    let s := if one then { s with fw := { s.fw with slot1 := b } } else { s with fw := { s.fw with slot0 := b } }
    let s := s.markSlot one
    let v := getLe b 16 4
    let s := if raise && s.fw.floor < v then { s with fw := { s.fw with floor := v } }.emit (.fuse v) else s
    checkCommits rest (s.done m []))

/-! ## Start of an activation (R354) -/

/-- A long-running command is in progress on some mailbox (Table 12-5). -/
def State.longBusy (s : State) : Bool := s.mail.any (fun b => b.state = 1 && longRunning b.opcode.toNat)

def fwActivateBody (r : MbReq) (s : State) : State :=
  let b := s.fw.slot s.fw.bootSlot
  if fwVersion b = s.fw.running.toNat then s.seqError r 1
  else if getLe b 28 4 % 2 = 0 then s.seqError r 2
  else if s.longBusy || s.glob.shutdown = 1 then s.seqError r 3
  else if s.fw.act ≠ .none then s.refuse 0x0604 Status.sequenceError r
  else match s.fwFault (certOf r) b with
    | some d => s.respond r.mb Status.invalidField d []
    | none =>
      let s := if s.units.running.any (fun t => t.kind = 2) then s.endSelfTest 4 else s
      { s with fw := { s.fw with act := .preparing, actMb := some r.mb.toNat, prevSlot := !s.fw.bootSlot } }

def serveFwActivate : MbReq → State → State := mbChecks 0x0604 (sized 0) (fun _ => true) 1 fwActivateBody

/-- FW_ACTIVATE (R354): accepted, it prepares; the steps of Table 12-14 are commands of their own. -/
def execFwActivate (r : MbReq) (s : State) : Host.Outcome State Fault Refusal := .next (mbGo 0x0604 r serveFwActivate s)

/-- Tape left before the end of the data area in the direction of travel, in mm (R354, 02 R44). -/
def State.tapeAhead (s : State) : Int :=
  let l := s.servo.lpos / 256000
  if s.motion.dir then l - 12000 else 1048000 - l

/-- The guard of R354: the tape is stopped, or ACT_GUARD of data area remains ahead. -/
def State.actGuard (s : State) : Bool := s.tapeStopped || decide (s.param 0x0C070600 ≤ s.tapeAhead)

/-- No ledger image is due under R76: no SYNC runs, no session waits, writing neither ends nor changes its wrap. -/
def State.noImageDue (s : State) : Bool :=
  s.recs.syncs = [] && s.cart.waitStored.isNone && !s.forge.ending && !s.heat.drain && !s.heat.wrapEnd

/-- The conditions of step 2 hold: fetch pauses, requests on other mailboxes are held (R354, Table 12-14). -/
def execActivationDrain (s : State) : Host.Outcome State Fault Refusal :=
  .next (
    let fillOk := !s.forge.writing || decide (s.param 0x0C070700 ≤ s.blwFill)
    if s.fw.act = .preparing && s.actGuard && fillOk && s.noImageDue then { s with fw := { s.fw with act := .draining } } else s)

/-! ## Power states (R356 to R359) -/

/-- The formatter is idle (R356). -/
def State.idle (s : State) : Bool :=
  s.recs.cmds = [] && s.pairs.all (fun x => x.all (fun p => p.unfetched = 0 || p.motion))
    && s.mail.all (fun b => b.state ≠ 1) && s.tapeStopped && (s.recsIn .sealed) = [] && s.units.running.isNone
    && s.hearth.scrub.isNone && !s.cart.searching

def powerSetBody (r : MbReq) (s : State) : State :=
  let n := getLe (mbData r) 0 1
  let t := BitVec.ofNat 2 n
  if n = 0 then
    if s.pwr.state = 0 && s.pwr.entering.isNone then s.done r.mb [] else s.wake
  else if s.pwr.entering.isSome then { s with pwr := { s.pwr with deeper := s.pwr.deeper ++ [(t, r.mb.toNat)] } }
  else if s.pwr.state = t then s.done r.mb []
  else s.enterPower t (some r.mb.toNat)

def servePowerSet : MbReq → State → State := mbChecks 0x0701 (sized 4) (fun p => getLe p 0 1 < 4 && zeroAt p 1 3) 0 powerSetBody

/-- POWER_SET (R356): answered when the target state is reached. -/
def execPowerSet (r : MbReq) (s : State) : Host.Outcome State Fault Refusal := .next (mbGo 0x0701 r servePowerSet s)

/-- An idle timer that is not disabled has run out: entry to state `t` from state `t - 1` begins (R356). -/
def State.idleEntry (id : Nat) (t : BitVec 2) (s : State) : State :=
  if s.param id ≠ 0 && s.idle && s.pwr.entering.isNone && s.pwr.state + 1 = t then s.enterPower t none else s

/-- PWR_IDLE_P1 of idleness in P0 (R356). -/
def execPwrIdleP1Expiry (s : State) : Host.Outcome State Fault Refusal := .next (s.idleEntry 0x0C070100 1)

/-- PWR_IDLE_P2 in P1 (R356). -/
def execPwrIdleP2Expiry (s : State) : Host.Outcome State Fault Refusal := .next (s.idleEntry 0x0C070200 2)

/-- PWR_IDLE_P3 in P2 (R356). -/
def execPwrIdleP3Expiry (s : State) : Host.Outcome State Fault Refusal := .next (s.idleEntry 0x0C070300 3)

/-- A wake event (R357). -/
def execWakeEvent (s : State) : Host.Outcome State Fault Refusal := .next s.wake

/-- Entry to D3hot: an entry to P3 as if by POWER_SET; interrupts are held until D0 (R359). -/
def execD3hotEntry (s : State) : Host.Outcome State Fault Refusal :=
  .next (
    let s := { s with pwr := { s.pwr with d3hot := true } }
    if s.pwr.entering.isSome || s.pwr.state = 3 then s else s.enterPower 3 none)

/-! ## Enable and shutdown (R360 to R362) -/

/-- ENABLE written 1 (R362). -/
def execGlobalEnable (s : State) : Host.Outcome State Fault Refusal :=
  .next (
    let s := s.linkIn
    let s := { s with glob := { s.glob with enable := true } }
    if !s.glob.ready || s.glob.fatal || s.bench.on then s
    else if s.glob.shutdown = 1 || s.glob.shutdownAfterAct ≠ 0 then { s with glob := { s.glob with enablePending := true } }
    else { s with glob := { s.glob with enabled := true, shutdown := 0 } })

/-- An orderly shutdown begins: fetch pauses, writing is asked to end (R360). -/
def State.beginOrderly (s : State) : State := { s with glob := { s.glob with shutdown := 1, abrupt := false } }.endWriting

/-- Every queue pair deleted as QP_DELETE does (R361). -/
def deletePairs : List Nat → State → State
  | [], s => s
  | q :: r, s => deletePairs r (if (s.pair? q).isSome then s.deletePair q else s)

/-- An abrupt shutdown begins: pairs deleted, writing ended as at a write abort, the tape stopped (R361). -/
def State.beginAbrupt (s : State) : State :=
  let s := { s with glob := { s.glob with shutdown := 1, abrupt := true } }
  let s := deletePairs (List.range 256) s
  let s := if s.forge.writing || (s.recsIn .sealed) ≠ [] then s.writeAbortAll else s
  if s.tapeStopped then s else s.stopTape

/-- A shutdown request: during a hot activation it waits for the activation's end; an orderly one during a shutdown is ignored
(R360, R361). -/
def State.requestShutdown (abrupt : Bool) (s : State) : State :=
  if s.fw.act ≠ .none then
    { s with glob := { s.glob with shutdownAfterAct := if abrupt then 2 else if s.glob.shutdownAfterAct = 0 then 1 else s.glob.shutdownAfterAct } }
  else if abrupt then (if s.glob.shutdown = 1 && s.glob.abrupt then s else s.beginAbrupt)
  else if s.glob.shutdown = 1 then s
  else s.beginOrderly

/-- ENABLE written from 1 to 0, or SHUTDOWN_REQ 0b01 (R360, R362). -/
def execOrderlyShutdown (viaEnable : Bool) (s : State) : Host.Outcome State Fault Refusal :=
  .next (
    let s := s.linkIn
    let s := if viaEnable then { s with glob := { s.glob with enable := false } } else s
    if viaEnable && s.glob.enablePending then { s with glob := { s.glob with enablePending := false } }
    else s.requestShutdown false)

/-- SHUTDOWN_REQ 0b10 (R361). -/
def execAbruptShutdown (s : State) : Host.Outcome State Fault Refusal := .next (s.linkIn.requestShutdown true)

/-- Every fetched command has completed, pairs in the error state apart, and writing has ended (R291, R360). -/
def State.shutdownDone (s : State) : Bool :=
  s.recs.cmds.all (fun c => s.pairError c.pair) && !s.forge.writing && (s.glob.abrupt || (s.recsIn .sealed) = [])

/-- The shutdown's commands and writing have ended (R360, R362). -/
def execShutdownComplete (s : State) : Host.Outcome State Fault Refusal :=
  .next (
    if s.glob.shutdown = 1 && s.shutdownDone then
      let s := if s.tapeStopped then s else s.stopTape
      if s.glob.enablePending then { s with glob := { s.glob with enablePending := false, enabled := true, shutdown := 0 } }
      else { s with glob := { s.glob with enabled := false, shutdown := 2 } }
    else s)

/-! ## Function reset (R363, R331) -/

/-- Every register with access code RW or RW1C at its reset value, EVQ_CONFIG included; the MSI-X table as PCIe resets it
(R14, R363, log 7). -/
def State.resetRegisters (s : State) : State :=
  { s with
    evq := { held := s.evq.held },
    glob := { s.glob with enable := false, enabled := false, enablePending := false, shutdown := 0, shutdownAfterAct := 0,
                          mbSignal := false, msix := s.glob.msix.map (fun _ => {}) },
    blw := { s.blw with intStatus := 0, intMask := 0 },
    sec := { s.sec with intStatus := 0, intMask := 0, heldMb := [], testMb := none,
                        slots := s.sec.slots.map (fun (k : KeySlot) => { k with erasing := [] }) },
    jnl := { s.jnl with control := 3 } }

/-- Mailbox requests abandoned without a response, roles and KTKs ended (Table 12-16). -/
def State.resetMail (s : State) : State :=
  { s with
    mail := s.mail.map (fun (b : Mailbox) => { b with state := 0, held := false, intEnable := false, reqBuf := [], req := none, role := 0, ktk := none }),
    fw := { s.fw with staged := [], commit := [], act := .none, actMb := none, heldMb := [] },
    pwr := { s.pwr with mb := none, deeper := [] },
    hearth := { s.hearth with scrub := none },
    twin := { s.twin with swap := none },
    cart := { s.cart with searchMb := [] } }

/-- Reads, locates, searches and commands ended without a completion (Table 12-16). -/
def dropReads : List ReadJob → State → State
  | [], s => s
  | j :: r, s => dropReads r (match j.key with
    | some (slot, gen) => s.releaseKey slot gen
    | none => s)

/-- Commands, reads, locates and searches are gone without a completion (Table 12-16). -/
def State.dropCommands (s : State) : State :=
  let s := dropReads s.rd.jobs s
  let s := s.clearReadAhead
  { s with
    recs := { s.recs with cmds := [], syncs := [], startSet := none },
    rd := { s.rd with jobs := [], locate := none, reading := false, streaming := false },
    cart := { s.cart with searching := false, eodChecking := false, startPos := none } }

/-- The steps of Table 12-16 at once. -/
def State.functionReset (s : State) : State :=
  let wrote := s.forge.writing || s.cart.sessionBegun || (s.recsIn .opened) ≠ [] || (s.recsIn .sealed) ≠ []
  let s := (s.resetMail).dropCommands
  let s := if s.tapeStopped then s else s.stopTape
  let s := (s.flushAnvil.clearForge).dropSpeedRequest
  let s := (s.resetRegisters).endSelfTest 5
  let s := { s with pairs := s.pairs.map (fun _ => none), arb := { nextGrant := s.arb.nextGrant },
                    motion := { s.motion with held := [], owed := [], consumed := 0 } }
  let s := discardAll (s.recs.recs.filter (fun x => x.state = .opened || x.state = .sealed)) (fun _ => Status.bufferDiscarded) s
  if s.cart.loaded && wrote then
    let s := s.modImage (fun m => { m with sessionOpen := true, eodValid := false })
    { s with cart := { s.cart with searchPending := true, waitStored := none } }.issueImage
  else s

/-- Function Level Reset (R363). -/
def execFunctionReset (s : State) : Host.Outcome State Fault Refusal := .next s.functionReset

end Sys2Proof.Machine
end

