-- ==== Sys2Proof/Machine/Marks.lean ====
section
/-! DEFINITION. Frame acquisition: sync marks in TRACK and ACQUIRE, the soft values of a frame, captures for second look, the read-channel
statistics (R157, R167 to R173, R177). -/

namespace Sys2Proof.Machine

/-! ## Sync marks (R167, R168) -/

/-- Disagreements of 48 channel bits with a mark, counted at unflagged bits. -/
def disagree (m : List Bool) (w : List ChanBit) : Nat := (m.zip w).countP (fun x => !x.2.flag && x.1 != x.2.b)

/-- Flagged bits among those in which the two marks differ. -/
def spotsFlagged (w : List ChanBit) : Nat := ((syncData.zip syncSlag).zip w).countP (fun x => x.1.1 != x.1.2 && x.2.flag)

/-- A mark found: position, data or slag, counted disagreements. -/
structure Mark where
  pos : Nat
  data : Bool
  errs : Nat
deriving DecidableEq, Repr

/-- The mark accepted at a position under a tolerance (R168). -/
def markAt (tol : Nat) (bits : List ChanBit) (pos : Nat) : Option Mark :=
  let w := (bits.drop pos).take 48
  if w.length < 48 || 16 < w.countP (·.flag) || 2 ≤ spotsFlagged w then none
  else if disagree syncData w ≤ tol then some { pos := pos, data := true, errs := disagree syncData w }
  else if disagree syncSlag w ≤ tol then some { pos := pos, data := false, errs := disagree syncSlag w }
  else none

/-- The first position of a list at which a mark is accepted. -/
def firstMark (tol : Nat) (bits : List ChanBit) (at_ : List Nat) : Option Mark := at_.findSome? (markAt tol bits)

/-- 64 channel bits that match the preamble pattern, in either phase, with at most 2 disagreements (R167). -/
def preambleAt (bits : List ChanBit) (pos : Nat) : Bool :=
  let w := (bits.drop pos).take 64
  w.length = 64 && [true, false].any (fun ph => (w.mapIdx (fun i (x : ChanBit) => x.b != ((i % 2 = 0) == ph))).countP (· = true) ≤ 2)

/-! ## Soft values (R157) -/

/-- Soft channel bits, 0 where flagged; for GK2 the hard decision as a sign (R109, R157). -/
def softBits (f : Nat) (w : List ChanBit) : List Int :=
  w.map (fun (x : ChanBit) => if x.flag then 0 else if f = 2 then (if x.b then -1 else 1) else x.soft)

/-- The soft value of a bit under its block's flag (R157). -/
def underFlag (f e : Int) : Int :=
  let m : Int := min e.natAbs f.natAbs
  if f = 0 || e = 0 then 0 else if decide (f < 0) != decide (e < 0) then -m else m

/-- Demodulated values of 256 blocks of 33 (R157). -/
def demodulate (soft : List Int) : List Int :=
  (blocksOf 33 256 soft).flatMap (fun blk => match blk with
    | f :: e => e.mapIdx (fun i x => if i % 2 = 1 then x else underFlag f x)
    | [] => [])

/-- λ in codeword order: demodulated, signs turned where the descrambler is 1 (R157). -/
def lambdaOf (wrap p : Nat) (soft : List Int) : List Int :=
  List.zipWith (fun (v : Int) (out : Bool) => if out then -v else v) (demodulate soft) (scrBits 8192 (scrSeed wrap p))

/-! ## Where a copy lies -/

/-- The heat position nearest to an LPOS in 2^-8 µm (R44; DEDUCED, log 48). -/
def heatAt (f w : Nat) (lpos : Int) : Nat :=
  let d : Int := if w % 2 = 0 then lpos - 12000 * 256000 else 1048000 * 256000 - lpos
  ((2000 * d + fmtHeatNm f * 256) / (2 * fmtHeatNm f * 256)).toNat

/-- The channel group that an element carries on a wrap by the image's map of it, or did in the initial map (R38; DEDUCED, log 126). -/
def State.laneGroup (s : State) (w p : Nat) : Option Nat :=
  (((s.cart.image.mapAt w).map.findIdx? (· = p)).or ((initialMap s.fmt).findIdx? (· = p))).map (groupOf s.fmt)

/-! ## Captures (R172, R173) -/

/-- Second look is off while verifying and with SL_ENABLE 0 (Table 05-6, Table 05-7). -/
def State.secondLook (s : State) : Bool := s.rd.reading && !s.verifying && s.param 0x05071100 = 1

/-- A capture joins the store of 96, or is refused and counted (R172, R173). -/
def State.capture (x : Capture) (s : State) : State :=
  if !s.secondLook then s
  else if 96 ≤ s.rd.captures.length then
    (s.modStats x.lane (fun (c : ChanStats) => { c with slRefused := satAdd 16 c.slRefused 1 })).order 5
      (leBytes 2 x.lane ++ leBytes 4 x.heat)
  else
    let s := s.modStats x.lane (fun (c : ChanStats) => { c with slCaptured := satAdd 16 c.slCaptured 1 })
    let key := heatKey x.wrap x.heat
    { s with rd := { s.rd with
        captures := s.rd.captures ++ [x],
        capt := match s.laneGroup x.wrap x.lane with
          | some g => s.rd.capt ++ [(key, g)]
          | none => s.rd.capt } }

/-- The soft values of a capture: 3 bits before the codeword start at `o` to 3 after its end. -/
def captureSoft (f : Nat) (bits : List ChanBit) (o : Nat) : List Int := softBits f ((bits.drop (o - 3)).take 8454)

/-- The shifts of R174. -/
def shiftTries : List Int := [1, -1, 2, -2, 3, -3]

/-! ## Items (R167 to R172) -/

/-- Channel bits from the mark's position that must be held before it is judged: the window, the item and the capture's end. -/
def markSpan : Nat := 24 + 8500

/-- The lane after the item at an anchor: the bits before it gone, the next mark expected 8,608 bits later (R167). -/
def Lane.anchor (l : Lane) (pos : Nat) : Lane := { l with bits := l.bits.drop (pos + 8500), toMark := 108 }

/-- Reason of a capture under R172, if any. -/
def captureReason (s : State) (p : Nat) (track : Bool) (e : Nat) (m : Mark) : Option Nat :=
  if !track then some 2 else if m.pos ≠ e then some 0 else if 0 < m.errs then some 1 else if s.rd.forced.contains p then some 4 else none

/-- An accepted data mark: the frame goes to C1, and to the store where its acquisition gives reason for doubt (R157, R171, R172). -/
def State.takeFrame (p : Nat) (l : Lane) (track : Bool) (m : Mark) (s : State) : State :=
  let o := m.pos + 48
  let w := (l.bits.drop o).take 8448
  let heat := heatAt s.fmt s.heat.wrap l.lpos
  let off := (m.pos - l.toMark) + (l.toMark - m.pos)
  let job : C1Job :=
    { lane := p, lam := lambdaOf s.heat.wrap p (softBits s.fmt w), verify := s.verifying,
      syncOk := if track then decide (off ≤ s.paramN 0x04070C00) else m.errs = 0, heat := heat,
      qs := w.map (fun (x : ChanBit) => (x.q, x.flag)) }
  let s := s.modStats p (fun (c : ChanStats) => { c with frames := satAdd 32 c.frames 1 })
  let s := { s with rd := { s.rd with c1q := s.rd.c1q ++ [job] } }
  match captureReason s p track l.toMark m with
  | none => s
  | some r => s.capture { lane := p, wrap := s.heat.wrap, heat := heat, lpos := l.lpos, reason := r,
                          soft := captureSoft s.fmt l.bits o, tries := shiftTries }

/-- An accepted slag mark: the item is skipped; while verifying, an element without a logical channel measures its zone on it (R165,
R171). -/
def State.skipSlag (p : Nat) (l : Lane) (m : Mark) (s : State) : State :=
  if s.verifying && !s.heat.map.contains p then
    let w := (l.bits.drop (m.pos + 48)).take 8448
    s.measure p syncSlag (preamble 8448) (w.map (fun (x : ChanBit) => (x.q, x.flag))) 0 true
  else s

/-- The lane after an accepted mark: TRACK, anchored, the loop on its tracking gains (R153, R167). -/
def State.setAnchor (p pos : Nat) (s : State) : State :=
  { s with rd := { s.rd with lanes := modAt s.rd.lanes p (fun (l : Lane) =>
      { l.anchor pos with track := true, tracking := true, misses := 0, reacquire := false }) } }

/-- A mark is accepted in a lane. -/
def State.takeMark (p : Nat) (l : Lane) (track : Bool) (m : Mark) (s : State) : State :=
  (if m.data then s.takeFrame p l track m else s.skipSlag p l m).setAnchor p m.pos

/-- A missed mark: counted, nothing passed to C1, the anchor at E, the next preamble acquires phase; a verify copy fails, a read copy is
captured at E; after SYNC_MISS_ACQ in a row the lane returns to ACQUIRE (R169, R172, R131). -/
def State.missMark (p : Nat) (l : Lane) (s : State) : State :=
  let e := l.toMark
  let heat := heatAt s.fmt s.heat.wrap l.lpos
  let s := s.modStats p (fun (c : ChanStats) => { c with syncMissed := satAdd 32 c.syncMissed 1 })
  let s := if s.verifying then
      { s with rd := { s.rd with vresults := s.rd.vresults ++
        [{ chan := p, ok := false, iters := 0, flips := 0, erased := 0, syncOk := false, word := [], heat := heat }] } }
    else s.capture { lane := p, wrap := s.heat.wrap, heat := heat, lpos := l.lpos, reason := 3,
                     soft := captureSoft s.fmt l.bits (e + 48), tries := 0 :: shiftTries, begun := true }
  let k := l.misses + 1
  if (s.laneParam l 0x05070A00).toNat ≤ k then
    let s := s.modStats p ChanStats.acquired
    { s with rd := { s.rd with lanes := modAt s.rd.lanes p (fun l => s.acquire p l) } }
  else
    { s with rd := { s.rd with lanes := modAt s.rd.lanes p (fun (l : Lane) => { l.anchor e with misses := k, reacquire := true }) } }

/-- SYNC_MARK_WINDOW: a lane in TRACK holds the window around E and the item behind it (R168). -/
def execSyncMarkWindow (lane : Fin 1024) (s : State) : Host.Outcome State Fault Refusal :=
  .next (match s.rd.lanes[lane.toNat]? with
  | none => s
  | some l =>
    if !l.track || !s.lanesOn || l.bits.length < l.toMark + markSpan then s
    else
      let at_ := ((List.range 49).map (fun i => l.toMark + i)).filterMap (fun x => if 24 ≤ x then some (x - 24) else none)
      match firstMark (s.laneParam l 0x05070800).toNat l.bits at_ with
      | none => s.missMark lane l
      | some m =>
        let s := if m.pos = l.toMark then s
          else s.modStats lane (fun (c : ChanStats) => { c with syncOffset := satAdd 32 c.syncOffset 1 })
        s.takeMark lane l true m)

/-- ACQUIRE_MARK_ACCEPTED: a lane in ACQUIRE has found the preamble, acquires phase and accepts the first mark from there on (R153,
R167). -/
def execAcquireMarkAccepted (lane : Fin 1024) (s : State) : Host.Outcome State Fault Refusal :=
  .next (match s.rd.lanes[lane.toNat]? with
  | none => s
  | some l =>
    if l.track || !s.lanesOn then s
    else match (List.range l.bits.length).find? (preambleAt l.bits) with
    | none => s
    | some i =>
      match firstMark (s.laneParam l 0x05070900).toNat l.bits ((List.range (l.bits.length - i)).map (fun k => i + 64 + k)) with
      | none => s
      | some m =>
        if l.bits.length < m.pos + 8500 then s
        else
          let acc := BitVec.ofInt 24 (l.adapted (s.laneCfg l) 67)
          let s := { s with rd := { s.rd with lanes := modAt s.rd.lanes lane (fun (l : Lane) => { l with acc := acc }) },
                            free := s.free + b2n s.verifying }
          s.takeMark lane l false m)

/-- A capture of a lane taken out of the store. -/
def State.dropCapture (x : Capture) (s : State) : State :=
  { s with rd := { s.rd with captures := s.rd.captures.erase x } }

/-- CAPTURE_EXPIRY: 64 µs after a capture's last bit it is released; a try not started is dropped, which the journal stamps (R173, R174,
Table 15-10). -/
def execCaptureExpiry (lane : Fin 1024) (s : State) : Host.Outcome State Fault Refusal :=
  .next (match s.rd.captures.find? (fun x => x.lane = lane.toNat) with
  | none => s
  | some x =>
    let s := s.dropCapture x
    if x.begun && x.tries ≠ [] then s.order 5 (leBytes 2 x.lane ++ leBytes 4 x.heat) else s)

/-! ## Statistics (R177) -/

/-- One 32-byte record (Table 05-8). -/
def ChanStats.bytes (c : ChanStats) : Bytes :=
  leBytes 4 c.frames.toNat ++ leBytes 4 c.c1Fail.toNat ++ leBytes 4 c.syncMissed.toNat ++ leBytes 4 c.syncOffset.toNat
  ++ leBytes 2 c.acquisitions.toNat ++ leBytes 2 c.slCaptured.toNat ++ leBytes 2 c.slRecovered.toNat ++ leBytes 2 c.slRefused.toNat
  ++ leBytes 4 c.defectSpans.toNat ++ leBytes 4 c.flaggedBits.toNat

/-- The body of READ_CHANNEL_STATS: records to host memory, or in the response; CLEAR clears the channels returned (R177). -/
def chanStatsBody (r : MbReq) (s : State) : State :=
  let b := mbData r
  let first := getLe b 0 2
  let n := getLe b 2 2
  let addr := getLe b 8 8
  if n = 0 || 1024 < first + n || (addr = 0 && 127 < n) || addr % 16 ≠ 0 then s.invalidOpen 0x0301 1 r
  else if addr ≠ 0 && !r.io.ok then s.refuse 0x0301 Status.dataTransferError r
  else
    let recs := ((s.rd.stats.drop first).take n).flatMap ChanStats.bytes
    let s := if r.flags = 0 then s
      else { s with rd := { s.rd with stats := s.rd.stats.mapIdx (fun p (c : ChanStats) => if first ≤ p && p < first + n then {} else c) } }
    let head := leBytes 2 n ++ zeros 6
    if addr = 0 then s.done r.mb (head ++ recs)
    else (s.emit (.dma (BitVec.ofNat 64 addr) recs)).done r.mb head

def serveReadChannelStats : MbReq → State → State := mbChecks 0x0301 (sized 16) (fun b => zeroAt b 4 4) 0 chanStatsBody

/-- READ_CHANNEL_STATS (R177). -/
def execReadChannelStats (r : MbReq) (s : State) : Host.Outcome State Fault Refusal := .next (mbGo 0x0301 r serveReadChannelStats s)

end Sys2Proof.Machine
end

