-- ==== Sys2Proof/Machine/Decoding.lean ====
section
/-! DEFINITION. From decoder input to complete billets: C1, second look, C2, C3 (R54, R59, R86 to R112, R162, R172 to R174, R209). -/

namespace Sys2Proof.Machine

/-! ## Billets that become complete -/

/-- Pieces of a ledger or EOD block held for a wrap, by piece number (R68 to R70). -/
def blockPieces (bs : List RBillet) (w cls : Nat) : List (Nat × Bytes) :=
  (bs.filter (fun b => b.cls = cls && b.wrap = w && decide (b.state = .complete))).map (fun b => (getBe b.data 1 1, slice b.data 32 103808))

/-- The content of a block once its pieces 0 to 5, which hold all of it, are there (Table 02-13). -/
def heldContent (bs : List RBillet) (w cls : Nat) : Option Bytes :=
  let ps := blockPieces bs w cls
  let l := (List.range 6).map (assocGet ps)
  if l.all Option.isSome then some (l.flatMap (fun x => x.getD [])) else none

/-- Entries of a temper table in the order of Table 02-13, those not measured left out. -/
def parseTable (w : Nat) (t : Bytes) : List (Nat × Nat × Nat × Temper) :=
  (List.range 4).flatMap (fun b => (List.range 65).flatMap (fun n => (List.range 256).filterMap (fun e =>
    let o := 8 * ((b * 65 + n) * 256 + e)
    if getBe t o 8 = 0 then none else some (w, n, 256 * b + e, parseTemper t o))))

/-- The table of a block just read replaces the one held for its wrap: of the wrap before, or of the EOD block's own (R162, R166). -/
def State.takeTable (w cls : Nat) (s : State) : State :=
  match heldContent s.rd.billets w cls with
  | none => s
  | some c =>
    if cls = 1 && w = 0 then s
    else
      let v := if cls = 1 then w - 1 else w
      { s with rd := { s.rd with temper := parseTable v (slice c 67584 532480) ++ s.rd.temper.filter (fun e => e.1 ≠ v) } }

/-- A reread attempt has completed one more billet (R210). -/
def Reread.count (r : Reread) : Reread :=
  { r with done := assocSet r.done r.k ((assocGet r.done r.k).getD 0 + 1) }

/-- The session of a complete billet (Table 02-7). -/
def RBillet.session (b : RBillet) : Nat := getBe b.data 4 4

/-- What a billet that has become complete brings: read-ahead fill, the highest session seen, a block's table, the attempt's count (R162,
R203, R210, R253). -/
def State.completed (b : RBillet) (s : State) : State :=
  let s := if b.parity then s else { s with cart := { s.cart with maxSession := max s.cart.maxSession b.session } }
  let s := { s with rd := { s.rd with reread := s.rd.reread.map (fun r => if r.k = 0 then r else r.count) } }
  if b.cls = 0 then (if b.parity then s else { s with rd := { s.rd with raBytes := s.rd.raBytes + 103840 } })
  else s.takeTable b.wrap b.cls

/-- A held billet replaced or joined. -/
def State.putBillet (b : RBillet) (s : State) : State :=
  let old := s.rd.billets.find? (fun x => x.serial = b.serial && x.wrap = b.wrap && x.cls = b.cls)
  let was := match old with
    | some x => decide (x.state = .complete)
    | none => false
  let sus := b.suspects - (old.map (·.suspects)).getD 0
  let con := b.nconf - (old.map (·.nconf)).getD 0
  let bad := decide (b.state = .unrecovered) && !(old.any (fun x => decide (x.state = .unrecovered)))
  let s := { s with rd := { s.rd with billets := insertBillet b s.rd.billets, c2Detected := s.rd.c2Detected + sus,
                                      copyConflicts := s.rd.copyConflicts + con } }
  let s := if bad then s.trigger 2 else s
  if b.state = .complete && !was then s.completed b else s

/-- Billets replaced one after another. -/
def putBillets : List RBillet → State → State
  | [], s => s
  | b :: r, s => putBillets r (s.putBillet b)

/-- Read-ahead full: the tape stops (R207). -/
def State.checkLimit (s : State) : State :=
  if s.rd.reading && s.rd.streaming && !s.rd.raStopped && s.paramN 0x07080400 ≤ s.rd.raBytes then
    { s with rd := { s.rd with raStopped := true, streaming := false, nextHeat := heatKey s.heat.wrap (s.rd.heatNow + 1) } }.stopTape
  else s

/-- What can go on once billets have changed: locate, queued reads, writing (R205, R207, R214). -/
def State.onBillets (s : State) : State :=
  let s := s.checkLimit
  let t := s.advanceLocate
  if s.rd.locate.isSome && t.rd.locate.isNone then t.pumpTape else t

/-! ## Accepted frames (R54, R59, R95, R96, R111) -/

/-- C2 with the margin in force (R92, R97). -/
def State.tryBillet (b : RBillet) (s : State) : RBillet := b.tryC2 (s.paramN 0x03040600) s.attempt

/-- The header of a decoded frame passes R54: CRC, ID, a defined class, logical channel and serial that agree. -/
def headerOk (f : Nat) (word : Bytes) : Bool :=
  let h := parseHdr word
  hdrOk f word && h.cls ≤ 2 && h.l < fmtChans f && h.serial % fmtGroups f = groupOf f h.l && h.offset ≤ h.written

/-- The billet that a header names, held or new. -/
def State.billetFor (h : FrameHdr) (lpos : Int) (s : State) : RBillet :=
  (s.rd.billets.find? (fun b => b.serial = h.serial && b.wrap = h.wrap && b.cls = h.cls)).getD
    { serial := h.serial, cls := h.cls, group := groupOf s.fmt h.l, parity := h.parity, short := h.short, home := h.written - h.offset,
      wrap := h.wrap, lpos := lpos / 256000 }

/-- An accepted copy goes to its billet; a parked billet is attempted again (R59, R97). -/
def State.acceptFrame (word : Bytes) (second : Bool) (lpos : Int) (s : State) : State :=
  let h := parseHdr word
  let b := s.billetFor h lpos
  let b := b.accept (frameOf s.fmt h.l) (slice word 16 944) second h.written
  let b := if b.parked then s.tryBillet b else b
  let s := { s with rd := { s.rd with
    lastFrame := max s.rd.lastFrame h.written, heatNow := max s.rd.heatNow h.written,
    parseNext := if h.cls = 0 then (s.rd.parseNext.or (some (h.serial / fmtGroups s.fmt * fmtGroups s.fmt))) else s.rd.parseNext } }
  (s.putBillet b).onBillets

/-! ## C1 (R86 to R91, R109) -/

/-- The C1 decode of soft values under an iteration limit and the limits of the format in use (R89, R109). -/
def State.decodeWord (s : State) (limit : Nat) (lam : List Int) : C1Result :=
  if s.fmt = 2 then gk2Decode (s.paramN 0x03040800) lam
  else c1Decode limit (s.paramN 0x03040500) (s.paramN 0x03040400) lam

/-- The read iteration limit: C1_ITER_MAX, 32 in a reread pass, C1_ITER_BUSY above the backlog (R91, R210). -/
def State.readLimit (s : State) (busy : Bool) : Nat :=
  if busy then s.paramN 0x03040200 else if 0 < s.attempt then 32 else s.paramN 0x03040100

/-- More frames wait for a core than C1_BACKLOG (R91). -/
def State.backlogged (s : State) : Bool := s.paramN 0x03040300 < s.rd.c1q.length

/-- The limit that applies to the next frame; a change is stamped (R91, R449). -/
def State.stampLimit (busy : Bool) (s : State) : State :=
  let s := if busy = s.rd.busyLimit then s else s.order 4 (leBytes 8 s.rd.c1Count ++ [byte (b2n busy)])
  { s with rd := { s.rd with busyLimit := busy, c1Count := s.rd.c1Count + 1 } }

/-- A first-pass failure: counted, noted against the heat and group, second look of its capture begins (R174, Table 07-4). -/
def State.c1Failed (j : C1Job) (s : State) : State :=
  let s := s.modStats j.lane (fun (c : ChanStats) => { c with c1Fail := satAdd 32 c.c1Fail 1 })
  let s := { s with rd := { s.rd with
    fails := match s.laneGroup s.heat.wrap j.lane with
      | some g => if s.attempt = 0 then s.rd.fails ++ [(heatKey s.heat.wrap j.heat, g)] else s.rd.fails
      | none => s.rd.fails,
    captures := s.rd.captures.map (fun (x : Capture) => if x.lane = j.lane && x.heat = j.heat then { x with begun := true } else x) } }
  if s.snapChan j.lane then s.trigger 0 else s

/-- A read copy that C1 decoded: accepted, measured for the recovery copy, its capture released (R54, R95, R166, R173). -/
def State.c1Passed (j : C1Job) (r : C1Result) (s : State) : State :=
  let s := s.measure j.lane syncData (wordBits r.word s.heat.wrap j.lane) j.qs r.flips false
  let s := { s with rd := { s.rd with captures := s.rd.captures.filter (fun x => !(x.lane = j.lane && x.heat = j.heat)) } }
  s.acceptFrame r.word false ((s.rd.lanes[j.lane]?).map (·.lpos) |>.getD 0)

/-- C1_DECODE_DONE: the frame that has waited longest ends its decode: to the verify comparator, or to its billet (R89 to R91, R95). -/
def execC1DecodeDone (s : State) : Host.Outcome State Fault Refusal :=
  .next (match s.rd.c1q with
  | [] => s
  | j :: rest =>
    let s := (s.applyParams .frame).applyParams .gk2Frame
    let busy := s.backlogged && !j.verify
    let s := { s with rd := { s.rd with c1q := rest } }
    if j.verify then
      let r := s.decodeWord (s.paramN 0x04070900) j.lam
      { s with rd := { s.rd with vresults := s.rd.vresults ++
        [{ chan := j.lane, ok := r.ok, iters := r.iters, flips := r.flips, erased := r.erased, syncOk := j.syncOk, word := r.word,
           heat := j.heat, qs := j.qs }] } }
    else
      let s := s.stampLimit busy
      let r := s.decodeWord (s.readLimit busy) j.lam
      if r.ok && headerOk s.fmt r.word then s.c1Passed j r else s.c1Failed j)

/-! ## Second look (R174) -/

/-- The soft bits of a capture with the codeword `k` bits later than its mark implies. -/
def shifted (x : Capture) (k : Int) : List Int := (x.soft.drop (3 + k).toNat).take 8448

/-- SECOND_LOOK_TRY: the next shift of a captured frame, while C1's backlog allows it; the first that passes is an accepted copy. -/
def execSecondLookTry (lane : Fin 1024) (s : State) : Host.Outcome State Fault Refusal :=
  .next (match s.rd.captures.find? (fun (x : Capture) => x.lane = lane.toNat && x.begun && x.tries ≠ []) with
  | none => s
  | some x => match x.tries with
    | [] => s
    | k :: rest =>
      if s.backlogged then s
      else
        let r := s.decodeWord (s.readLimit false) (lambdaOf x.wrap x.lane (shifted x k))
        if r.ok && headerOk s.fmt r.word then
          let s := (s.dropCapture x).modStats lane (fun (c : ChanStats) => { c with slRecovered := satAdd 16 c.slRecovered 1 })
          s.acceptFrame r.word true x.lpos
        else
          { s with rd := { s.rd with captures := s.rd.captures.map (fun y => if y = x then { y with tries := rest } else y) } })

/-! ## C2 (R97 to R101) -/

/-- The heat positions read go on to `heat`. -/
def State.atHeat (heat : Nat) (s : State) : State :=
  { s with rd := { s.rd with heatNow := max s.rd.heatNow heat,
                             scanned := if s.cart.searching then s.rd.scanned + (heat - s.rd.heatNow) else s.rd.scanned } }

/-- C2_ATTEMPT: a heat has been read; every billet at home heat + C2_HOLD is first attempted, or parked (R97). -/
def execC2Attempt (heat : BitVec 24) (s : State) : Host.Outcome State Fault Refusal :=
  .next (if !s.rd.reading then s
    else
      let s := (s.atHeat heat.toNat).applyParams .billet
      let due := s.rd.billets.filter (fun (b : RBillet) =>
        b.wrap = s.heat.wrap && decide (b.state = .waiting) && !b.parked && b.home + s.paramN 0x03040700 ≤ heat.toNat)
      (putBillets (due.map (fun b => s.tryBillet b)) s).onBillets)

/-- BILLET_FINAL: every billet at home heat + 511 has its erased set final; with more than 16 erased it fails in every column (R97). -/
def execBilletFinal (heat : BitVec 24) (s : State) : Host.Outcome State Fault Refusal :=
  .next (if !s.rd.reading then s
    else
      let s := s.atHeat heat.toNat
      let due := s.rd.billets.filter (fun (b : RBillet) => b.wrap = s.heat.wrap && !b.final && b.home + 511 ≤ heat.toNat)
      (putBillets (due.map (fun (b : RBillet) =>
        let b := { b with final := true }
        if b.state = .waiting then s.tryBillet b else b)) s).onBillets)

/-! ## C3 (R102 to R107) -/

/-- Billets held of an ingot of a train. -/
def ingotHeld (f w : Nat) (bs : List RBillet) (t : TrainAt) (i : Nat) : List RBillet :=
  (livePositions t).filterMap (billetAt f w bs t i)

/-- C3 for an ingot may start: every erased set is final; a billet never read counts as failed once all of the ingot has passed (R105,
R107). -/
def State.c3Ready (s : State) (w : Nat) (t : TrainAt) (i : Nat) : Bool :=
  let held := ingotHeld s.fmt w s.rd.billets t i
  held.all (·.settled) && (held.length = (livePositions t).length || s.passed w ((held.map (·.home)).foldl max 0))

/-- A data billet of an ingot that C2 left incomplete, or that was never read. -/
def State.c3Lacks (s : State) (w : Nat) (t : TrainAt) (i : Nat) : Bool :=
  (livePositions t).any (fun p => p < 60 && (match billetAt s.fmt w s.rd.billets t i p with
    | some b => b.state = .partly || b.state = .failed
    | none => true))

/-- The first ingot of a train read that lacks a data billet and whose C3 may start: wrap, train, ingot. -/
def State.nextC3 (s : State) : Option (Nat × TrainAt × Nat) :=
  let trains := ((s.rd.billets.filter (fun (b : RBillet) => b.cls = 0 && b.parity)).filterMap (fun b =>
    (trainAt s.fmt s.rd.billets b).map (fun t => (b.wrap, t)))).eraseDups
  trains.findSome? (fun (w, t) => (List.range (4 * fmtGroups s.fmt)).findSome? (fun i =>
    if s.c3Lacks w t i && s.c3Ready w t i then some (w, t, i) else none))

/-- C3_DECODE: the ingot's billets are rebuilt, or stay unrecovered (R105, R106). -/
def execC3Decode (s : State) : Host.Outcome State Fault Refusal :=
  .next (match s.nextC3 with
  | none => s
  | some (w, t, i) => (putBillets (c3Ingot s.fmt w s.rd.billets t i s.attempt) s).onBillets)

end Sys2Proof.Machine
end

