-- ==== Sys2Proof/Machine/ReadPath.lean ====
section
/-! DEFINITION. Delivery of records, the recovery ladder's rereads, the check of the EOD block and the end-of-data search, the change of
wrap (R45, R64, R203 to R220, R241, R262 to R265, R325, R326). -/

namespace Sys2Proof.Machine

/-! ## The items of one record (R66, R206, R211) -/

/-- What is held of a record: its CU items in order, its trailer once reached, whether unrecovered billets were skipped, and why the walk
stopped short of the trailer. -/
structure RecItems where
  cus : List Item := []
  trailer : Option Item := none
  skipped : Bool := false
  stop : Option Stop := none
deriving DecidableEq, Repr

/-- A billet the ladder has ended without. -/
def isLost (bs : List RBillet) (n : Nat) : Bool := bs.any (fun b => b.cls = 0 && b.serial = n && b.lost)

/-- Where the items of a record go on behind an unrecovered billet: the next item boundary of a complete billet that still begins with that
record; every billet between is complete or unrecovered as well (R211). -/
def resumeAt (bs : List RBillet) (num n : Nat) : Option ItemPos :=
  (entryFrom bs (n + 1)).bind (fun q =>
    let between := (List.range (q.1 - n - 1)).map (· + n + 1)
    let known := between.all (fun m => isLost bs m || bs.any (fun b => b.cls = 0 && b.serial = m && (b.parity || b.isData)))
    if known && (dataBillets bs).any (fun b => b.serial = q.1 && b.hdr.first = num) then some q else none)

/-- The walk through a record's items from behind its descriptor. -/
def recordItems (bs : List RBillet) (num : Nat) : Nat → ItemPos → RecItems → RecItems
  | 0, p, a => { a with stop := some (.waiting p.1) }
  | k + 1, p, a =>
    match itemAt bs p with
    | .ok i =>
      if i.type = 0x43 then recordItems bs num k i.next { a with cus := a.cus ++ [i] }
      else if i.type = 0x54 && itemRec i.head = num then { a with trailer := some i }
      else { a with stop := some .broken }
    | .error (.waiting n) =>
      if isLost bs n then match resumeAt bs num n with
        | some q => recordItems bs num k q { a with skipped := true }
        | none => { a with stop := some (.waiting n) }
      else { a with stop := some (.waiting n) }
    | .error e => { a with stop := some e }

/-- The items of the record whose descriptor is item `i`. -/
def ReadSide.recordOf (rd : ReadSide) (i : Item) : RecItems :=
  recordItems rd.billets (itemRec i.head) (40 * rd.billets.length * 6490 + 1) i.next {}

/-- Index of a CU item (Table 02-10). -/
def Item.cu (i : Item) : Nat := getBe i.head 2 2

/-- Sealed bytes L and the 16-byte tag field of a CU item (R65). -/
def Item.sealed (bs : List RBillet) (i : Item) : Bytes × Bytes :=
  let l := getBe i.head 4 4
  match takeItem bs (bs.length + 1) (i.place.1, i.place.2 + 16) (l + 16) with
  | .ok (b, _) => (b.take l, b.drop l)
  | .error _ => ([], [])

/-- Whole, with a trailer that matches the descriptor and the CUs read: CU count, raw length, tag chain (R206). -/
def RecItems.matches (r : RecItems) (bs : List RBillet) (desc : Item) : Bool :=
  match r.trailer with
  | none => false
  | some t =>
    let n := getBe desc.head 16 2
    let tags := r.cus.flatMap (fun i => (i.sealed bs).2)
    !r.skipped && decide (r.cus.map Item.cu = List.range n) && decide (getBe t.head 2 2 = n) && decide (getBe t.head 12 4 = getBe desc.head 12 4)
      && decide (getBe t.head 16 4 = if bitAt (getBe desc.head 1 1) 1 then 0 else (crc32c tags).toNat)

/-- Where the next CU of a read stands. -/
inductive NextCu where
  | here (i : Item)
  /-- It touches an unrecovered billet (R211) -/
  | lost
  /-- A billet it needs is not complete yet -/
  | wait
  /-- The record ends on tape before it -/
  | absent
deriving DecidableEq, Repr

/-- Nothing more is to come: the end of data has been met. -/
def State.dataOver (s : State) : Bool := s.rd.sawEod || s.rd.sawStale || s.blankRun

/-- CU `k` of a record, `none` for its trailer. -/
def State.nextCu (s : State) (r : RecItems) (k : Option Nat) : NextCu :=
  let hit := match k with
    | some k => r.cus.find? (fun (i : Item) => i.cu = k)
    | none => r.trailer
  match hit with
  | some i => .here i
  | none =>
    let after := ((r.cus.getLast?).map (fun i => i.cu + 1)).getD 0
    let beyond := r.trailer.isSome || r.cus.any (fun (i : Item) => k.any (· < i.cu))
    if beyond then .lost
    else match r.stop with
      | some (.waiting n) =>
        if isLost s.rd.billets n then (if k.any (after < ·) && !s.dataOver then .wait else .lost)
        else if s.dataOver && !s.rd.billets.any (fun b => b.cls = 0 && b.serial = n) then (if r.skipped then .lost else .absent)
        else .wait
      | _ => if r.skipped then .lost else .absent

/-! ## The start of a delivery (R206, R213, R262, R325) -/

/-- A read under way changed. -/
def State.modJob (j : ReadJob) (f : ReadJob → ReadJob) (s : State) : State :=
  { s with rd := { s.rd with jobs := s.rd.jobs.map (fun x => if x.pair = j.pair && x.tag = j.tag then f x else x) } }

/-- The slot generation whose label equals a key label: current ones first, then retained ones (R262). -/
def Sec.byLabel (k : Sec) (label : Bytes) : Option (Nat × KeyGen) :=
  let one := fun (f : KeySlot → Option KeyGen) => (List.range 64).findSome? (fun n =>
    (((k.slots[n]?).bind f).bind (fun g => if g.label = label then some (n, g) else none)))
  (one KeySlot.cur).or (one KeySlot.old)

/-- Raw bytes of CUs `a` to `a + n - 1` of a record of raw length `len` (R115). -/
def cuSpan (len a n : Nat) : Nat := min len (262144 * (a + n)) - min len (262144 * a)

/-- The consumption of read-ahead up to an item: the fill counts the complete data billets from its billet on (R207). -/
def State.consumed (p : ItemPos) (s : State) : State :=
  { s with rd := { s.rd with raBytes := 103840 * ((dataBillets s.rd.billets).filter (fun b => p.1 ≤ b.serial)).length } }

/-- Read-ahead billets of trains that lie wholly before an item are given up: those up to the last parity heat held before it (R203, R209). -/
def State.dropBefore (p : ItemPos) (s : State) : State :=
  let n := p.1 / fmtGroups s.fmt
  let first := (s.rd.billets.filter (fun b => b.cls = 0 && b.parity && b.heatNo s.fmt < n)).foldl (fun m b => max m (b.heatNo s.fmt + 1)) 0
  ({ s with rd := { s.rd with billets := s.rd.billets.filter (fun b => b.cls ≠ 0 || first ≤ b.heatNo s.fmt), parseNext := some p.1 } }).consumed p

/-- Reading stopped at RA_LIMIT resumes once the fill has fallen to BLW_RHIGH: RUNUP before the first heat not yet read (R207). -/
def State.resumeReading (s : State) : State :=
  if s.rd.reading && s.rd.raStopped && s.rd.reread.isNone && s.blwFill ≤ s.paramN 0x04071600 then
    let w := s.rd.nextHeat / 2 ^ 24
    s.positionFor w (heatLpos s.fmt w (s.rd.nextHeat % 2 ^ 24))
  else s

/-- What follows the end of a read: the next one, what waits to be written (R205, R322). -/
def State.afterRead (s : State) : State := (s.resumeReading).pumpTape

/-- A read ends, and what waits behind it goes on. -/
def State.stopRead (j : ReadJob) (st : BitVec 16) (outcome : Nat) (s : State) : State := (s.endRead j st outcome).afterRead

/-- A rejection before any byte: no report (Table 11-5); the result holds a number of bytes where one is given (R325). -/
def State.rejectRead (j : ReadJob) (st : BitVec 16) (res : Nat) (s : State) : State :=
  let s := { s with rd := { s.rd with jobs := s.rd.jobs.filter (fun x => !(x.pair = j.pair && x.tag = j.tag)) } }
  (s.complete j.pair j.tag st (BitVec.ofNat 64 res) 0).afterRead

/-- The descriptor of a read is parsed and checked; a key is found by label (R262, R260, R325). -/
def State.openRead (j : ReadJob) (desc : Item) (s : State) : State :=
  let flags := getBe desc.head 1 1
  let len := getBe desc.head 12 4
  let cus := getBe desc.head 16 2
  let label := slice desc.head 20 8
  let n := if j.count = 0 then cus - j.first else j.count
  let b := s.rd.billets.find? (fun b => b.cls = 0 && b.serial = desc.place.1)
  let j' : ReadJob := { j with parsed := true, encrypted := bitAt flags 0, setting := BitVec.ofNat 8 (getBe desc.head 2 1), rawLen := len,
                               cuCount := cus, label := label, count := n, nextCu := j.first,
                               pos := (b.map RBillet.tapePos).getD {} }
  if cus = 0 && (j.first ≠ 0 || j.count ≠ 0) then s.rejectRead j Status.invalidField 0
  else if cus ≠ 0 && (cus ≤ j.first || cus < j.first + j.count) then s.rejectRead j Status.invalidField 0
  else if j.len < cuSpan len j.first n then s.rejectRead j Status.invalidField (cuSpan len j.first n)
  else if !j.reports then s.rejectRead j Status.invalidField 0
  else if !j'.encrypted then s.modJob j (fun _ => j')
  else match s.sec.byLabel label with
    | none => (s.modJob j (fun _ => j')).stopRead j' Status.keyNotAvailable 4
    | some (slot, g) =>
      if ((s.sec.slots[slot]?).getD {}).erasing ≠ [] then s.rejectRead j Status.keyErasing 0
      else (s.modJob j (fun _ => { j' with key := some (slot, g.gen) })).useKey slot g.gen

/-! ## One CU (R204, R205, R241, R263 to R265) -/

/-- A scatter list from a byte offset on. -/
def sglFrom : List SglEntry → Nat → List SglEntry
  | [], _ => []
  | e :: r, o =>
    if e.len.toNat ≤ o then sglFrom r (o - e.len.toNat)
    else { e with addr := e.addr + BitVec.ofNat 64 o, len := e.len - BitVec.ofNat 32 o } :: r

/-- Bytes written at an offset of a read's destination. -/
def State.place (j : ReadJob) (o : Nat) (b : Bytes) (s : State) : State :=
  match s.cmd? j.pair j.tag with
  | some c => if c.isSgl then scatter (sglFrom c.sgl o) b s else s.emit (.dma (j.addr + BitVec.ofNat 64 o) b)
  | none => s

/-- What opening and decompressing a CU gives: raw bytes as far as produced, tag or CRC passed, stream sound (R65, R241, R262). -/
structure Opened where
  raw : Bytes
  tagOk : Bool
  streamOk : Bool
deriving DecidableEq, Repr

/-- A CU of a read opened with its key, or checked by its CRC, and decompressed. -/
def State.openCu (s : State) (j : ReadJob) (desc i : Item) : Opened :=
  let b := i.sealed s.rd.billets
  let raw := getBe i.head 8 4
  let c := getBe i.head 12 4
  let plain := if j.encrypted then
      let gen := j.key.bind (fun k => ((s.sec.slots[k.1]?).bind (fun x => (x.cur.toList ++ x.old.toList).find? (fun g => g.gen = k.2))))
      let key := dataKey ((gen.map KeyGen.key).getD []) s.cart.image.serial j.label
      let session := ((s.rd.billets.find? (fun x => x.cls = 0 && x.serial = desc.place.1)).map (·.hdr.session)).getD 0
      gcmOpen key (cuIv session j.num i.cu) (i.head ++ desc.head.take 16) b.1 b.2
    else (b.1, decide (getBe b.2 0 4 = (crc32c b.1).toNat))
  let out := inflate raw (plain.1.take c)
  { raw := out.1, tagOk := plain.2, streamOk := out.2 }

/-- The tag or CRC of a CU failed: counted, reported (R265, R450). -/
def State.tagFail (j : ReadJob) (s : State) : State :=
  let s := { s with sec := { s.sec with tagFails := satAdd 64 s.sec.tagFails 1 } }
  (s.secCause 3 ((j.key.map Prod.fst).getD 0)).trigger 3

/-- CU `i` of a read is delivered, or ends it. -/
def State.deliverCu (j : ReadJob) (desc i : Item) (io : Io) (s : State) : State :=
  let o := s.openCu j desc i
  let at_ := 262144 * (i.cu - j.first)
  let cutBytes := if j.cut && io.ok then s.place j at_ o.raw else s
  let part := { j with partBytes := if j.cut then o.raw.length else 0 }
  if !io.ok then s.drew.stopRead j Status.dataTransferError (Config.openOutcome s.free).toNat
  else if !o.tagOk then (cutBytes.tagFail j).stopRead part Status.authFailed 4
  else if !o.streamOk then
    ({ cutBytes with comp := { s.comp with streamErrs := satAdd 32 s.comp.streamErrs 1 } } : State).stopRead part Status.decompressError 3
  else ((s.place j at_ o.raw).modJob j (fun x => { x with nextCu := x.nextCu + 1, delivered := x.delivered + 1 })).consumed i.next |>.resumeReading

/-- The trailer decides a read whose CUs have all been delivered (R206). -/
def State.closeRead (j : ReadJob) (r : RecItems) (desc t : Item) (s : State) : State :=
  let ok := r.matches s.rd.billets desc
  let s := if ok then s.endRead j Status.success 0 else s.endRead j Status.unrecoveredRecord 3
  (s.dropBefore t.next).afterRead

/-- CU_DELIVERY: the front read goes one step further: its record is looked for, its descriptor parsed, its next CU delivered, its trailer
checked, or it ends (R204 to R206, R211). -/
def execCuDelivery (io : Io) (s : State) : Host.Outcome State Fault Refusal :=
  .next (match s.rd.jobs with
  | [] => s
  | j :: _ =>
    let s := s.withPairIo j.pair io
    if s.pairError j.pair then s
    else match j.desc with
    | none => s.pumpReads
    | some p => match itemAt s.rd.billets p with
      | .error _ => s
      | .ok desc =>
        if !j.parsed then s.openRead j desc
        else
          let r := s.rd.recordOf desc
          let k := if j.delivered < j.count then some j.nextCu else none
          match s.nextCu r k with
          | .here i => if k.isSome then s.deliverCu j desc i io else s.closeRead j r desc i
          | .wait => s
          | .lost => s.stopRead j Status.unrecoveredRecord 3
          | .absent => s.stopRead j Status.recordAbsent 5)

/-- RA_IDLE has passed since the last queued read completed: the tape stops, read-ahead is kept (R207). -/
def execRaIdleExpiry (s : State) : Host.Outcome State Fault Refusal :=
  .next (if s.rd.jobs = [] && s.rd.locate.isNone && !s.cart.searching && !s.cart.eodChecking && s.rd.reading then
      let next := if s.rd.streaming then heatKey s.heat.wrap (s.rd.heatNow + 1) else s.rd.nextHeat
      let s := { s with rd := { s.rd with reading := false, streaming := false, raStopped := false, nextHeat := next } }
      ((if s.tapeStopped then s else s.stopTape).dropSpeedRequest).pumpTape
    else s)

/-! ## Rereads (R208 to R211, Table 07-3) -/

/-- The billet that keeps delivery, a locate or the search from going on (R203, R208, R214, R217). -/
def State.blockedSerial (s : State) : Option Nat :=
  let stop := if s.cart.searching || s.rd.locate.isSome then some s.rd.items.2
    else match s.rd.jobs with
      | j :: _ => (j.desc.bind (fun p => match itemAt s.rd.billets p with
          | .ok desc => (s.rd.recordOf desc).stop
          | .error e => some e))
      | [] => none
  match stop with
  | some (.waiting n) => if isLost s.rd.billets n then none else some n
  | _ => none

/-- The ladder's steps up to C3 have ended without this billet: C3 has failed, or no C3 is to come for its train (R208, R219). -/
def State.c3Failed (s : State) (b : RBillet) : Bool :=
  b.state = .unrecovered || (b.final && b.state ≠ .complete && (trainAt s.fmt s.rd.billets b).isNone && s.dataOver)

/-- The unrecovered billet at which a reread begins. -/
def State.blocked (s : State) : Option RBillet :=
  s.blockedSerial.bind (fun n => s.rd.billets.find? (fun b => b.cls = 0 && !b.parity && b.serial = n && s.c3Failed b))

/-- Billets of the train of a billet, data and parity. -/
def trainBillets (f : Nat) (bs : List RBillet) (b : RBillet) : List RBillet :=
  match trainAt f bs b with
  | some t => bs.filter (fun x => x.cls = 0 && x.wrap = b.wrap && t.first ≤ x.heatNo f && x.heatNo f < t.parity + 16)
  | none => bs.filter (fun x => x.cls = 0 && x.wrap = b.wrap && (trainAt f bs x).isNone)

/-- Ingot of a billet in its train, none without one. -/
def ingotIn (f : Nat) (bs : List RBillet) (b : RBillet) : Option Nat := (trainAt f bs b).map (fun t => ingotOf f t b)

/-- A reread pass opens the erased sets of the incomplete billets of every ingot that holds an unrecovered one (R209). -/
def State.reopen (b : RBillet) (s : State) : State :=
  let f := s.fmt
  let mates := trainBillets f s.rd.billets b
  let bad := mates.filter (fun (x : RBillet) => !x.parity && x.state ≠ .complete)
  let ingots := bad.map (ingotIn f s.rd.billets)
  let opens := (mates.filter (fun (x : RBillet) => x.state ≠ .complete && ingots.contains (ingotIn f s.rd.billets x))).map (·.serial)
  { s with rd := { s.rd with billets := s.rd.billets.map (fun (x : RBillet) =>
      if x.cls = 0 && x.wrap = b.wrap && opens.contains x.serial then { x with final := false, state := .waiting, parked := true } else x) } }

/-- Elements that carried a failed frame of the incomplete billets of a train (Table 07-3). -/
def State.failedElements (s : State) (b : RBillet) : List Nat :=
  let map := (s.cart.image.mapAt b.wrap).map
  ((trainBillets s.fmt s.rd.billets b).flatMap (fun (x : RBillet) =>
    if x.state = .complete then [] else x.erased.map (fun j => map.getD (chanOf s.fmt x.group j) 0))).eraseDups

/-- The tape stops and goes to the first heat of the train (R208). -/
def State.startPass (r : Reread) (s : State) : State :=
  let s := { s with rd := { s.rd with reread := some r, heatNow := r.first, lastFrame := r.first } }
  (s.stopTape).positionFor r.wrap (heatLpos s.fmt r.wrap r.first)

/-- The first pass of a train begins for the billet that blocks; with RR_MAX = 0 the ladder ends at once (R208, R210, R211). -/
def State.beginReread (b : RBillet) (s : State) : State :=
  if s.paramN 0x07080200 = 0 then
    { s with rd := { s.rd with billets := s.rd.billets.map (fun (x : RBillet) =>
        if x.cls = 0 && x.serial = b.serial && x.wrap = b.wrap then { x with lost := true, state := .unrecovered } else x) } }.onBillets
  else
    let mates := trainBillets s.fmt s.rd.billets b
    let first := mates.foldl (fun m x => min m x.home) b.home
    let last := mates.foldl (fun m x => max m x.home) b.home + 511
    let resume := if s.rd.raStopped || !s.rd.streaming then s.rd.nextHeat else heatKey s.heat.wrap (s.rd.heatNow + 1)
    let forced := s.failedElements b
    let s := s.reopen b
    let s := { s with rd := { s.rd with nextHeat := resume, forced := forced,
                                        jobs := s.rd.jobs.mapIdx (fun i (j : ReadJob) =>
                                          if i = 0 && !s.cart.searching then { j with attempts := j.attempts + 1 } else j) } }
    s.startPass { serial := b.serial, wrap := b.wrap, k := 1, first := first, last := last, resume := resume }

/-- REREAD_START (R208). -/
def execRereadStart (s : State) : Host.Outcome State Fault Refusal :=
  .next (if !s.rd.reading && s.rd.jobs = [] || s.rd.reread.isSome || s.nextC3.isSome then s
    else match s.blocked with
      | none => s
      | some b => s.beginReread b)

/-- The pass has been read to its last heat, and what it brought has been decoded (R208, R209). -/
def State.passDone (s : State) (r : Reread) : Bool :=
  s.heat.wrap = r.wrap && r.last ≤ s.rd.heatNow && s.rd.c1q.all (·.verify) && s.nextC3.isNone

/-- REREAD_PASS_END: the next attempt, or the ladder's end and the way back to where streaming stopped (R208, R210, R211). -/
def execRereadPassEnd (s : State) : Host.Outcome State Fault Refusal :=
  .next (match s.rd.reread with
  | none => s
  | some r =>
    if !s.passDone r then s
    else match s.rd.billets.find? (fun (b : RBillet) => b.cls = 0 && b.serial = r.serial && b.wrap = r.wrap) with
    | none => s
    | some b =>
      let r := { r with taps := r.taps ++ [(r.k, s.rd.lanes.map Lane.taps)] }
      let bad := (trainBillets s.fmt s.rd.billets b).filter (fun (x : RBillet) => !x.parity && x.state ≠ .complete)
      if bad ≠ [] && r.k < s.paramN 0x07080200 then
        let s := s.reopen b
        let s := { s with rd := { s.rd with jobs := s.rd.jobs.mapIdx (fun i (j : ReadJob) =>
          if i = 0 && !s.cart.searching then { j with attempts := j.attempts + 1 } else j) } }
        s.startPass { r with k := r.k + 1 }
      else
        let gone := bad.map (·.serial)
        let s := { s with rd := { s.rd with
          reread := none, forced := [], heatNow := r.resume % 2 ^ 24 - 1, lastFrame := max r.first (r.resume % 2 ^ 24 - 1),
          billets := s.rd.billets.map (fun (x : RBillet) =>
            if x.cls = 0 && x.wrap = r.wrap && gone.contains x.serial then
              { x with lost := true, final := true, parked := false, state := .unrecovered } else x) } }
        let w := r.resume / 2 ^ 24
        (s.positionFor w (heatLpos s.fmt w (r.resume % 2 ^ 24))).onBillets)

/-! ## The EOD block and the end-of-data search (R216 to R219) -/

/-- Reading for a check or a search is over: the tape stops and whoever waits for it goes on. -/
def State.leaveTape (s : State) : State :=
  let s := { s with rd := { s.rd with reading := false, streaming := false } }
  ((if s.tapeStopped then s else s.stopTape).dropSpeedRequest).pumpTape

/-- EOD_BLOCK_CHECK: the EOD block at the image's position has been read, or is not there (R216, Table 07-5). -/
def execEodBlockCheck (found : Bool) (io : Io) (s : State) : Host.Outcome State Fault Refusal :=
  .next (if !s.cart.eodChecking then s
    else
      let s := s.withIo io
      let m := s.cart.image
      let s := { s with cart := { s.cart with eodChecking := false } }
      if found then
        State.leaveTape { s with cart := { s.cart with
          eodChecked := true, appendPos := m.eodPos,
          eod := { outcome := 0, session := m.session, recordLimit := m.recordLimit, append := m.eodPos } } }
      else ({ s with cart := { s.cart with stale := true, searchPending := true } }.event 0x0301 m.seq 0).startSearch)

/-- A ledger block of the wrap now read is held and shows a session below the image's (R218). -/
def State.lowBlock (s : State) : Bool :=
  s.rd.billets.any (fun b => b.cls = 1 && b.wrap = s.heat.wrap && decide (b.state = .complete) && decide (b.session < s.cart.image.session))

/-- Outcome of the search by what stopped it, none while it goes on (R218, Table 07-5). -/
def State.searchOutcome (s : State) (noBlock : Bool) : Option Nat :=
  if s.rd.sawEod then some 3 else if s.rd.sawStale then some 2 else if noBlock || s.lowBlock then some 4
  else if s.blankRun then some 1 else none

/-- Everything read has gone through the ladder (R217). -/
def State.searchSettled (s : State) : Bool :=
  s.rd.reread.isNone && s.nextC3.isNone && s.blocked.isNone && s.rd.c1q.all (·.verify)

/-- Descriptors found at or above the synced limit, with whether each record is present, in the order read, up to the first that is not
(R217, R219). -/
def State.judged (s : State) : List (Item × Bool) :=
  (s.rd.items.1.filter (fun i => i.type = 0x52 && s.cart.image.syncedLimit ≤ itemRec i.head)).filterMap (fun i =>
    let superseded := match s.rd.billets.find? (fun b => b.cls = 0 && b.serial = i.place.1) with
      | some b => supersededAt s.rd.billets (itemRec i.head) b
      | none => true
    if superseded then none else some (i, (s.rd.recordOf i).matches s.rd.billets i))

/-- A billet of a present record lies in a train that was never closed (R219). -/
def State.noC3 (s : State) (i : Item) : Bool :=
  let last := match (s.rd.recordOf i).trailer with
    | some t => t.place.1
    | none => i.place.1
  (dataBillets s.rd.billets).any (fun b => i.place.1 ≤ b.serial && b.serial ≤ last && (trainAt s.fmt s.rd.billets b).isNone)

/-- The splice position before the first absent record: behind the train of the trailer before it; with no present record at the synced
position, or behind the copies of earlier trains met there (R72, R219). -/
def State.searchAppend (s : State) (present : List Item) : TapePos :=
  let last := (present.getLast?).bind (fun i => ((s.rd.recordOf i).trailer).bind (fun t =>
    s.rd.billets.find? (fun b => b.cls = 0 && b.serial = t.place.1)))
  match last with
  | some b => spliceAfter s.fmt s.rd.billets b
  | none =>
    let p := s.cart.image.syncedPos
    let old := s.rd.billets.filter (fun b => b.cls = 0 && b.wrap = p.wrap && b.serial < p.serial)
    let h := old.foldl (fun m b => max m (b.lastWritten + 1)) p.heat
    { p with heat := h, lpos := if h = p.heat then p.lpos else heatLpos s.fmt p.wrap h }

/-- Mailboxes whose EOD_SEARCH waited are answered (R220). -/
def answerSearch : List Nat → State → State
  | [], s => s
  | m :: r, s => answerSearch r (s.done m s.cart.eod.bytes)

/-- EOD_SEARCH_END: the record limit, the reserved session and the image of the search (R219). -/
def execEodSearchEnd (noBlock : Bool) (io : Io) (s : State) : Host.Outcome State Fault Refusal :=
  .next (if !s.cart.searching || !s.searchSettled then s
    else match s.searchOutcome noBlock with
    | none => s
    | some o =>
      let s := s.withIo io
      let all := s.judged
      let present := (all.takeWhile Prod.snd).map Prod.fst
      let limit := match all.find? (fun e => !e.2) with
        | some e => itemRec e.1.head
        | none => ((present.getLast?).map (fun i => itemRec i.head + 1)).getD s.cart.image.syncedLimit
      let v := min (s.sessionBase + 1) 0xFFFFFFFF
      let append := s.searchAppend present
      let unclosed := ((dataBillets s.rd.billets).getLast?).any (fun b => (trainAt s.fmt s.rd.billets b).isNone)
      let res : EodResult := { outcome := o, stale := s.cart.stale, unclosed := unclosed, session := v, recordLimit := limit, found := present.length,
                               withoutC3 := (present.filter (fun i => s.noC3 i)).length, heats := s.rd.scanned, append := append }
      let s := s.modImage (fun m => { m with recordLimit := limit, eodValid := false, sessionOpen := false, session := v })
      let mbs := s.cart.searchMb
      let s := { s with
        cart := { s.cart with searching := false, searchPending := false, searchMb := [], eod := res, appendPos := append, reserved := some v },
        recs := { s.recs with next := limit } }
      let s := (s.issueImage).event 0x0302 limit v
      (answerSearch mbs s).leaveTape)

/-! ## The change of wrap (R45, R62, R64, R68, R76, R133, R139, R218) -/

/-- Reading has come to the end of a wrap's data area: every erased set of the wrap becomes final, reading turns to the next wrap (R44,
R218). -/
def State.readWrap (s : State) : State :=
  let s := s.atHeat (s.rd.heatNow + 511)
  let due := s.rd.billets.filter (fun (b : RBillet) => b.wrap = s.heat.wrap && !b.final)
  let s := putBillets (due.map (fun (b : RBillet) =>
    let b := { b with final := true }
    if b.state = .waiting then s.tryBillet b else b)) s
  let w := s.heat.wrap + 1
  let s := { s with heat := { s.heat with wrap := w }, rd := { s.rd with heatNow := 0, lastFrame := 0 } }
  ((s.lanesAcquire).motionReq { kind := 4, dir := w % 2 = 1 }).onBillets

/-- WRAP_CHANGE: the data area of the wrap has ended behind its drain. On the last wrap writing ends with the EOD block instead. While
reading, the tape has come to the end of the data area. -/
def execWrapChange (s : State) : Host.Outcome State Fault Refusal :=
  .next (if s.forge.writing then
      (if (s.heat.drain || s.heat.wrapEnd) && s.heat.wrap + 1 < fmtWraps s.fmt && s.forge.eodAt.isNone then (s.exhaustWrap).nextWrap else s)
    else if s.rd.reading && s.rd.streaming && s.rd.reread.isNone && s.heat.wrap + 1 < fmtWraps s.fmt
      && positionsLeft s.fmt s.heat.wrap s.servo.lpos = 0 then s.readWrap
    else s)

end Sys2Proof.Machine
end

