-- ==== Sys2Proof/Machine/Servo.lean ====
section
/-! DEFINITION. The servo unit: servo flits, LPOS words, the five-band estimate, Quench, the fine and tilt loops, the tension hint,
write-clock steering, the status record (R178 to R202, R153). -/

namespace Sys2Proof.Machine

/-! ## Numbers -/

/-- The nearest integer to a quotient; a tie goes either way (log 14). -/
def roundNear (place : Nat) (num den : Int) : Int :=
  if (2 * num) % den = 0 && num % den ≠ 0 then num / den + b2n (Config.roundUp place num den) else (2 * num + den) / (2 * den)

/-- Product of two numbers in units of 2^-48. -/
def mul48 (a b : Int) : Int := a * b / 2 ^ 48

/-- Cosine of an angle in 2^-8 µrad, times 2^48 (the series to the sixth power). -/
def cos48 (a : Int) : Int :=
  let x := a * 2 ^ 48 / 256000000
  let x2 := mul48 x x
  let x4 := mul48 x2 x2
  2 ^ 48 - x2 / 2 + x4 / 24 - mul48 x4 x2 / 720

/-- Angle in 2^-8 µrad whose sine is `n / d` (the series to the ninth power). -/
def asinUrad (n d : Int) : Int :=
  let x := n * 2 ^ 48 / d
  let x2 := mul48 x x
  let x3 := mul48 x x2
  let x5 := mul48 x3 x2
  let x7 := mul48 x5 x2
  let y := x + x3 / 6 + 3 * x5 / 40 + 15 * x7 / 336 + 105 * mul48 x7 x2 / 3456
  roundFree 5 (y * 256000000) (2 ^ 48)

/-- cos θ0 times 2^48, θ0 = 4.0° (R178). -/
def cosTheta0 : Int := 280789282836463

/-! ## Geometry (Table 06-1, R185, R188) -/

/-- Boundary offset u_f less 62.500 µm, in nm (Table 06-1). -/
def boundaryShift (f : Nat) : Int := if f = 4 then 0 else if f = 3 then 5236 else 15708

/-- T_i of reader 2v + t in nm. -/
def readerT (f i : Nat) : Int := -5962500 + 2950000 * (i / 2 : Nat) + 125000 * (i % 2 : Nat) + boundaryShift f

/-- Wrap pitch p_f in nm (Table 06-1). -/
def wrapPitch (f : Nat) : Nat := if f = 4 then 264 else if f = 3 then 352 else 528

/-- Read offset of Table 06-2 in nm. -/
def readOffset (f w : Nat) : Int := if f = 4 then (if w = 0 then 57 else 0) else if f = 3 && w = 0 then 36 else 18

/-- Servo offset of reread attempt `k` as a multiple of RR_STEP (Table 07-3). -/
def attemptSteps : Nat → Int
  | 2 => 1
  | 3 => -1
  | 4 => 2
  | 5 => -2
  | _ => 0

/-- Servo offset of the reread pass in 2^-8 nm, halved on GK4 wrap 0 (R210). -/
def State.rereadOffset (s : State) : Int :=
  match s.rd.reread with
  | none => 0
  | some r =>
    let n := if r.k = 6 then attemptSteps (r.best.getD 0) else attemptSteps r.k
    n * s.param 0x07080300 * (if s.fmt = 4 && s.heat.wrap = 0 then 128 else 256)

/-- The servo target in 2^-8 nm: R188, with the read offsets while reading. -/
def State.servoTarget (s : State) : Int :=
  let w := s.heat.wrap
  let z := (2 * (w : Int) - (fmtWraps s.fmt - 1 : Nat)) * wrapPitch s.fmt * 128
  if s.rd.reading then z + readOffset s.fmt w * 256 + s.rereadOffset else z

/-! ## Servo flits (R199, R415) -/

/-- Reader `i`. -/
def Servo.reader (v : Servo) (i : Nat) : Reader := (v.readers[i]?).getD {}

/-- The 64 samples of band `v` in a servo flit, oldest first. -/
def servoSamples (b : Bytes) (v : Nat) : List Int := (List.range 64).map (fun i => (fieldAt b (64 + 8 * (5 * i + v)) 8 : Nat))

/-- Samples of a flit, or their loss, join a reader's window of 2,000 (R183, R185). -/
def Reader.feed (x : List (Option Int)) (r : Reader) : Reader := { r with samples := (x.reverse ++ r.samples).take 2000 }

/-- A servo port's flit: taken from the first lane whose CRC passes, else lost (R199, R449). -/
def execServoFlit (sp : Fin 2) (flit0 : Bytes) (flit1 : Bytes) (s : State) : Host.Outcome State Fault Refusal :=
  .next (
    let p := 16 + sp.toNat
    if !(s.port p).up then s
    else
      let got := if flitOk 336 flit0 then some flit0 else if flitOk 336 flit1 then some flit1 else none
      let feed := fun (x : Nat → List (Option Int)) (s : State) =>
        { s with servo := { s.servo with readers := s.servo.readers.mapIdx (fun i (r : Reader) =>
            if i % 2 = sp.toNat then r.feed (x (i / 2)) else r) } }
      match got with
      | some b =>
        let s := feed (fun v => (servoSamples b v).map some) s
        let st := BitVec.ofNat 16 (fieldAt b 2640 16)
        let s := s.modPort p (fun (q : Port) => { q with rxSuper := BitVec.ofNat 16 (fieldAt b 0 16) + 4 })
        { s with servo := { s.servo with tiltSense := (fieldAt b 2624 16 : Nat), drv0 := if sp = 0 then st else s.servo.drv0,
                                         drv1 := if sp = 1 then st else s.servo.drv1 } }
      | none =>
        let super := (s.port p).rxSuper
        let s := feed (fun _ => List.replicate 64 none) s
        let s := s.modPort p (fun (q : Port) => { q with rxSuper := super + 4, flitsLost := satAdd 32 q.flitsLost 1 })
        s.journal 0x0A p (leBytes 2 super.toNat ++ [0]))

/-! ## LPOS words (R181, R182, R184) -/

/-- CRC-12 of R182 over bits, first bit first. -/
def crc12 (l : List Bool) : Nat :=
  l.foldl (fun c b => let x := decide (c / 2048 % 2 = 1) != b; let c := c * 2 % 4096; if x then c ^^^ 0x80F else c) 0

/-- The bits of Manchester pairs, 1 as (1, 0) and 0 as (0, 1); none for another pair (R182). -/
def manchester : List Bool → Option (List Bool)
  | [] => some []
  | a :: b :: r => if a = b then none else (manchester r).map (fun x => a :: x)
  | [_] => none

/-- Word number and band of 80 symbols in order of rising LPOS, if they form a word (R182). -/
def lposWord (l : List Bool) : Option (Nat × Nat) :=
  if l.length ≠ 80 || l.take 6 ≠ [true, true, true, false, false, false] then none
  else match manchester (l.drop 6) with
    | none => none
    | some b =>
      if bitsNat ((b.drop 22).take 3) = 0 && crc12 (b.take 25) = bitsNat (b.drop 25) && bitsNat (b.take 19) < 265000 then
        some (bitsNat (b.take 19), bitsNat ((b.drop 19).take 3))
      else none

/-- A reader takes the symbols it passed, one by one; the last word that ends among them with the symbols passed since (R182). -/
def takeSymbols (rev : Bool) : List Bool → List Bool → Option (Nat × Nat × Nat) → List Bool × Option (Nat × Nat × Nat)
  | [], old, w => (old, w)
  | x :: r, old, w =>
    let l := (x :: old).take 80
    let hit := lposWord (if rev then l else l.reverse)
    takeSymbols rev r l (match hit with
      | some (n, b) => some (n, b, 0)
      | none => w.map (fun e => (e.1, e.2.1, e.2.2 + 1)))

/-- The last `n` samples of a reader, oldest first, if none was lost. -/
def Reader.window (n : Nat) (r : Reader) : Option (List Int) :=
  let x := r.samples.take n
  if x.length = n && x.all Option.isSome then some (x.reverse.map (fun v => v.getD 0)) else none

/-- Windows of all readers as the phase measurements see them. -/
def Servo.windows (v : Servo) (n : Nat) : List (List Int) := v.readers.map (fun r => ((r.window n).getD []))

/-- Each reader decodes the words it passes: band number, distance since a word of its own band, and the last word of any reader: its
number, the symbols since. -/
def Servo.decodeWords (v : Servo) (vel : Int) (moved : Nat) : Servo × Option (Nat × Nat) :=
  let rev := decide (vel < 0)
  let one := fun (i : Nat) (r : Reader) =>
    match r.window 2000 with
    | none => ({ r with symbols := [], sinceNm := r.sinceNm + moved }, (none : Option (Nat × Nat)))
    | some x =>
      let t := takeSymbols rev (Config.lposSymbols x vel) r.symbols none
      match t.2 with
      | some (n, b, k) => ({ r with symbols := t.1, band := some b, sinceNm := if b = i / 2 then 0 else r.sinceNm + moved }, some (n, k))
      | none => ({ r with symbols := t.1, sinceNm := r.sinceNm + moved }, none)
  let rs := v.readers.mapIdx one
  let w := rs.findSome? Prod.snd
  ({ v with readers := rs.map Prod.fst, sinceNm := if w.isSome then 0 else v.sinceNm + moved }, w)

/-- LPOS_ref after the window (R184). -/
def Servo.newLpos (v : Servo) (vel : Int) (w : Option (Nat × Nat)) : Int :=
  match w with
  | some (n, k) =>
    let edge : Int := if vel < 0 then 1024000 * (n : Int) - 12800 * k else 1024000 * ((n : Int) + 1) + 12800 * k
    edge + Config.lposPhase (v.windows 2000) vel
  | none => v.lpos + Config.lposAdvance (v.windows 2000) vel

/-! ## Reader positions (R183, R185) -/

/-- Weighted amplitudes of a reader's window: k_AB × a_A and a_B in units of 1 / 0x4000. -/
def State.amps (s : State) (i : Nat) (x : List Int) : Int × Int :=
  ((s.tongs.kAB i * Config.toneA x s.servo.vel : Nat), (0x4000 * Config.toneB x s.servo.vel : Nat))

/-- z of a reader in 2^-8 nm, with the sum of its amplitudes; none where both are zero (R183). -/
def State.readerZ (s : State) (n i : Nat) : Option (Int × Int) :=
  ((s.servo.reader i).window n).bind (fun x =>
    let a := s.amps i x
    if a.1 + a.2 = 0 then none else some (roundFree 6 (24000 * 256 * (a.1 - a.2)) (a.1 + a.2) - s.tongs.zCal i, a.1 + a.2))

/-- Reader `i` is valid for the 5 µs estimate (R185). -/
def State.readerValid (s : State) (i : Nat) : Bool :=
  match s.readerZ 2000 i with
  | none => false
  | some (z, sum) => 0x4000 * (s.paramN 0x06050500 * s.tongs.nominalAmp i) ≤ 100 * sum && z.natAbs ≤ 22000 * 256
      && (s.servo.reader i).sinceNm ≤ 12000000

/-- Valid readers. -/
def State.validReaders (s : State) : List Nat := (List.range 10).filter s.readerValid

/-- Mode of the estimator: 0 FULL, 1 OFFSET_ONLY, 2 LOST (R187). -/
def modeOf (l : List Nat) : Nat :=
  let bands := (l.map (· / 2)).eraseDups
  if 3 ≤ bands.length && bands.any (fun a => bands.any (fun b => a + 2 ≤ b)) then 0 else if l = [] then 2 else 1

/-! ## The estimate (R186, R187) -/

/-- Sum of a list. -/
def sumInt (l : List Int) : Int := l.foldl (· + ·) 0

/-- Slope of a least-squares line through points (x, y): numerator and denominator. -/
def slope (l : List (Int × Int)) : Int × Int :=
  let n : Int := l.length
  let sx := sumInt (l.map Prod.fst)
  let sy := sumInt (l.map Prod.snd)
  (n * sumInt (l.map (fun p => p.1 * p.2)) - sx * sy, n * sumInt (l.map (fun p => p.1 * p.1)) - sx * sx)

/-- Offset of the line at x = 0: numerator over the slope's denominator. -/
def intercept (l : List (Int × Int)) : Int :=
  let sx := sumInt (l.map Prod.fst)
  sumInt (l.map Prod.snd) * sumInt (l.map (fun p => p.1 * p.1)) - sx * sumInt (l.map (fun p => p.1 * p.2))

/-- Points (T_i in nm, e_i in 2^-8 nm) of some readers over a window. -/
def State.errorsOf (s : State) (n : Nat) (l : List Nat) : List (Int × Int) :=
  l.filterMap (fun i => (s.readerZ n i).map (fun z => (readerT s.fmt i, z.1 - s.servo.target)))

/-- o from the mean error with m held (R187). -/
def offsetOnly (m : Int) (l : List (Int × Int)) : Int :=
  roundFree 7 (256000000 * sumInt (l.map Prod.snd) - m * sumInt (l.map Prod.fst)) (256000000 * (l.length : Int))

/-- Worst-element error in 2^-16 ÷ 1,000 nm from o in 2^-8 nm and m in 2^-16 ppm (R190). -/
def worstError (o m : Int) : Nat := 256000 * o.natAbs + 5775 * m.natAbs

/-- The width factor s less 1, in 2^-8 ppm (R186). -/
def widthFactor (alpha m : Int) : Int :=
  roundFree 8 ((cos48 alpha - cosTheta0) * 256000000 * 256 - m * cosTheta0) (cosTheta0 * 256)

/-- o, m, α, s and ψ by the mode (R186, R187). -/
def State.fit (s : State) (l : List Nat) : Servo :=
  let v := s.servo
  let e := s.errorsOf 2000 l
  match modeOf l with
  | 0 =>
    let d := slope e
    let o := roundFree 9 (intercept e) d.2
    let m := roundFree 10 (d.1 * 256000000) d.2
    let along := slope (l.map (fun i => (readerT 4 i, Config.alongOffset (((v.reader i).window 2000).getD []) v.vel)))
    let alpha := asinUrad (along.1 * 1000) (along.2 * 256)
    { v with mode := 0, o := o, m := m, alpha := alpha, sFac := widthFactor alpha m,
             psi := alpha - (v.tiltSense - s.tongs.tiltZero) * 512 }
  | 1 => { v with mode := 1, o := offsetOnly v.m e, psi := v.alpha - (v.tiltSense - s.tongs.tiltZero) * 512 }
  | _ => { v with mode := 2, psi := v.alpha - (v.tiltSense - s.tongs.tiltZero) * 512 }

/-! ## Quench (R141, R190) -/

/-- Conditions 3 to 5 of R190. -/
def State.servoUnsure (s : State) : Bool :=
  s.servo.mode = 2 || (s.servo.mode = 1 && s.paramN 0x06050600 < 5 * s.servo.offsetOnly) || 4000000 * s.paramN 0x06050700 < s.servo.sinceNm

/-- A limit of the servo parameters in the units of the worst errors. -/
def State.nmLimit (s : State) (id : Nat) : Nat := 65536000 * s.paramN id

/-- Quench is asserted while writing: write gate off, every channel's frame cut, counted and reported (R128, R141, R190, R450). -/
def State.quench (s : State) : State :=
  if s.heat.quench || !s.forge.writing then s
  else
    let s := { s with heat := { s.heat with quench := true, gate := false }, blw := { s.blw with quenchCount := satAdd 64 s.blw.quenchCount 1 } }
    ((s.drop (List.range 16)).blwCause 5 0).trigger 1

/-- Conditions 1 to 5 of R190 tested. -/
def State.checkQuench (s : State) : State :=
  if s.nmLimit 0x06050100 < s.servo.worst || s.nmLimit 0x06050100 < s.servo.fastWorst || s.servoUnsure then s.quench else s

/-- QUENCH_RELEASE: for QUENCH_HOLD both errors have stayed within SV_WI_RESUME and conditions 3 to 5 have not held (R190); the lanes
acquire again (R167). -/
def execQuenchRelease (s : State) : Host.Outcome State Fault Refusal :=
  .next (if s.heat.quench && s.servo.worst ≤ s.nmLimit 0x06050200 && s.servo.fastWorst ≤ s.nmLimit 0x06050200 && !s.servoUnsure then
      { s with heat := { s.heat with quench := false } }.lanesAcquire
    else s)

/-- FAST_PATH_ESTIMATE: the offset from the last 500 samples of the valid readers with the latest m (R183, R190). -/
def execFastPathEstimate (s : State) : Host.Outcome State Fault Refusal :=
  .next (
    let l := (List.range 10).filter (fun i => s.servo.valid.getLsbD i)
    let e := s.errorsOf 500 l
    if e = [] then s
    else { s with servo := { s.servo with fastWorst := worstError (offsetOnly s.servo.m e) s.servo.m } }.checkQuench)

/-! ## Loops (R194 to R196) -/

/-- 40-bit saturation (R195). -/
def sat40 (x : Int) : Int := clampInt (-(2 ^ 39)) (2 ^ 39 - 1) x

/-- A biquad with coefficients b0, b1, b2, a1, a2 in units of 2^-22 (R195). -/
def Biquad.run (q : Biquad) (c : Nat → Int) (x : Int) : Biquad × Int :=
  let x := sat40 x
  let y := sat40 (roundFree 11 (c 0 * x + c 1 * q.x1 + c 2 * q.x2 - c 3 * q.y1 - c 4 * q.y2) 4194304)
  ({ x1 := x, x2 := q.x1, y1 := y, y2 := q.y1 }, y)

/-- A chain of biquads, the n-th with coefficients `c (5n + k)`. -/
def runChain (c : Nat → Int) : Nat → List Biquad → Int → List Biquad × Int
  | _, [], x => ([], x)
  | n, q :: r, x =>
    let a := q.run (fun k => c (5 * n + k)) x
    let b := runChain c (n + 1) r a.2
    (a.1 :: b.1, b.2)

/-- The fine loop of one estimate (R194). -/
def State.fineLoop (s : State) : State :=
  if s.param 0x06050800 = 0 then s
  else
    let e := clampInt (-(2 ^ 31)) (2 ^ 31 - 1) (s.servo.target - s.servo.o)
    let r := runChain (fun k => s.param (0x06050900 + k)) 0 s.servo.fa e
    { s with servo := { s.servo with fa := r.1, fineCmd := clampInt (-32768) 32767 (r.2 / 2 ^ s.paramN 0x06050A00) } }

/-- TILT_UPDATE: on every TL_DIV-th estimate in FULL (R196). -/
def execTiltUpdate (s : State) : Host.Outcome State Fault Refusal :=
  .next (if s.servo.mode ≠ 0 || s.servo.tiltDiv < s.paramN 0x06050C00 then s
    else
      let r := runChain (fun k => s.param (0x06050B00 + k)) 0 s.servo.tl s.servo.m
      let sin := sin48 s.servo.alpha
      let step := if sin = 0 then Config.tiltStep s.free else roundNear 12 (sin.sign * r.2 * cosTheta0) (65536 * 2 * sin.natAbs)
      let s := if sin = 0 then s.drew else s
      { s with servo := { s.servo with tl := r.1, tiltDiv := 0, tiltCmd := (clampInt 0 52360 ((s.servo.tiltCmd : Int) + step)).toNat } })

/-- TILT_CMD lies within TH_MARGIN of an end of its range (R197). -/
def State.nearEnd (s : State) : Bool :=
  6000 * s.servo.tiltCmd ≤ 52360 * s.paramN 0x06050D00 || 6000 * (52360 - s.servo.tiltCmd) ≤ 52360 * s.paramN 0x06050D00

/-- TENSION_HINT: TILT_CMD has stayed near an end for 1 ms, TH_PERIOD has passed since the last hint, or the condition has ended (R197). -/
def execTensionHint (s : State) : Host.Outcome State Fault Refusal :=
  .next (if s.nearEnd then
      { s with servo := { s.servo with hint := true } }.motionReq { kind := 5, hint := clampInt (-32768) 32767 (roundNear 13 (-s.servo.sFac) 256) }
    else if s.servo.hint then { s with servo := { s.servo with hint := false } }.motionReq { kind := 5, hint := 0 }
    else s)

/-! ## Steering (R153, R198, R412) -/

/-- F for a velocity in µm/s (R198). -/
def steerWord (f : Nat) (v : Int) : BitVec 32 := BitVec.ofInt 32 (roundNear 14 ((v.natAbs : Int) * fmtDensity f * 2 ^ 24) 100000000000)

/-- F goes to every head port, to take effect 16 superframes on (R412). -/
def State.steer (f : BitVec 32) (s : State) : State :=
  { s with servo := { s.servo with f := f },
           tongs := { s.tongs with ports := s.tongs.ports.mapIdx (fun i (p : Port) =>
             if i < 16 && p.up then { p with fNext := some (f, p.superframe + 16) } else p) } }

/-- Lanes follow the change of the velocity estimate (R153). -/
def State.feedForward (old : Int) (s : State) : State :=
  if !s.lanesOn then s
  else
    let d := roundFree 15 (((s.servo.vel.natAbs : Int) - old.natAbs) * fmtDensity s.fmt * 2 ^ 24) 1200000000000
    { s with rd := { s.rd with lanes := s.rd.lanes.mapIdx (fun p (l : Lane) =>
        if fmtUses s.fmt p then { l with rho := clampRho ((l.rho.toNat : Int) + d) } else l) } }

/-! ## Status (Table 06-6) -/

/-- Bytes 0 to 47 of the servo status record. -/
def State.servoHead (s : State) : Bytes :=
  let v := s.servo
  [byte v.mode, byte (v.wrap.getD 0xFF)] ++ leBytes 2 v.valid.toNat ++ leBytes 4 (ofSigned 32 v.o) ++ leBytes 4 (ofSigned 32 v.m)
  ++ leBytes 4 (ofSigned 32 v.sFac) ++ leBytes 4 (ofSigned 32 v.alpha) ++ leBytes 4 (ofSigned 32 v.psi) ++ leBytes 4 (ofSigned 32 v.vel)
  ++ leBytes 4 v.f.toNat ++ leBytes 8 (ofSigned 64 v.lpos) ++ leBytes 2 v.tiltCmd ++ leBytes 2 (ofSigned 16 v.tiltSense)
  ++ leBytes 2 (ofSigned 16 v.fineCmd) ++ leBytes 2 (b2n s.heat.quench + 2 * b2n v.offtrack + 4 * b2n v.hint)

def servoStatusBody (r : MbReq) (s : State) : State :=
  s.done r.mb (s.servoHead ++ leBytes 8 s.servo.offtrackCount.toNat ++ leBytes 8 s.servo.time.toNat)

def serveServoStatus : MbReq → State → State := mbChecks 0x0302 (sized 0) (fun _ => true) 0 servoStatusBody

/-- SERVO_STATUS (R202). -/
def execServoStatus (r : MbReq) (s : State) : Host.Outcome State Fault Refusal := .next (mbGo 0x0302 r serveServoStatus s)

/-! ## The 5 µs estimate -/

/-- The nominal amplitude of a failed calibration set: the mean at the first servo acquisition (R424). -/
def State.firstAcquisition (s : State) : State :=
  if !s.tongs.calFailed || s.tongs.meanAmp ≠ 0 then s
  else
    let sums := (List.range 10).filterMap (fun i => (s.readerZ 2000 i).map (fun z => z.2 / 0x4000))
    if sums = [] then s else { s with tongs := { s.tongs with meanAmp := (sumInt sums / sums.length).toNat } }

/-- Velocity, words and LPOS of the window (R182, R184). -/
def State.moveTape (s : State) : State :=
  let v := s.servo
  let vel := Config.tapeVelocity (v.windows 2000) v.vel
  let d := v.decodeWords vel (vel.natAbs / 200)
  { s with servo := { d.1 with velPrev := v.vel, vel := vel, lpos := d.1.newLpos vel d.2, time := s.now } }

/-- The confirmed wrap (R189). -/
def State.confirmWrap (s : State) (l : List Nat) : Option Nat :=
  if s.servo.mode ≠ 2 && s.servo.o.natAbs < wrapPitch s.fmt * 128 && l.all (fun i => (s.servo.reader i).band = some (i / 2)) then
    some s.heat.wrap
  else none

/-- Mailboxes whose EOD_SEARCH ends with a failure of the tape. -/
def failSearch (st : BitVec 16) : List Nat → State → State
  | [], s => s
  | m :: r, s => failSearch st r (s.respond m st (openDetail 0x0205 st.toNat) [])

/-- The command that moves the tape ends with a status: a locate, else the record read in front; a check or search ends too, and the
EOD_SEARCHes that wait for it (R294, Table 10-18). -/
def State.failTape (st : BitVec 16) (s : State) : State :=
  let mbs := if s.cart.searching then s.cart.searchMb else []
  let next := if s.rd.streaming then heatKey s.heat.wrap (s.rd.heatNow + 1) else s.rd.nextHeat
  let s := { s with rd := { s.rd with streaming := false, reading := false, nextHeat := next },
                    cart := { s.cart with searching := false, eodChecking := false, searchMb := if mbs = [] then s.cart.searchMb else [] } }
  let s := match s.rd.locate with
    | some _ => s.endLocate st none
    | none => match s.rd.jobs with
      | j :: _ => (s.endLadder).endRead j st 6
      | [] => s
  (failSearch st mbs s).pumpTape

/-- Reading off track, or without a servo signal (R191). -/
def State.readTrack (s : State) : State :=
  if !s.rd.reading then { s with servo := { s.servo with offtrack := false } }
  else
    let lim := s.nmLimit (if s.heat.wrap = 0 then 0x06050300 else 0x06050400)
    let off := decide (lim < s.servo.worst)
    let s := { s with
      servo := { s.servo with offtrack := off, offtrackCount := if off then s.servo.offtrackCount + 1 else s.servo.offtrackCount },
      rd := { s.rd with jobs := s.rd.jobs.mapIdx (fun i (j : ReadJob) =>
        if i = 0 && off && s.rd.streaming && j.desc.isSome then { j with offtrack := j.offtrack + 1 } else j) } }
    if s.servo.mode = 2 && s.rd.streaming then ((s.event 0x0300 s.heat.wrap (ofSigned 64 s.servo.lpos)).stopTape).failTape Status.servoLost
    else s

/-- SERVO_ESTIMATE: every 5 µs (R153, R182 to R191, R194, R198, R416). -/
def execServoEstimate (s : State) : Host.Outcome State Fault Refusal :=
  .next (if s.bench.on then s
    else
      let s := ((s.applyParams .estimate).firstAcquisition).moveTape
      let s := { s with servo := { s.servo with target := s.servoTarget } }
      let l := s.validReaders
      let s := { s with servo := { s.fit l with valid := BitVec.ofNat 10 (l.foldl (fun n i => n + 2 ^ i) 0) } }
      let s := { s with servo := { s.servo with
        wrap := s.confirmWrap l, worst := worstError s.servo.o s.servo.m, tiltDiv := s.servo.tiltDiv + 1,
        offsetOnly := if s.servo.mode = 1 then s.servo.offsetOnly + 1 else 0, actSeq := s.servo.actSeq + 1 } }
      let s := s.fineLoop
      let s := (s.steer (steerWord s.fmt (2 * s.servo.vel - s.servo.velPrev))).feedForward s.servo.velPrev
      let s := { s with tongs := { s.tongs with ports := s.tongs.ports.mapIdx (fun i (p : Port) => if 16 ≤ i then { p with actDue := true } else p) } }
      let s := s.checkQuench
      let s := s.journal 0x07 0 s.servoHead
      s.readTrack)

end Sys2Proof.Machine
end

