-- ==== Sys2Proof/Machine/Tongs.lean ====
section
/-! DEFINITION. The Tongs link: transmit superframes, write-clock accumulators, lane status words, the management channel, lane swaps,
ports DOWN and their training, the calibration set, LANE_STATUS (R401 to R427). -/

namespace Sys2Proof.Machine

/-! ## Transmit superframes (R410 to R412, R416, Tables 14-5, 14-6, 14-16) -/

/-- The port as its next superframe begins: a waiting F takes effect in its APPLY superframe (R412). -/
def Port.applyF (p : Port) : Port := match p.fNext with
  | some (f, a) => if a = p.superframe then { p with f := f, apply := a, fNext := none } else p
  | none => p

/-- t of R411 for the coming superframe. -/
def Port.clock (p : Port) : Nat := p.acc.toNat + 4 * p.f.toNat

/-- Channel bits per channel in the coming superframe (R411). -/
def Port.bitsDue (p : Port) : Nat := p.clock / 2 ^ 24

/-- F and APPLY as the steering word sends them (R412). -/
def Port.steering (p : Port) : Nat := match p.fNext with
  | some (f, a) => f.toNat * 2 ^ 32 + a.toNat * 2 ^ 16
  | none => p.f.toNat * 2 ^ 32 + p.apply.toNat * 2 ^ 16

/-- The control word (Table 14-6); GATE takes effect at the first bit (log 60). -/
def Port.control (p : Port) (gate : Bool) (row die : Nat) : Nat :=
  p.superframe.toNat * 2 ^ 48 + p.bitsDue % 128 * 2 ^ 41 + b2n gate * 2 ^ 40 + row * 2 ^ 33 + b2n p.claim * 2 ^ 32 + b2n p.release * 2 ^ 31
  + die * 2 ^ 16

/-- The management request word (R421). -/
def MgmtReq.word (r : MgmtReq) : Nat := r.op * 2 ^ 56 + r.tag.toNat * 2 ^ 48 + r.addr.toNat * 2 ^ 32 + r.data.toNat

/-- The next waiting request becomes the outstanding one, with the next tag (R421: at most one). -/
def Port.nextMgmt (p : Port) : Port := match p.mgmt, p.mgmtQ with
  | none, q :: rest => { p with mgmt := some ({ q with tag := p.mgmtTag }, 0), mgmtQ := rest, mgmtTag := p.mgmtTag + 1 }
  | _, _ => p

/-- The request word of the coming superframe: the outstanding request where it is to be sent, else idle. -/
def Port.mgmtWord (p : Port) : Nat := match p.mgmt with
  | some (r, 0) => r.word
  | _ => 0

/-- `n` bits from bit 63 down: those of an item being written, and where there are none, bits the spec does not give (log 44). -/
def dataWord (n : Nat) (bits : List Bool) (idle : BitVec 64) : Nat :=
  (List.range (min n 64)).foldl (fun a i => a + 2 ^ (63 - i) * b2n (bits.getD i (idle.getLsbD (63 - i)))) 0

/-- A CRC word over the words before it (Table 14-5). -/
def withCrc (ws : List Nat) : List (BitVec 64) := (ws ++ [(crcLink (ws.flatMap (beBytes 8))).toNat]).map (BitVec.ofNat 64)

/-- Write gate of a head port: the heat controller's, for the port's owner; bench mode sends 0 (R417, R452, R457). -/
def State.gateOut (s : State) (p : Port) : Bool := s.heat.gate && p.owner && !s.bench.on && !s.pins.gateLocked

/-- The words of a head port's superframe (Table 14-5). -/
def State.headWords (s : State) (i : Nat) (p : Port) : List (BitVec 64) :=
  withCrc ([p.control (s.gateOut p) s.row s.twin.die, p.steering]
    ++ (List.range 64).map (fun c => dataWord p.bitsDue (s.chan (64 * i + c)).bits (Config.idleBits (s.free + c))) ++ [p.mgmtWord])

/-- The actuator word (R416). -/
def Servo.actuator (v : Servo) : Nat := ofSigned 16 v.fineCmd * 2 ^ 48 + v.tiltCmd % 2 ^ 16 * 2 ^ 32 + v.actSeq.toNat * 2 ^ 24

/-- The words of a servo port's superframe (Table 14-16). -/
def State.servoWords (s : State) (p : Port) : List (BitVec 64) :=
  withCrc ([p.control false s.row s.twin.die, p.steering, if p.actDue then s.servo.actuator else 0] ++ List.replicate 29 0 ++ [p.mgmtWord])

/-- The port after its superframe: accumulator and number moved on, a claim or release made. A standby that claims sends CLAIM until the
claim is honoured (R411, R417, R442). -/
def Port.sent (gate claiming : Bool) (p : Port) : Port :=
  let takes := p.claim && !claiming && !p.owner
  { p with
    acc := if takes || p.release then 0 else BitVec.ofNat 24 (p.clock % 2 ^ 24)
    superframe := p.superframe + 1, gate := gate, actDue := false, claim := p.claim && claiming, release := false,
    owner := (p.owner || takes) && !p.release
    mgmt := p.mgmt.map (fun (q : MgmtReq × Nat) => (q.1, q.2 + 1)) }

/-- The bits of a port's superframe leave its channels. -/
def State.takeBits (i n : Nat) (s : State) : State :=
  { s with anvil := { s.anvil with chans := s.anvil.chans.mapIdx (fun p (c : Chan) => if p / 64 = i then { c with bits := c.bits.drop n } else c) },
           free := s.free + 64 }

/-- TRANSMIT_SUPERFRAME (R411): every 40 ns on a port that is up and whose domain is not gated (Table 16-2). -/
def execTransmitSuperframe (port : Fin 18) (s : State) : Host.Outcome State Fault Refusal :=
  .next (if !(s.port port).up || !s.pins.refs || 2 ≤ s.pwr.state.toNat then s
    else
      let p := (s.port port).applyF.nextMgmt
      if port.val < 16 then
        let s' := s.emit (.superframe port (s.headWords port p))
        (s'.takeBits port p.bitsDue).modPort port (fun _ => p.sent (s.gateOut p) s.twin.claiming)
      else (s.emit (.superframe port (s.servoWords p))).modPort port (fun _ => p.sent false s.twin.claiming))

/-! ## Management channel (R421) -/

/-- A response with the tag of the outstanding request completes it. -/
def Port.answered (w : BitVec 64) (p : Port) : Port := match p.mgmt with
  | some (r, _) => if r.tag.toNat = bitsOf w.toNat 56 8 then { p with mgmt := none } else p
  | none => p

/-- A lane status word whose CRC-16 matches (R408). -/
def statusWordOk (w : BitVec 64) : Bool := (crc16 (beBytes 6 (w.toNat / 65536))).toNat = w.toNat % 65536

/-- MANAGEMENT_RESPONSE (R421): the logical-lane-1 status word of a port. -/
def execManagementResponse (port : Fin 18) (w : BitVec 64) (s : State) : Host.Outcome State Fault Refusal :=
  .next (if (s.port port).up && statusWordOk w then s.modPort port (Port.answered w) else s)

/-- A request without an answer within 64 superframes is sent again, with the same tag. -/
def Port.resend (p : Port) : Port := match p.mgmt with
  | some (r, age) => if 64 ≤ age then { p with mgmt := some (r, 0) } else p
  | none => p

/-- MANAGEMENT_TIMEOUT (R421). -/
def execManagementTimeout (port : Fin 18) (s : State) : Host.Outcome State Fault Refusal := .next (s.modPort port Port.resend)

/-- Front-end status: state, gate, row, lost superframes modulo 64, last superframe applied, temperature, alarms; a steering slip
counts when its alarm comes (R408, R412, R413, log 51). -/
def Port.frontEnd (w : BitVec 64) (p : Port) : Port :=
  let n := w.toNat
  let lost := (bitsOf n 48 6 + 64 - p.feLost.toNat) % 64
  let alarm := Config.slipAlarm (BitVec.ofNat 8 (bitsOf n 16 8))
  let had := Config.slipAlarm (BitVec.ofNat 8 (p.feStatus.toNat % 256))
  { p with feStatus := BitVec.ofNat 48 (n / 65536), feLost := BitVec.ofNat 6 (bitsOf n 48 6), framesLost := satAdd 32 p.framesLost lost,
           slips := satAdd 32 p.slips (b2n (alarm && !had)) }

/-- LANE_STATUS_WORD (R408): a word that fails its CRC is ignored; lost superframes are journalled (Table 15-9, log 47). -/
def execLaneStatusWord (port : Fin 18) (logical : Fin 9) (w : BitVec 64) (s : State) : Host.Outcome State Fault Refusal :=
  .next (if !(s.port port).up || !statusWordOk w then s
    else if logical = 0 then
      let lost := decide ((s.port port).feLost.toNat ≠ bitsOf w.toNat 48 6)
      let s := s.modPort port (Port.frontEnd w)
      if lost then s.journal 0x0A port (leBytes 2 (bitsOf w.toNat 32 16) ++ [0xFF]) else s
    else if logical = 1 then s.modPort port (Port.answered w)
    else s)

/-! ## Ports that go DOWN (R419, R420) -/

/-- The port starts to train: swaps, requests and steering of the link before are gone (R418). -/
def Port.train (p : Port) : Port :=
  { p with state := 1, swap := none, mgmt := none, mgmtQ := [], fNext := none, gate := false, owner := false, claim := false, actDue := false }

/-- A retraining begins (R420, Table 14-14). -/
def State.retrain (i : Nat) (s : State) : State :=
  s.modPort i (fun p => { p.train with retrains := satAdd 32 p.retrains 1, lastRetrain := s.nowSec })

/-- A port that carries traffic goes DOWN: it is retrained at once; while writing, a head port's loss drops the frames in progress on
every head port and holds write gate off (R420; `State.gateHeld`). -/
def State.goDown (i : Nat) (s : State) : State :=
  if !(s.port i).up then s
  else
    let s := s.retrain i
    if i < 16 && s.forge.writing then
      let s := s.drop (List.range 16)
      { s with heat := { s.heat with gate := false, kind := .none } }
    else s

/-- PORT_DOWN (R420). -/
def execPortDown (port : Fin 18) (s : State) : Host.Outcome State Fault Refusal := .next (s.goDown port)

/-- RETRAIN_MAX_EXPIRY (R420): the port still DOWN, writing ends as at a write abort. -/
def execRetrainMaxExpiry (port : Fin 18) (s : State) : Host.Outcome State Fault Refusal :=
  .next (if port.val < 16 && s.forge.writing && !(s.port port).up then s.writeAbortAll.pumpTape else s)

/-! ## Lane swaps (R406, R419) -/

/-- The spare of a logical lane's direction: transmit lanes are entries 9 and 10 of the map (Table 14-10). -/
def Port.spareOf (p : Port) (l : Nat) : Option Nat := if l < 9 then p.rxSpare else p.txSpare

/-- A swap of logical lane `l` to the spare begins: MIRROR names s + 16, SWITCH s + 96. Without a spare the port goes DOWN (R419). -/
def State.beginSwap (i l : Nat) (s : State) : State :=
  let p := s.port i
  if (p.spareOf l).isNone || p.swap.isSome then s.goDown i
  else
    let n := p.superframe.toNat
    s.modPort i (fun p =>
      let p := { p with swap := some { logical := l, transmit := decide (9 ≤ l), start := n } }
      if l < 9 then p.ask 5 l ((n + 16) % 65536) else p.ask 6 (l - 9) ((n + 96) % 65536))

/-- LANE_ALIGNMENT_LOSS (R406): the lane of a logical lane is swapped, a spare is no longer one (R419). -/
def execLaneAlignmentLoss (port : Fin 18) (lane : Fin 13) (s : State) : Host.Outcome State Fault Refusal :=
  .next (
    let p := s.port port
    if !p.up || !p.aligned.contains lane.val then s
    else
      let s := s.modPort port (fun p => { p with aligned := p.aligned.filter (· ≠ lane.val) })
      match p.map.findIdx? (· = lane.val) with
      | some l => s.beginSwap port l
      | none => s.modPort port (fun p => ({ p with
          rxSpare := p.rxSpare.filter (· ≠ lane.val), txSpare := p.txSpare.filter (· ≠ lane.val) }).settleUp port))

/-- LANE_SWAP (R419): `bip` BIP-8 errors of the lane of a logical lane within 1 s are counted; the lane is swapped where it is not
aligned, or where TL_AUTO_SWAP is 1 and they reach TL_SWAP_BIP. -/
def execLaneSwap (port : Fin 18) (logical : Fin 11) (bip : BitVec 16) (s : State) : Host.Outcome State Fault Refusal :=
  .next (
    let p := s.port port
    match p.map[logical.val]? with
    | none => s
    | some lane =>
      if !p.up || 13 ≤ lane then s
      else
        let s := s.modPort port (fun p => { p with bip := modAt p.bip lane (fun b => satAdd 16 b bip.toNat) })
        if p.swap.isSome then s
        else if !p.aligned.contains lane || (s.paramN 0x0E0F0100 = 1 && s.paramN 0x0E0F0200 ≤ bip.toNat) then s.beginSwap port logical
        else s)

/-- The logical lane is on the spare from then on; a receive swap asks RELEASE (R419). -/
def Port.switched (i : Nat) (w : LaneSwap) (p : Port) : Port := match p.spareOf w.logical with
  | none => { p with swap := none }
  | some x =>
    let p := { p with map := modAt p.map w.logical (fun _ => x), swap := none, swaps := satAdd 32 p.swaps 1 }
    let p := if w.transmit then { p with txSpare := none } else { p with rxSpare := none }.ask 7 w.logical 0
    p.settleUp i

/-- LANE_SWAP_COMPLETE (R419): BIP-8 errors of the spare abandon the swap and the port is retrained. -/
def execLaneSwapComplete (port : Fin 18) (errors : Bool) (s : State) : Host.Outcome State Fault Refusal :=
  .next (match (s.port port).swap with
    | none => s
    | some w => if errors then s.goDown port else s.modPort port (Port.switched port w))

/-! ## Training (R418, R424, Table 14-8) -/

/-- Logical receive and transmit lanes of a port (Table 14-1). -/
def lanesNeeded (i : Nat) : Nat × Nat := if i < 16 then (9, 2) else (2, 1)

/-- The 13 entries of the lane map, 15 where there is none (Table 14-10, log 53). -/
def Port.laneMap (p : Port) : List Nat := (List.range 11).map (fun k => p.map.getD k 15) ++ [p.rxSpare.getD 15, p.txSpare.getD 15]

/-- LANE_MAP_LO and LANE_MAP_HI as one number. -/
def Port.mapWord (p : Port) : Nat := p.laneMap.foldr (fun x a => x + 16 * a) 0

/-- Front-end registers of port `i`, loaded from the calibration set (Tables 14-8, 14-10). -/
def Tongs.loadRegs (t : Tongs) (f i : Nat) (p : Port) : Port :=
  if i < 16 then
    let p := p.askWen f i
    (List.range 64).foldl (fun (p : Port) c =>
      let e := 64 * i + c
      ((p.ask 2 (0x40 + c) (t.writeCurrent e)).ask 2 (0x80 + c) (t.readBias e 1 * 65536 + t.readBias e 0)).ask 2 (0xC0 + c)
        (t.gainTrim e 1 * 256 + t.gainTrim e 0)) p
  else p

/-- The registers of every port that carries traffic loaded anew, once a calibration set is in force (R424, R425). -/
def State.reloadRegs (s : State) : State :=
  { s with tongs := { s.tongs with ports := s.tongs.ports.mapIdx (fun i (p : Port) => if p.up then s.tongs.loadRegs s.fmt i p else p) } }

/-- The maps that training sets: the lowest aligned lanes without BIP-8 errors carry the logical lanes, the next is the spare; DOWN
where too few are left (Table 14-8 steps 4 and 5). -/
def Port.trained (i : Nat) (aligned failed : List Nat) (claim : Bool) (p : Port) : Port :=
  let good := (List.range 13).filter (fun n => aligned.contains n && !failed.contains n)
  let rx := good.filter (· < 10)
  let tx := good.filter (10 ≤ ·)
  let (nr, nt) := lanesNeeded i
  if rx.length < nr || tx.length < nt then { p with state := 0, aligned := aligned, failed := failed }
  else
    let p := { p with
      state := 2, aligned := aligned, failed := failed, map := rx.take nr ++ List.replicate (9 - nr) 15 ++ tx.take nt,
      rxSpare := if i < 16 then rx[nr]? else none, txSpare := if i < 16 then tx[nt]? else none, acc := 0, claim := claim, failedRetrains := 0 }
    let p := p.settleUp i
    (p.ask 2 4 (p.mapWord % 2 ^ 32)).ask 2 7 (p.mapWord / 2 ^ 32 % 2 ^ 20)

/-- A port's training ends: UP, or retrained again, or quarantined after 3 retrains that left it DOWN (R418, R420). -/
def State.finishTraining (i : Nat) (aligned failed : List Nat) (s : State) : State :=
  let out := failed ++ (List.range 13).filter (fun n => s.isQuarantined 8 (16 * i + n))
  let s := s.modPort i (Port.trained i aligned out (decide (s.twin.role ≠ 2)))
  if (s.port i).up then s.modPort i (s.tongs.loadRegs s.fmt i)
  else
    let n := (s.port i).failedRetrains + 1
    let s := s.modPort i (fun p => { p with failedRetrains := n })
    if 3 ≤ n then s.quarantineUnit 7 i else s.retrain i

/-- The EEPROM is read at a link-up of HP0, or of HP8, while the formatter neither writes nor reads (R423, R424). -/
def State.readEeprom (i : Nat) (eeprom : Bytes) (s : State) : State :=
  if (i = 0 || i = 8) && (s.port i).up && !s.forge.writing && !s.rd.reading then
    let t := s.tongs.loadCal (Sys2Proof.fit 33280 eeprom)
    if t = s.tongs then s else { s with tongs := t }.reloadRegs
  else s

/-- PORT_TRAINING_COMPLETE (R418). -/
def execPortTrainingComplete (port : Fin 18) (aligned failed : List (Fin 13)) (eeprom : Bytes) (s : State) :
    Host.Outcome State Fault Refusal :=
  .next (if (s.port port).state ≠ 1 then s
    else (s.finishTraining port (aligned.map Fin.val) (failed.map Fin.val)).readEeprom port eeprom)

/-! ## Calibration commands (R425, Table 14-13) -/

/-- The EEPROM can be reached, on HP0 or on HP8 (R423). -/
def State.eepromUp (s : State) : Bool := (s.port 0).up || (s.port 8).up

def calExportBody (r : MbReq) (s : State) : State :=
  let p := mbData r
  let b := fit 33280 s.tongs.eeprom
  if getLe p 0 8 % 8 ≠ 0 then s.invalidOpen 0x0801 0 r
  else if getLe p 8 4 < 33280 then s.invalidOpen 0x0801 1 r
  else if !s.eepromUp then s.refuse 0x0801 Status.sequenceError r
  else if !r.io.ok then s.refuse 0x0801 Status.dataTransferError r
  else (s.emit (.dma (BitVec.ofNat 64 (getLe p 0 8)) b)).done r.mb
    ([byte (b2n (decide (getLe b 0x81FC 4 = (crc32c (slice b 0 0x81FC)).toNat)))] ++ zeros 7 ++ slice b 0x10 16)

def serveCalExport : MbReq → State → State := mbChecks 0x0801 (sized 16) (fun p => zeroAt p 12 4) 0 calExportBody

/-- CAL_EXPORT (R425). -/
def execCalExport (r : MbReq) (s : State) : Host.Outcome State Fault Refusal := .next (mbGo 0x0801 r serveCalExport s)

/-- Detail with which a calibration image is rejected (R425 step 1). -/
def calFault (b stored : Bytes) (force : Bool) : Option Nat :=
  if slice b 0 8 ≠ [0x44, 0x58, 0x46, 0x43, 0x41, 0x4C, 0x30, 0x31] || getLe b 8 4 ≠ 33280 then some 1
  else if !calValid b then some 2
  else if !force && slice b 0x10 16 ≠ slice stored 0x10 16 then some 3
  else none

/-- `aux` is empty where the EEPROM reads back as written, else what it reads back (R425 steps 2 to 4). -/
def calWriteBody (r : MbReq) (s : State) : State :=
  let p := mbData r
  let b := fit 33280 r.io.data
  if s.forge.writing || s.rd.reading then s.refuse 0x0802 Status.sequenceError r
  else if getLe p 0 8 % 8 ≠ 0 then s.invalidOpen 0x0802 0 r
  else if !s.eepromUp then s.refuse 0x0802 Status.sequenceError r
  else if !r.io.ok then s.refuse 0x0802 Status.dataTransferError r
  else match calFault b s.tongs.eeprom (getLe p 8 4 = 1) with
    | some d => s.respond r.mb Status.invalidField d []
    | none =>
      let back := if r.aux = [] then b else fit 33280 (r.aux.map (fun x => byte (ofSigned 8 x)))
      let s := s.emit (.eeprom b)
      if back ≠ b then
        { s with tongs := { s.tongs with eeprom := back, calFailed := true } }.refuse 0x0802 Status.calibrationDegraded r
      else ({ s with tongs := s.tongs.loadCal b }.reloadRegs).done r.mb []

def serveCalWrite : MbReq → State → State :=
  mbChecks 0x0802 (sized 16) (fun p => getLe p 8 4 ≤ 1 && zeroAt p 12 4) 1 calWriteBody

/-- CAL_WRITE (R425). -/
def execCalWrite (r : MbReq) (s : State) : Host.Outcome State Fault Refusal := .next (mbGo 0x0802 r serveCalWrite s)

/-! ## LANE_STATUS (R426, Table 14-14) -/

def Port.bytes (i : Nat) (p : Port) : Bytes :=
  [byte i, byte p.state, byte (p.rxSpare.getD 0xFF), byte (p.txSpare.getD 0xFF)] ++ leBytes 8 p.mapWord ++ leBytes 4 p.flitsLost.toNat
  ++ leBytes 4 p.framesLost.toNat ++ leBytes 4 p.slips.toNat ++ leBytes 4 p.swaps.toNat ++ leBytes 4 p.retrains.toNat
  ++ fit 26 (p.bip.flatMap (fun b => leBytes 2 b.toNat)) ++ zeros 2 ++ leBytes 4 p.lastRetrain.toNat

/-- The counters of a port cleared. -/
def Port.cleared (p : Port) : Port :=
  { p with flitsLost := 0, framesLost := 0, slips := 0, swaps := 0, retrains := 0, bip := List.replicate 13 0 }

def laneStatusBody (r : MbReq) (s : State) : State :=
  let b := [byte (b2n s.tongs.calFailed)] ++ zeros 7 ++ slice s.tongs.eeprom 0x10 8 ++ (s.tongs.ports.mapIdx Port.bytes).flatten
  (if r.flags = 1 then { s with tongs := { s.tongs with ports := s.tongs.ports.map Port.cleared } } else s).done r.mb b

def serveLaneStatus : MbReq → State → State := mbChecks 0x0803 (sized 0) (fun _ => true) 0 laneStatusBody

/-- LANE_STATUS (R426). -/
def execLaneStatus (r : MbReq) (s : State) : Host.Outcome State Fault Refusal := .next (mbGo 0x0803 r serveLaneStatus s)

/-! ## UNIT_CONTROL (R431) -/

/-- Units of a class that must stay in service; none where Table 15-1 gives no number. -/
def unitNeeded (cls : Nat) : Option Nat :=
  match cls with
  | 1 => some 48
  | 2 => some 16
  | 3 => some 20
  | 4 => some 60
  | 6 => some 1
  | 9 => some 8
  | _ => none

/-- A QUARANTINE would leave its class below the "Needed" column: all head ports and one servo port, the logical lanes of every port
(Table 15-1). -/
def State.neededUnit (s : State) (cls num : Nat) : Bool :=
  if (s.outUnits cls).contains num then false
  else if isSingleton cls then true
  else if cls = 7 then decide (num < 16) || !(s.port (33 - num)).up
  else if cls = 8 then
    let p := s.port (num / 16)
    p.map.contains (num % 16) && ((p.spareFor (num % 16)).isNone || p.swap.isSome)
  else match unitNeeded cls with
    | some n => decide (s.unitsIn cls ((unitCount cls).getD 0) ≤ n)
    | none => false

/-- The action applies to the class: TEST where Table 15-3 has a test, RETRAIN to Hearth channels and ports, SWAP to lanes (R431). -/
def actionApplies (cls action : Nat) : Bool :=
  if action = 2 then cls ≠ 7 else if action = 3 then cls = 7 || cls = 9 else if action = 4 then cls = 8 else true

/-- State byte of a unit (R431). -/
def State.unitState (s : State) (cls num : Nat) : Nat :=
  if (s.units.underTest).any (fun (u : UnitId) => u.cls = cls && u.num = num) then 1
  else if cls = 9 && (s.hearth.chan num).state = 3 then 3
  else if s.isQuarantined cls num || (cls = 7 && (s.port num).state = 4) then 2
  else 0

/-- A TEST of a unit: it is in service afterwards, or quarantined (R431, R435). `fails` is the test's outcome. -/
def State.testUnit (cls num : Nat) (fails : Bool) (s : State) : State :=
  if fails then failUnits [(cls, num)] s else s.returnUnit cls num

/-- UNIT_CONTROL's effect; `aux` names a failing TEST with a first element other than 0. -/
def unitControlBody (r : MbReq) (s : State) : State :=
  let p := mbData r
  let id := getLe p 0 4
  let cls := id / 2 ^ 24
  let num := id % 2 ^ 16
  let action := getLe p 4 1
  let reply := fun (s : State) => s.done r.mb [byte (s.unitState cls num)]
  if bitsOf id 16 8 ≠ 0 || !unitExists cls num then s.invalidOpen 0x0901 0 r
  else if !actionApplies cls action then s.invalidOpen 0x0901 1 r
  else if action = 1 then
    if s.neededUnit cls num then s.seqError r 1
    else reply (if (s.outUnits cls).contains num then s else s.quarantineUnit cls num)
  else if action = 2 then
    if cls = 9 && (s.hearth.chan num).state = 3 then reply s
    else if !s.testableNow cls num && !(s.outUnits cls).contains num then s.refuse 0x0901 Status.sequenceError r
    else
      let fails := decide (r.aux.headD 0 ≠ 0)
      let t := s.testUnit cls num fails
      t.done r.mb [byte (if fails then 3 else t.unitState cls num)]
  else if action = 3 then
    if cls = 9 then
      if (s.hearth.chan num).state = 3 || (s.hearth.chan num).state = 4 then s.refuse 0x0901 Status.sequenceError r
      else reply (s.modChan num HChan.schedule)
    else if (s.port num).up then reply (s.goDown num)
    else s.refuse 0x0901 Status.sequenceError r
  else
    let q := s.port (num / 16)
    match q.map.findIdx? (· = num % 16) with
    | some l => if q.up && (q.spareOf l).isSome && q.swap.isNone then reply (s.beginSwap (num / 16) l) else s.refuse 0x0901 Status.sequenceError r
    | none => s.refuse 0x0901 Status.sequenceError r

def serveUnitControl : MbReq → State → State :=
  mbChecks 0x0901 (sized 8) (fun p => 1 ≤ getLe p 4 1 && getLe p 4 1 ≤ 4 && zeroAt p 5 3) 0 unitControlBody

/-- UNIT_CONTROL (R431). -/
def execUnitControl (r : MbReq) (s : State) : Host.Outcome State Fault Refusal := .next (mbGo 0x0901 r serveUnitControl s)

end Sys2Proof.Machine
end

