-- ==== Sys2Proof/Machine/Boot.lean ====
section
/-! DEFINITION. Power-on reset and boot, clock and rail faults, thermal limits, the loss of a UCIe module (R276, R457, R470 to R476). -/

namespace Sys2Proof.Machine

/-! ## Power-on reset (R471) -/

/-- Every domain, field and volatile key at its reset value, the time counter too; pins are levels from outside, and the forwarded
references run while PWRGOOD is high (R471). The model's own bookkeeping goes on. -/
def State.cleared (pwrgood : Bool) (s : State) : State :=
  { State.reset with
    pending := s.pending, out := s.out, free := s.free, env := s.env,
    pins := { tamperLow := s.pins.tamperLow, pwrgood := pwrgood, refs := pwrgood } }

/-- Power-on reset (R471). -/
def execPowerOnReset (pwrgood : Bool) (s : State) : Host.Outcome State Fault Refusal := .next (s.cleared pwrgood)

/-! ## What boot reads (R472, R474, Table 13-3) -/

/-- A Hearth configuration record is valid (R474, Table 13-3). -/
def hearthRecordOk (b : Bytes) : Bool :=
  let rate := getLe b 4 1
  let density := getLe b 5 1
  let ranks := getLe b 6 1
  let grain := getLe b 7 1
  slice b 0 4 == ascii "HCFG" && getLe b 12 4 = (crc32c (slice b 0 12)).toNat
    && (rate = 48 || rate = 56 || rate = 64 || rate = 72 || rate = 80)
    && (density = 8 || density = 16 || density = 24 || density = 32) && (ranks = 1 || ranks = 2)
    && 8 ≤ grain && grain ≤ 16 && getLe b 8 1 ≤ 1 && zeroAt b 9 3

/-- The Hearth as a record configures it; without a valid record, boot's own setting with CRC zero (R474). -/
def Hearth.configure (a b : Bytes) (h : Hearth) : Hearth :=
  let use := fun (x : Bytes) => { h with
    rate := getLe x 4 1, density := getLe x 5 1, nranks := getLe x 6 1, grain := getLe x 7 1, mirror := getLe x 8 1 = 1,
    cfgCrc := BitVec.ofNat 32 (getLe x 12 4) }
  if hearthRecordOk a then use a
  else if hearthRecordOk b then use b
  else { h with rate := 48, density := 8, nranks := 1, grain := 12, mirror := false, cfgCrc := 0 }

/-- Sequence number and slot of a valid boot-slot record (R472). -/
def slotRecord (b : Bytes) : Option (Nat × Bool) :=
  if slice b 0 4 == ascii "BSLT" && getLe b 12 4 = (crc32c (slice b 0 12)).toNat && getLe b 8 1 ≤ 1 && zeroAt b 9 3 then
    some (getLe b 4 4, decide (getLe b 8 1 = 1))
  else none

/-- The boot slot that the records name: sequence number, slot, whether record B is in force; slot 0 where neither is valid (R472, log
57). -/
def chooseSlot (a b : Bytes) : Nat × Bool × Bool :=
  match slotRecord a, slotRecord b with
  | some x, some y => if x.1 < y.1 then (y.1, y.2, true) else (x.1, x.2, false)
  | some x, none => (x.1, x.2, false)
  | none, some y => (y.1, y.2, true)
  | none, none => (0, false, true)

/-! ## The stages of Table 16-10 -/

/-- Fuses, flash and identity as boot finds them. -/
def State.bootInputs (e : BootEnv) (s : State) : State :=
  let slot := chooseSlot e.slotA e.slotB
  let paired := e.pairing.isSome
  let peer := (e.pairing.map Prod.snd).getD []
  { s with
    pins := { s.pins with pwrgood := true, refs := true },
    glob := { s.glob with serial := Sys2Proof.fit 16 e.serial, deliverable := e.deliverable,
                          m0Up := e.m0, m1Up := e.m1, rate := e.rate, linkDegraded := !(e.m0 && e.m1) || decide (e.rate < 32) },
    hearth := s.hearth.configure e.hearthA e.hearthB,
    cart := { s.cart with barred := !hearthRecordOk e.hearthA && !hearthRecordOk e.hearthB },
    fw := { s.fw with slot0 := e.image0, slot1 := e.image1, floor := e.floor, bootSeq := BitVec.ofNat 32 slot.1, bootSlot := slot.2.1,
                      bootRecB := slot.2.2 },
    twin := { s.twin with
      paired := paired, peerSerial := Sys2Proof.fit 16 peer, peer := if paired then 0 else 3,
      die := if paired && !decide (beNat (Sys2Proof.fit 16 e.serial) < beNat (Sys2Proof.fit 16 peer)) then 1 else 0,
      role := if !paired then 0 else if beNat (Sys2Proof.fit 16 e.serial) < beNat (Sys2Proof.fit 16 peer) then 1 else 2 } }

/-- Boot stops with FATAL (R474). -/
def State.bootFail (s : State) : State := { s with glob := { s.glob with phase := .bootFailed } }.setFatal

/-- The image of the boot slot runs, or that of the other slot, which then is named the boot slot; none where both fail (R474). -/
def State.bootImage (c0 c1 : CertFacts) (s : State) : Option State :=
  let cert := fun (one : Bool) => if one then c1 else c0
  let run := fun (s : State) =>
    { s with fw := { s.fw with running := BitVec.ofNat 64 (fwVersion (s.fw.slot s.fw.bootSlot)), signed := true } }
  let other := !s.fw.bootSlot
  if (s.fwFault (cert s.fw.bootSlot) (s.fw.slot s.fw.bootSlot)).isNone then some (run s)
  else if (s.fwFault (cert other) (s.fw.slot other)).isNone then some (run (s.markSlot other))
  else none

/-- The security self-tests of the power-on set (R270, Table 09-8). -/
def State.bootTests (ok : Bool) (passed : List Nat) (s : State) : State :=
  let s := s.setPairs passed
  if ok && 60 ≤ s.sec.pairs.length then
    let s := s.passTests
    { s with sec := { s.sec with identity := !s.pins.tamperLow } }
  else s.secError

/-- Channels that trained, and the names the rotation table lists: channels, or pairs in mirror mode (R369, R388, R389). -/
def bootChannels (mirror : Bool) (trained : List Nat) : List Nat :=
  if mirror then (List.range 4).filter (fun k => trained.contains (2 * k) || trained.contains (2 * k + 1)) else trained

/-- State of a channel after boot's training (Table 13-14). -/
def bootChanState (mirror : Bool) (trained : List Nat) (c : Nat) : Nat :=
  if !trained.contains c then 4
  else if mirror && !trained.contains (if c % 2 = 0 then c + 1 else c - 1) then 5
  else 0

/-- DDR5 training and fill (R384, R388, R395); none where boot stops. -/
def State.bootHearth (chans : List ChanTraining) (s : State) : Option State :=
  let env := fun (c : Nat) => chans.getD c {}
  let trained := (List.range 8).filter (fun c => (env c).ok)
  let names := bootChannels s.hearth.mirror trained
  if trained.length < 4 || (s.hearth.mirror && names.length < 4) then none
  else some { s with hearth := { s.hearth with
    nwork := names.length, rot := rotTable names, mem := [], bad := [], used := [], filled := true,
    chans := s.hearth.chans.mapIdx (fun c (x : HChan) =>
      if (env c).ok then x.trained (env c).eyes s.nowSec (bootChanState s.hearth.mirror trained c) else { x with state := 4 }) } }

/-- Tongs training: maps set, the calibration set read where HP0 or HP8 is up, registers loaded, ports claimed by any die but a standby;
a port that is DOWN trains again (R417, R418, R420, R424). -/
def State.bootPorts (ports : List PortTraining) (eeprom : Bytes) (s : State) : State :=
  let s := { s with tongs := { s.tongs with ports := s.tongs.ports.mapIdx (fun i (p : Port) =>
    let t := ports.getD i {}
    p.trained i (t.aligned.map Fin.val) (t.failed.map Fin.val) (decide (s.twin.role ≠ 2))) } }
  let s := if s.eepromUp then { s with tongs := s.tongs.loadCal (Sys2Proof.fit 33280 eeprom) } else s
  (List.range 18).foldl (fun (s : State) i =>
    if (s.port i).up then s.modPort i (s.tongs.loadRegs s.fmt i)
    else s.retrain i) s

/-- READY = 1, ENABLED = 0; what boot found is posted: channels that were excluded, a degraded link (R276, R388, R473). -/
def State.bootReady (s : State) : State :=
  let s := { s with glob := { s.glob with phase := .running, ready := true, enabled := false } }
  let s := ((List.range 8).filter (fun c => ((s.hearth.chans[c]?).getD {}).state = 4)).foldl (fun (s : State) c => s.event 0x0403 c 0) s
  if s.glob.linkDegraded then s.event 0x0502 (b2n s.glob.m0Up + 2 * b2n s.glob.m1Up) s.glob.rate else s

/-- BOOT (R473, R474, Table 16-10): release of power-on reset up to READY, or to the failure that stops it. -/
def execBoot (e : BootEnv) (s : State) : Host.Outcome State Fault Refusal :=
  .next (if s.glob.phase ≠ .inReset then s
    else
      -- the reset holds every field until its release (R471)
      let s := (s.cleared true).bootInputs e
      match s.bootImage e.cert0 e.cert1 with
      | none => s.bootFail
      | some s =>
        let s := s.bootTests e.selftestOk (e.pairs.map Fin.val)
        match s.bootHearth e.chans with
        | none => s.bootFail
        | some s => (s.bootPorts e.ports e.eeprom).bootReady)

/-! ## Clocks, rails, temperature, the host link -/

/-- CLOCK_MONITOR_FAULT (R457). -/
def execClockMonitorFault (s : State) : Host.Outcome State Fault Refusal :=
  .next (if s.glob.phase = .inReset then s else s.stopFatal)

/-- RAIL_FAULT: a rail leaves its tolerance while PWRGOOD is high (R470). -/
def execRailFault (s : State) : Host.Outcome State Fault Refusal :=
  .next (if s.glob.phase = .inReset || !s.pins.pwrgood then s else s.stopFatal)

/-- A thermal trip at 115 °C: write gate off, writing ended as at a write abort, FATAL, ALERT_N (R476). -/
def State.thermalTrip (s : State) : State :=
  let s := { s with pvt := { s.pvt with trip := true } }
  if s.armedActive then s.stopFatal
  else (if s.forge.writing || (s.recsIn .sealed) ≠ [] then s.writeAbortAll else s).setFatal

/-- PVT_SAMPLE (R476): readings in units of 0.125 °C. -/
def execPvtSample (readings : List Int) (s : State) : Host.Outcome State Fault Refusal :=
  .next (match readings with
  | [] => s
  | r :: rest =>
    if s.glob.phase = .inReset then s
    else
      let t := rest.foldl max r
      let warm := s.pvt.armed && decide (800 ≤ t)
      let hot := !s.pvt.cap && decide (840 ≤ t)
      let s := { s with pvt := { s.pvt with
        temp := t, armed := if 800 ≤ t then false else s.pvt.armed || decide (t < 760),
        cap := decide (840 ≤ t) || (s.pvt.cap && decide (800 ≤ t)) } }
      let s := if warm then s.event 0x0409 (ofSigned 64 t) 0 else s
      let s := if hot then s.event 0x0409 (ofSigned 64 t) 0 else s
      if 920 ≤ t && !s.pvt.trip then s.thermalTrip else s)

/-- UCIE_MODULE_LOSS (R276): M0 (false) or M1 (true) can carry the link no longer; the other goes on alone. -/
def execUcieModuleLoss (module : Bool) (s : State) : Host.Outcome State Fault Refusal :=
  .next (if !(if module then s.glob.m1Up else s.glob.m0Up) then s
    else
      let m0 := s.glob.m0Up && module
      let m1 := s.glob.m1Up && !module
      let s := { s with glob := { s.glob with m0Up := m0, m1Up := m1 } }
      if m0 || m1 then { s with glob := { s.glob with linkDegraded := true } }.event 0x0502 (b2n m0 + 2 * b2n m1) s.glob.rate
      else s)

end Sys2Proof.Machine
end

