-- ==== Sys2Proof/Machine/Motion.lean ====
section
/-! DEFINITION. Motion reports and motion faults (R142, R167, R214, R294 to R296, Table 10-17). -/

namespace Sys2Proof.Machine

/-- Reserved fields of a report are zero and its state is defined (Table 10-17). -/
def reportOk (e : Bytes) : Bool := getLe e 2 1 ≤ 7 && getLe e 3 1 ≤ 1 && zeroAt e 16 8

/-- What a report says, kept; requests up to its sequence number are acted on (R294). -/
def Motion.take (e : Bytes) (m : Motion) : Motion :=
  let n := getLe e 0 2
  { m with
    owed := m.owed.filter (fun x => 32768 ≤ (n + 65536 - x.toNat) % 65536)
    state := getLe e 2 1, dir := decide (getLe e 3 1 = 1), vel := toSigned 32 (getLe e 4 4), lpos := toSigned 64 (getLe e 8 8), fault := false }

/-- A report is consumed: the position behind it, and SQ_HEAD once half of the motion SQ has been consumed since the last request
(R296). -/
def State.consumeReport (q : Nat) (p : Pair) (s : State) : State :=
  let s := s.modPair q (fun (x : Pair) => { x with sqFetch := (x.sqFetch + 1) % 2 ^ x.sqLog })
  let s := { s with motion := { s.motion with consumed := s.motion.consumed + 1 } }
  if 2 ^ p.sqLog ≤ 2 * s.motion.consumed then s.motionReq { kind := 6 } else s

/-- At the target of a LOCATE the tape is run for whoever writes or reads (R142, R214). -/
def State.runAtTarget (s : State) : State :=
  if s.motion.state = 2 && s.motion.owed = [] && s.motion.held = [] && (s.forge.writing || s.rd.reading) then
    s.runTape (decide (s.heat.wrap % 2 = 1))
  else s

/-- The first STREAMING after a RUN or TURNAROUND: SPEED_CUR is the level it was posted at; lanes that begin to read or verify enter
ACQUIRE (R142, R167). -/
def State.firstStreaming (s : State) : State :=
  match s.motion.runLevel with
  | some (n, v) =>
    if s.motion.state = 4 && !s.motion.owed.contains n then
      let s := { s with motion := { s.motion with runLevel := none }, blw := { s.blw with speedCur := v } }
      if s.forge.writing && s.heat.first then s.lanesAcquire
      else if s.rd.reading && !s.rd.streaming then { s with rd := { s.rd with streaming := true } }.lanesAcquire
      else s
    else s
  | none => s

/-- A motion fault: MOTION_FAULT posted, the commands that wait on the motion ended with MOTION FAULT (R294). -/
def State.motionFault (s : State) : State :=
  let seq := s.motion.owed.headD (s.motion.nextSeq - 1)
  let s := { s with motion := { s.motion with owed := [], fault := true } }
  (s.event 0x0304 seq.toNat s.motion.state).failTape Status.motionFault

/-- A consumed report takes effect; a report of FAULT is a motion fault (log 54). -/
def State.takeReport (e : Bytes) (s : State) : State :=
  let s := { s with motion := s.motion.take e }
  if s.motion.state = 6 then s.motionFault
  else
    let moves := s.motion.state = 3 || s.motion.state = 4 || s.motion.state = 5
    let s := { s with rd := { s.rd with streaming := s.rd.streaming && moves } }
    (s.firstStreaming).runAtTarget

/-- MOTION_REPORT (R296): the next report that a doorbell covers is consumed, one with a reserved field that is not zero is ignored and
counted. -/
def execMotionReport (e : Bytes) (s : State) : Host.Outcome State Fault Refusal :=
  .next (match s.motionPair with
    | none => s
    | some q => match s.pair? q with
      | none => s
      | some p =>
        if p.sqFetch = p.sqTail || p.error then s
        else
          let e := fit 32 e
          let s := (s.journal 0x08 0 e).consumeReport q p
          if reportOk e then s.takeReport e else s.countError)

/-- The last report shows a moving state (R294). -/
def Motion.moving (m : Motion) : Bool := m.state = 1 || m.state = 3 || m.state = 4 || m.state = 5

/-- MOTION_FAULT (R294): a request went 10 ms without a report, or a moving tape did. -/
def execMotionFault (s : State) : Host.Outcome State Fault Refusal :=
  .next (if s.motion.owed ≠ [] || (s.motion.moving && !s.motion.fault) then s.motionFault else s)

end Sys2Proof.Machine
end

