-- ==== Sys2Proof/Machine/Twin.lean ====
section
/-! DEFINITION. The twin configuration: pairing, the mirror as a standby keeps it, heartbeats, silence, takeover, the exchange of roles
(R333, R417, R438 to R446). -/

namespace Sys2Proof.Machine

/-! ## M2 -/

/-- A message received over M2 is journalled: its header, which the spec does not lay out, and a CRC over it (Table 15-9, log 20). -/
def State.peerIn (s : State) : State :=
  (s.journal 0x0C 0 (leBytes 16 (Config.linkHeader s.free).toNat ++ leBytes 4 (Config.linkHeader (s.free + 1)).toNat)).drew.drew

/-- HEARTBEAT (R439, Table 15-4): every 100 µs on a paired die whose M2 is up; the engine is gated in P3 (Table 16-2). -/
def execHeartbeat (s : State) : Host.Outcome State Fault Refusal :=
  .next (if s.twin.paired && s.twin.m2Up && s.pwr.state ≠ 3 then
      { s with twin := { s.twin with beats := s.twin.beats + 1 } }.emit .heartbeat
    else s)

/-! ## The sync copy (R439) -/

/-- EVQ_CONFIG as a word (Table 10-5). -/
def EvQueue.configWord (e : EvQueue) : BitVec 32 := BitVec.ofNat 32 (b2n e.enable * 2 ^ 31 + e.log2.toNat)

/-- A pair as the QP_CREATE that makes it (Table 10-8). -/
def Pair.payload (q : Nat) (p : Pair) : Bytes :=
  [byte q, byte p.rev, byte (b2n p.motion), byte (b2n p.urgent), byte p.weight, byte p.sqLog, byte p.cqLog, byte p.coCount]
  ++ leBytes 8 p.sqBase.toNat ++ leBytes 8 p.cqBase.toNat ++ leBytes 2 p.coTime ++ zeros 6

/-- Items that copy one record: its number, its staged extents, its state. -/
def State.copyRec (s : State) (x : Rec) : List MirrorItem :=
  let head := if x.mark then [MirrorItem.mark x.num x.pair x.openTime]
    else [MirrorItem.opened x.num x.pair x.slot x.encrypted x.shared x.setting x.openTime]
  let data := x.extents.map (fun e => MirrorItem.payload x.num e.1 (s.hearth.stageRead x.chunks e.1 (e.2 - e.1)))
  head ++ data ++ (if x.state = .sealed && !x.mark then [.sealed x.num x.len] else [])

/-- What the active copies to a standby that begins SYNCING (R439). -/
def State.syncCopy (s : State) : List MirrorItem :=
  let pairs := (List.range 256).flatMap (fun q => match s.pair? q with
    | some p => [MirrorItem.qpCreate (p.payload q), .pairAt q p.sqFetch p.cqTail p.cqHead p.cqPhase]
    | none => [])
  let image := if s.cart.loaded then [MirrorItem.image s.cart.image.bytes] else []
  [MirrorItem.evq s.evq.base s.evq.configWord s.evq.tail s.evq.phase] ++ pairs ++ s.params.accepted.map (fun e => MirrorItem.param e.1 e.2)
  ++ image ++ (s.recs.recs.filter (fun x => x.state = .opened || x.state = .sealed)).flatMap s.copyRec
  ++ s.recs.cmds.map (fun c => MirrorItem.entry c.pair c.arrival c.entry)
  ++ s.forge.billets.map (fun b => MirrorItem.descriptor (b.desc (s.forge.shortTrains.contains b.train) ((assocGet s.forge.block b.serial).getD [])))

/-- M2_TRAINING_COMPLETE (R439): a paired die hears its peer. `owned` says that the peer owns the ports, `copyMib` what is to be copied. -/
def execM2TrainingComplete (rate : Nat) (owned : Bool) (copyMib : BitVec 32) (s : State) : Host.Outcome State Fault Refusal :=
  .next (if !s.twin.paired || !s.glob.ready || s.twin.m2Up then s
    else
      let role : BitVec 2 := if owned then 2 else if s.twin.role = 0 then 1 else s.twin.role
      let s := { s with twin := { s.twin with m2Up := true, m2Rate := rate, peer := 1, toCopy := copyMib.toNat, role := role, slotsMatch := false } }
      if role = 1 then s.syncCopy.foldl (fun s m => s.emit (.peer m)) s else s)

/-- TWIN_ARMED (R439): the copy is complete; the standby is ARMED where every slot matches. -/
def execTwinArmed (slotsMatch : Bool) (s : State) : Host.Outcome State Fault Refusal :=
  .next (if s.twin.m2Up && s.twin.peer = 1 then
      { s with twin := { s.twin with slotsMatch := slotsMatch, toCopy := 0, peer := if slotsMatch then 2 else 1 } }
    else s)

/-! ## Mirror items on the standby (Table 15-4) -/

/-- The billet of a packing descriptor. -/
def billetOfDesc (d : PackDesc) : Billet :=
  { serial := d.serial, train := d.train, ingot := d.ingot, pos := d.pos, group := d.group, parity := d.parity, session := d.session,
    firstRec := d.firstRec, firstCu := d.firstCu, resume := d.resume, cont := d.cont, early := d.early, descs := d.descs, used := d.used,
    recs := d.recs, cls := d.cls, firstDesc := d.firstDesc, trailers := d.trailers, wrap := d.wrap }

/-- A descriptor: the billet is kept, its records know it. -/
def State.takeDesc (d : PackDesc) (s : State) : State :=
  let old := s.forge.billets.filter (fun (b : Billet) => !(b.serial = d.serial && b.cls = d.cls))
  { s with
    forge := { s.forge with
      billets := old ++ [billetOfDesc d],
      block := if d.cls = 0 then s.forge.block else s.forge.block.filter (fun e => e.1 ≠ d.serial) ++ [(d.serial, d.payload)],
      shortTrains := if d.short && !s.forge.shortTrains.contains d.train then d.train :: s.forge.shortTrains else s.forge.shortTrains },
    recs := { s.recs with recs := s.recs.recs.map (fun (y : Rec) =>
      let y := if d.recs.contains y.num then { y with billets := y.billets ++ [d.serial] } else y
      if d.trailers.contains y.num then { y with packed := true, train := some d.train } else y) } }

/-- A formed heat and the forming record behind it. -/
def State.takeForming (f : FormRec) (s : State) : State :=
  let x : FormedHeat := { train := f.train, t := f.t, serials := f.serials, parity := f.parity, cls := f.cls }
  { s with
    forge := { s.forge with
      formed := s.forge.formed ++ [x], nextSerial := f.nextSerial, train := f.nextTrain, t := f.nextT, tc := f.tc, closing := f.closing,
      lastPacked := f.lastPacked, pos := f.pos.map (fun p => { num := p.1, part := p.2.1, cu := p.2.2.1, off := p.2.2.2 }),
      shortTrains := if f.short && !s.forge.shortTrains.contains f.nextTrain then f.nextTrain :: s.forge.shortTrains else s.forge.shortTrains },
    heat := { s.heat with drain := f.drain },
    recs := { s.recs with sealQ := f.queue.map (fun k => if k % 2 = 0 then SealItem.record (k / 2) else .closeMark (k / 2)) } }

/-- A heat record: where the active writes, what its billets' home heat is, the ledger's notes; the standby's lanes begin to verify with
the first (R441). -/
def State.takeHeat (wrap h kind : Nat) (serials retired : List Nat) (s : State) : State :=
  let first := !s.twin.peerWrites
  let s := { s with twin := { s.twin with peerWrites := true },
                    heat := { s.heat with wrap := wrap, h := h, map := if s.heat.wrap = wrap && !first then s.heat.map else (s.cart.image.mapAt wrap).map } }
  let s := if first then s.lanesAcquire else s
  let s := retireAll (retired.filter (fun p => !s.heat.retired.contains p)) s
  let s := match s.forge.formed.find? (fun x => x.serials = serials) with
    | some x =>
      let s := s.setHome x h
      let s := { s with forge := { s.forge with formed := s.forge.formed.filter (fun y => y ≠ x) } }
      let bs := s.forge.billets.filter (fun (b : Billet) => b.cls = x.cls && x.serials.contains b.serial)
      if x.cls = 0 then (if x.parity then s.noteTrainEnd x bs else s.noteBillets bs) else s
    | none => s
  s.noteHeat (kind = 2) 0

/-- A number given by OPEN or MARK. -/
def State.takeOpened (x : Rec) (s : State) : State :=
  let s := s.addRec x
  { s with recs := { s.recs with next := max s.recs.next (x.num + 1), startSet := none } }

/-- SEGMENT WRITE payload goes to the standby's own staging (requester 0x06). -/
def State.takePayload (r off : Nat) (b : Bytes) (s : State) : State :=
  match s.rec? r with
  | none => s
  | some x =>
    let s := allocate r (s.hearth.lacking x.chunks off (off + b.length)) s
    let chunks := ((s.rec? r).map (·.chunks)).getD []
    let whole := ((s.hearth.bursts chunks off (off + b.length)).filter (·.2)).map (fun e => e.1 / 64)
    let h := { s.hearth with bad := s.hearth.bad.filter (fun e => !whole.contains e) }
    let s := { s with hearth := h.stageWrite chunks off b }
    s.modRec r (fun x => { x with extents := addExtent off (off + b.length) x.extents })

/-- A SEAL: length, digest buffer of a revision-3 pair, place in the seal order. -/
def State.takeSealed (r len : Nat) (s : State) : State :=
  let dig := match s.recs.cmds.find? (fun c => c.op = 0x04 && c.num = r) with
    | some c => (match s.pair? c.pair with
      | some p => if p.rev = 3 then BitVec.ofNat 64 c.digest else 0
      | none => 0)
    | none => 0
  let s := s.modRec r (fun x => { x with state := .sealed, len := len, digestAddr := dig })
  { s with recs := { s.recs with sealQ := insertSeal (.record r) s.recs.sealQ } }

/-- A ledger image: the first one is the cartridge loaded. -/
def State.takeImage (b : Bytes) (s : State) : State :=
  let m := parseImage b
  let s := if s.cart.loaded then s else s.loadCart m false
  { s with cart := { s.cart with
      image := m, issued := (m :: s.cart.issued.filter (fun x => x.seq ≠ m.seq)).take 8, lastIssued := some m.seq, changed := false,
      searchPending := s.cart.searchPending && !m.eodValid, eodChecked := s.cart.eodChecked || m.eodValid,
      appendPos := if m.eodValid then m.eodPos else s.cart.appendPos } }

/-- The event ring after one more entry (R283). -/
def EvQueue.advance (e : EvQueue) : EvQueue :=
  let t := (e.tail + 1) % e.size
  { e with tail := t, phase := if t = 0 then !e.phase else e.phase }

/-- Doubt about the oldest event of a code and argument is gone. -/
def dropEvent (code : BitVec 16) (a : Nat) : List MirrorItem → List MirrorItem
  | [] => []
  | m :: r => match m with
    | .event c _ x _ => if c = code && x = a then r else m :: dropEvent code a r
    | _ => m :: dropEvent code a r

/-- Doubt about a completion is gone. -/
def dropCompletion (q tag : Nat) (l : List MirrorItem) : List MirrorItem :=
  l.filter (fun m => match m with
    | .completion p t _ _ _ => !(p = q && t = tag)
    | _ => true)

/-- A deferred error as the standby notes it (R319, R351). -/
def State.takeDeferred (r q : Nat) (st : BitVec 16) (s : State) : State :=
  let s := s.modRec r (fun x => { x with
    deferred := st, terminal := x.terminal || terminalStatus st, gotUnverified := x.gotUnverified || decide (st = Status.unverifiedWrite),
    digestFailed := x.digestFailed || decide (st = Status.dataTransferError) })
  let e : DeferredEntry := { num := r, pair := q, status := st }
  let s := { s with recs := { s.recs with deferred := if s.recs.deferred.length < 65536 then s.recs.deferred ++ [e] else s.recs.deferred,
                                          deferredCount := s.recs.deferredCount + 1 } }
  if terminalStatus st then s.endRec r .discarded else s

/-- One item in doubt more. -/
def State.doubt (m : MirrorItem) (s : State) : State := { s with twin := { s.twin with doubt := s.twin.doubt ++ [m] } }

/-- A record that OPEN gave a number to, from what the mirror and this die's own key slot say (R259, R268). -/
def State.mirroredRec (s : State) (r pair slot : Nat) (enc shared : Bool) (setting : BitVec 8) (time : BitVec 32) : Rec :=
  let k := (s.sec.slots[slot]?).bind (fun (x : KeySlot) => x.cur)
  { num := r, state := .opened, pair := pair, shared := shared, encrypted := enc, slot := slot,
    gen := if enc then (k.map (fun (g : KeyGen) => g.gen)).getD 0 else 0,
    label := if enc then (k.map (fun (g : KeyGen) => g.label)).getD (zeros 8) else zeros 8, setting := setting, openTime := time }

/-- What one item changes on the standby (Table 15-4). -/
def State.takeItem (m : MirrorItem) (s : State) : State :=
  match m with
  | .entry q n e =>
    let s := { s with arb := { s.arb with nextGrant := n + 1 } }.modPair q Pair.advanceSq
    let c := cmdOf q n e [] true
    if (s.cmd? q c.tag).isSome || c.op = 0 || 0x0B < c.op then s else s.joinCmd c
  | .payload r off b => s.takePayload r off b
  | .opened r pair slot enc shared setting time =>
    let x := s.mirroredRec r pair slot enc shared setting time
    let s := s.takeOpened x
    if enc then s.useKey slot x.gen else s
  | .sealed r len => s.takeSealed r len
  | .mark r pair time =>
    let s := s.takeOpened { num := r, state := .sealed, pair := pair, mark := true, openTime := time }
    { s with recs := { s.recs with sealQ := insertSeal (.record r) s.recs.sealQ } }
  | .abandon r => s.endRec r .abandoned
  | .descriptor d => s.takeDesc d
  | .forming f => s.takeForming f
  | .digest r i c crc rawCrc engine => s.modRec r (fun x =>
      let cu : CuForm := { idx := i, c := c, crc := crc, rawCrc := rawCrc, engine := engine }
      { x with cus := x.cus.filter (fun y => y.idx ≠ i) ++ [cu] })
  | .heat wrap h kind serials retired _ => s.takeHeat wrap h kind serials retired
  | .ended =>
    let s := (s.clearForge)
    { s with twin := { s.twin with peerWrites := false, verdicts := [], passes := [], fails := [] },
             cart := { s.cart with searchPending := !s.cart.image.eodValid } }
  | .verdict cls serial j pass crc => s.keepVerdict { mine := false, cls := cls, serial := serial, j := j, pass := pass, crc := crc }
  | .completion .. => s.doubt m
  | .written q tag =>
    let s := { s with twin := { s.twin with doubt := dropCompletion q tag s.twin.doubt } }.modPair q Pair.advanceCq
    s.dropCmd q tag
  | .deferred r q st => s.takeDeferred r q st
  | .event .. => s.doubt m
  | .posted code a =>
    let s := if code = 1 then { s with recs := { s.recs with deferred := s.recs.deferred.map (fun (d : DeferredEntry) =>
        if d.num = a then { d with posted := true } else d) } } else s
    { s with twin := { s.twin with doubt := dropEvent code a s.twin.doubt }, evq := s.evq.advance }
  | .image b => s.takeImage b
  | .stored seq => { s with cart := { s.cart with lastStored := some (max seq (s.cart.lastStored.getD 0)) } }
  | .unloaded => { s with cart := { s.cart with loaded := false }, recs := { s.recs with recs := [], sealQ := [], startSet := none } }
  | .param id v => s.acceptParam (id, v)
  | .qpCreate p => s.createPair p
  | .qpDelete q => { s with pairs := modAt s.pairs q (fun _ => none), recs := { s.recs with cmds := s.recs.cmds.filter (fun c => c.pair ≠ q) } }
  | .pairAt q f t h ph => s.modPair q (fun (p : Pair) => { p with sqFetch := f, cqTail := t, cqHead := h, cqPhase := ph })
  | .evq base config tail ph =>
    { s with evq := { s.evq with base := base, baseWritten := true, enable := config.getLsbD 31, log2 := BitVec.ofNat 5 config.toNat,
                                 tail := tail, head := tail, phase := ph } }

/-- MIRROR_ITEM (R440): a standby takes an item and confirms it. -/
def execMirrorItem (m : MirrorItem) (s : State) : Host.Outcome State Fault Refusal :=
  .next (if s.twin.role = 2 && s.twin.m2Up && (s.twin.peer = 1 || s.twin.peer = 2) then ((s.peerIn).takeItem m).emit .confirm else s)

/-! ## Silence, faults and takeover (R417, R439, R442, R443) -/

/-- CLAIM goes out on every port (R417). -/
def State.claimPorts (s : State) : State :=
  { s with tongs := { s.tongs with ports := s.tongs.ports.map (fun (p : Port) => { p with claim := true, release := false }) } }

/-- PEER_SILENT_AT_BOOT (R439): die 1 claims every port and runs as active. -/
def execPeerSilentAtBoot (s : State) : Host.Outcome State Fault Refusal :=
  .next (if s.glob.ready && s.twin.paired && s.twin.die = 1 && s.twin.role = 2 && !s.twin.m2Up then
      { s with twin := { s.twin with role := 1, peer := 0 } }.claimPorts
    else s)

/-- A takeover begins: the standby's servo unit asserts Quench, CLAIM goes out (Table 15-5). Only an ARMED standby takes over (R439). -/
def State.beginTakeover (s : State) : State :=
  if s.twin.peer = 2 then
    { s with twin := { s.twin with claiming := true, handed := false, m2Up := false },
             heat := { s.heat with quench := s.twin.peerWrites, gate := false } }.claimPorts
  else { s with twin := { s.twin with peer := 0, m2Up := false } }

/-- Verdicts of this die that waited for the standby's take effect alone (R441). -/
def settleOwn : List (Nat × Frame) → State → State
  | [], s => s
  | (p, x) :: r, s => settleOwn r (match x.own with
    | some v => s.applyVerdict p x v
    | none => s)

/-- The active goes on as a single formatter: PEER_LINK_DOWN, no standby, a TWIN_SWAP under way rejected (R442, R445). -/
def State.losePeer (s : State) : State :=
  let waiting := (List.range 1024).flatMap (fun p => ((s.chan p).hold.filter (fun x => x.own.isSome)).map (fun x => (p, x)))
  let m := s.twin.swap
  let s := { s with twin := { s.twin with peer := 0, m2Up := false, slotsMatch := false, swap := none } }.event 0x0407 0 0
  settleOwn waiting (answerMb m Status.sequenceError (openDetail 0x0903 Status.sequenceError.toNat) s)

/-- M2_SILENCE (R442): 1 ms without traffic on M2. -/
def execM2Silence (s : State) : Host.Outcome State Fault Refusal :=
  .next (if !s.twin.m2Up then s
    else if s.twin.role = 2 then s.beginTakeover
    else s.losePeer)

/-- PEER_FAULT (R442): FAULT from the active. -/
def execPeerFault (s : State) : Host.Outcome State Fault Refusal :=
  .next (if s.twin.m2Up && s.twin.role = 2 then (s.peerIn).beginTakeover else s)

/-- HANDOVER (R445): the standby claims the ports, without Quench. -/
def execHandover (s : State) : Host.Outcome State Fault Refusal :=
  .next (if s.twin.m2Up && s.twin.role = 2 && s.twin.peer = 2 then
      let s := s.peerIn
      { s with twin := { s.twin with claiming := true, handed := true } }.claimPorts
    else s)

/-- CLAIM_REFUSED_TIMEOUT (R442): the takeover is abandoned, the standby DETACHED. -/
def execClaimRefusedTimeout (s : State) : Host.Outcome State Fault Refusal :=
  .next (if !s.twin.claiming then s
    else
      { s with
        twin := { s.twin with claiming := false, handed := false, peer := 0, m2Up := false },
        heat := { s.heat with quench := false },
        tongs := { s.tongs with ports := s.tongs.ports.map (fun (p : Port) => { p with claim := false }) } }.event 0x0407 0 0)

/-- Frames without two PASS verdicts, oldest last, with their attempt numbers: REFORM puts each in front of its write list (R443). -/
def State.owedFrames (s : State) : List Frame :=
  (s.forge.billets.flatMap (fun (b : Billet) => (List.range 126).filterMap (fun j =>
    if s.twin.passes.contains (b.cls, b.serial, j) then none
    else
      let k := (s.twin.fails.filter (fun x => x = (b.cls, b.serial, j))).length
      some { serial := b.serial, j := j, l := chanOf s.fmt b.group j, word := [], cls := b.cls, parity := b.parity,
             short := s.forge.shortTrains.contains b.train, present := 0, attempt := min 3 k, home := b.home : Frame }))).reverse

/-- The writing of the failed die goes on here: owed frames to be re-formed, accumulators to be rebuilt, the heat position taken from
LPOS, in the same session (R443). -/
def State.resumeWriting (s : State) : State :=
  let left := positionsLeft s.fmt s.heat.wrap s.servo.lpos
  { s with
    forge := { s.forge with writing := true, ending := false, reforms := s.owedFrames, rebuild := true },
    heat := { s.heat with h := max (s.heat.h + 1) (fmtHeats s.fmt - left), left := left, kind := .none, first := false },
    rd := { s.rd with reading := false, streaming := false },
    cart := { s.cart with sessionBegun := true },
    motion := { s.motion with state := 4 } }

/-- The last image of a session that is open and not yet known stored: the takeover waits for it. -/
def State.awaitedImage (s : State) : Option Nat :=
  let known := match s.cart.lastStored with
    | some n => decide (s.cart.image.seq ≤ n)
    | none => false
  if s.cart.image.sessionOpen && !known then some s.cart.image.seq else none

/-- TWIN_TAKEOVER (R443, R444): every port has honoured the claim. -/
def execTwinTakeover (s : State) : Host.Outcome State Fault Refusal :=
  .next (if !s.twin.claiming then s
    else
      let writes := s.twin.peerWrites
      let doubtful := !s.twin.handed
      let s := { s with
        tongs := { s.tongs with ports := s.tongs.ports.map (fun (p : Port) => { p with claim := false, owner := true, gate := false, acc := 0 }) },
        pairs := s.pairs.map (Option.map (fun (p : Pair) => { p with awaitDoorbell := true })),
        recs := { s.recs with cmds := s.recs.cmds.map (fun (c : Cmd) => { c with inDoubt := doubtful }) },
        pins := { s.pins with spdReq := s.blw.speedCur },
        cart := { s.cart with waitStored := if writes then none else s.awaitedImage } }
      let s := if writes then s.resumeWriting else s
      { s with twin := { s.twin with
          role := 1, peer := if doubtful then 0 else 1, claiming := false, handed := false, takeovers := satAdd 32 s.twin.takeovers 1,
          lastTakeover := s.now, replayDue := true, peerWrites := false, verdicts := [], passes := [], fails := [] } }.event
        0x0408 s.heat.h s.heat.wrap)

/-- Images whose LEDGER_STORED report has not come, oldest first (R444). -/
def State.unstored (s : State) : List LedgerImage :=
  (s.cart.issued.filter (fun m => match s.cart.lastStored with
    | some n => decide (n < m.seq)
    | none => true)).reverse

/-- A completion or event in doubt is posted with REPLAYED set (R333, R444); LEDGER_ISSUED is posted for every image not stored. -/
def State.replay (m : MirrorItem) (s : State) : State :=
  match m with
  | .completion q tag st res ext =>
    let ctx := match s.cmd? q tag with
      | some c => BitVec.ofNat 32 (getLe c.entry 4 4)
      | none => 0
    s.writeCompletion q tag ctx st res ext true
  | .event code st a b => if code = 0x0303 then s else s.postEvent { code := code, status := st, a := a, b := b, replayed := true, time := s.now }
  | _ => s

/-- REPLAYED_COMPLETIONS (R333, R444). -/
def execReplayedCompletions (s : State) : Host.Outcome State Fault Refusal :=
  .next (if !s.twin.replayDue then s
    else
      let items := s.twin.doubt
      let s := { s with twin := { s.twin with replayDue := false, doubt := [] } }
      let s := items.foldl (fun s m => s.replay m) s
      s.unstored.foldl (fun s m => s.postEvent { code := 0x0303, a := m.seq, b := m.seq % 8, replayed := true, time := s.now }) s)

/-! ## TWIN_PAIR, TWIN_SWAP, TWIN_STATUS (R438, R445, R446) -/

/-- Die 0 is the die with the lower serial (R438). -/
def dieOf (own peer : Bytes) : Nat := if beNat (fit 16 own) < beNat (fit 16 peer) then 0 else 1

/-- `aux` is what the exchange over M2 finds: nothing or 0 where every check holds, else the detail of the first that fails. -/
def twinPairBody (r : MbReq) (s : State) : State :=
  let p := mbData r
  let peer := slice p 0 16
  let found := (r.aux.headD 0).toNat
  if getLe p 16 4 = 1 then
    ({ s with twin := { s.twin with paired := false, peerSerial := zeros 16, peer := 3, m2Up := false, slotsMatch := false } }.emit
      (.flash 0x4000 (List.replicate 4096 0xFF))).done r.mb []
  else if 1 ≤ found && found ≤ 5 then s.seqError r found
  else
    ({ s with twin := { s.twin with paired := true, peerSerial := peer, die := dieOf s.glob.serial peer, peer := 0 } }.emit
      (.flash 0x4000 (fit 16 s.glob.serial ++ peer))).done r.mb []

def serveTwinPair : MbReq → State → State := mbChecks 0x0902 (sized 24) (fun p => getLe p 16 4 ≤ 1 && zeroAt p 20 4) 1 twinPairBody

/-- TWIN_PAIR (R438). -/
def execTwinPair (r : MbReq) (s : State) : Host.Outcome State Fault Refusal := .next (mbGo 0x0902 r serveTwinPair s)

def twinSwapBody (r : MbReq) (s : State) : State :=
  if !s.armedActive || s.twin.swap.isSome then s.refuse 0x0903 Status.sequenceError r
  else if s.forge.writing then { s with twin := { s.twin with swap := some r.mb } }
  else s.handOver r.mb

def serveTwinSwap : MbReq → State → State := mbChecks 0x0903 (sized 0) (fun _ => true) 1 twinSwapBody

/-- TWIN_SWAP (R445): while writing, the roles change at the next heat boundary. -/
def execTwinSwap (r : MbReq) (s : State) : Host.Outcome State Fault Refusal := .next (mbGo 0x0903 r serveTwinSwap s)

/-- The 64-byte record (Table 15-6). -/
def Twin.bytes (t : Twin) : Bytes :=
  [byte t.role.toNat, byte t.peer, byte t.die, byte (b2n t.slotsMatch + 2 * b2n t.m2Up + 4 * b2n t.paired + 8 * b2n t.swap.isSome)]
  ++ leBytes 4 t.toCopy ++ fit 16 t.peerSerial ++ leBytes 4 t.disagreements.toNat ++ leBytes 4 t.takeovers.toNat ++ leBytes 4 t.swaps.toNat
  ++ leBytes 4 t.resends.toNat ++ leBytes 8 t.lastTakeover.toNat ++ leBytes 8 (t.m2Rate % 256) ++ zeros 8

def twinStatusBody (r : MbReq) (s : State) : State := s.done r.mb s.twin.bytes

def serveTwinStatus : MbReq → State → State := mbChecks 0x0904 (sized 0) (fun _ => true) 0 twinStatusBody

/-- TWIN_STATUS (R446). -/
def execTwinStatus (r : MbReq) (s : State) : Host.Outcome State Fault Refusal := .next (mbGo 0x0904 r serveTwinStatus s)

end Sys2Proof.Machine
end

