-- ==== Sys2Proof/Machine/Replay.lean ====
section
/-! DEFINITION. The journal's control registers, its markers, snapshots read by the host, bench mode (R447, R450 to R453). -/

namespace Sys2Proof.Machine

/-! ## Triggers and freezing (R450) -/

/-- JNL_TRIGGER written (R450). -/
def execJnlTrigger (s : State) : Host.Outcome State Fault Refusal := .next (s.linkIn.trigger 5)

/-- A freeze ends; a record that was being gathered begins anew. -/
def State.unfreeze (s : State) : State := { s with jnl := { s.jnl with frozen := false, gather := [] } }

/-- JNL_RESUME written (R450). -/
def execJnlResume (s : State) : Host.Outcome State Fault Refusal := .next s.linkIn.unfreeze

/-- The rings have recorded SNAP_POST of their length after a trigger; FREEZE stops the rings and the journal (R450). -/
def execSnapPostEnd (s : State) : Host.Outcome State Fault Refusal :=
  .next (if s.jnl.post then { s with jnl := { s.jnl with post := false, frozen := s.jnl.control.getLsbD 1 } } else s)

/-- The MARKER entry of every 1 ms (R447, Table 15-9). -/
def execJournalMarker (s : State) : Host.Outcome State Fault Refusal := .next s.marker

/-! ## SNAPSHOT_READ (R451) -/

/-- Units of 16 bytes of an entry, its header included (Table 15-8). -/
def JnlEntry.units (e : JnlEntry) : Nat := 1 + cdiv e.payload.length 16

/-- An entry as it lies in the region (Table 15-8). -/
def JnlEntry.bytes (e : JnlEntry) : Bytes :=
  let len := if e.units ≤ 255 then byte e.units else Config.entryLength e.seq
  [byte e.type, len] ++ leBytes 2 e.source ++ leBytes 4 e.seq ++ leBytes 8 e.time.toNat ++ fit (16 * (e.units - 1)) e.payload

/-- Bytes `[o, o + b.length)` of a region over a range that begins at `base`: what falls inside the range is overwritten. -/
def overlay (base : Nat) (range : Bytes) (o : Nat) (b : Bytes) : Bytes :=
  if o + b.length ≤ base || base + range.length ≤ o then range
  else if base ≤ o then (putAt range (o - base) b).take range.length
  else putAt range 0 ((b.drop (base - o)).take range.length)

/-- The pieces of a region, oldest first: 0 the journal, 1 and 2 the rings. -/
def Journal.pieces (j : Journal) (region : Nat) : List (Nat × Bytes) :=
  if region = 0 then (j.entries.map (fun e => (e.off, e.bytes))).reverse
  else ((j.rings.filter (fun e => e.1 + 1 = region)).map (fun e => e.2)).reverse

/-- A range of a region of the snapshot store; bytes that nothing has written are zero (R395). -/
def Journal.readRange (j : Journal) (region o n : Nat) : Bytes :=
  (j.pieces region).foldl (fun r p => overlay o r p.1 p.2) (zeros n)

def snapshotReadBody (r : MbReq) (s : State) : State :=
  let p := mbData r
  let o := getLe p 8 8
  let n := getLe p 16 4
  if n % 16 ≠ 0 || 64 * mib < n then s.invalidOpen 0x0906 0 r
  else if journalBytes < o + n then s.invalidOpen 0x0906 1 r
  else if !r.io.ok then s.refuse 0x0906 Status.dataTransferError r
  else (s.emit (.dma (BitVec.ofNat 64 (getLe p 24 8)) (s.jnl.readRange (getLe p 0 1) o n))).done r.mb []

def serveSnapshotRead : MbReq → State → State :=
  mbChecks 0x0906 (sized 32) (fun p => getLe p 0 1 ≤ 2 && zeroAt p 1 7 && zeroAt p 20 4) 0 snapshotReadBody

/-- SNAPSHOT_READ (R451). -/
def execSnapshotRead (r : MbReq) (s : State) : Host.Outcome State Fault Refusal := .next (mbGo 0x0906 r serveSnapshotRead s)

/-! ## Bench mode (R452, R453) -/

/-- Every MARKER entry of a journal image carries a firmware version; the walk ends at the first entry of length 0 (Tables 15-8, 15-9). -/
def imageVersion (ver : Nat) : Nat → Bytes → Bool
  | 0, _ => true
  | k + 1, b =>
    let n := getLe b 1 1
    if b.length < 16 || n = 0 then true
    else (getLe b 0 1 ≠ 0 || decide (getLe b 22 8 = ver)) && imageVersion ver k (b.drop (16 * n))

/-- The MARKER entries of the formatter's own journal that nothing has overwritten carry its version (R452). -/
def ownVersion (ver : Nat) : List JnlEntry → List JnlEntry → Bool
  | _, [] => true
  | newer, e :: r =>
    let hit := newer.any (fun x => decide (x.off < e.off + 16 * e.units) && decide (e.off < x.off + 16 * x.units))
    (e.type ≠ 0 || hit || decide (getLe e.payload 6 8 = ver)) && ownVersion ver (e :: newer) r

/-- Payload length of an action (R452, log 56). -/
def benchSize (n : Nat) (p : Bytes) : Bool :=
  let a := getLe p 0 1
  if a = 2 then n = 49 else if a = 3 then n = 25 else if a = 4 then n = 17 else n = 1

/-- ENTER is accepted (R452). -/
def State.benchReady (s : State) : Bool :=
  !s.cart.loaded && !s.glob.enabled && s.tapeStopped && ownVersion s.fw.running.toNat [] s.jnl.entries

/-- LOAD, SUPPLY and RUN (R452). -/
def benchAct (a : Nat) (p : Bytes) (r : MbReq) (s : State) : State :=
  if a = 2 then
    let n := getLe p 9 8
    let m := getLe p 25 8
    let image := slice r.io.data 0 n
    if !r.io.ok then s.refuse 0x0905 Status.dataTransferError r
    else if !imageVersion s.fw.running.toNat (n / 16 + 1) image then s.refuse 0x0905 Status.sequenceError r
    else { s with bench := { s.bench with image := image, rings := [slice r.io.data n m, slice r.io.data (n + m) (getLe p 41 8)] } }.done r.mb []
  else if a = 3 then
    if !r.io.ok then s.refuse 0x0905 Status.dataTransferError r
    else { s with bench := { s.bench with supply := s.bench.supply ++ [(getLe p 1 8, fit (getLe p 17 8) r.io.data)] } }.done r.mb []
  else
    let stop := Config.benchStop s.free
    let log := (Config.benchLog s.free).take (getLe p 9 8)
    if !r.io.ok then s.drew.refuse 0x0905 Status.dataTransferError r
    else (s.drew.emit (.dma (BitVec.ofNat 64 (getLe p 1 8)) log)).done r.mb (leBytes 8 stop.1.toNat ++ [stop.2])

def benchControlBody (r : MbReq) (s : State) : State :=
  let p := mbData r
  let a := getLe p 0 1
  if a = 1 then
    if s.benchReady && !s.bench.on then { s with bench := { on := true } }.done r.mb [] else s.refuse 0x0905 Status.sequenceError r
  else if !s.bench.on then s.refuse 0x0905 Status.sequenceError r
  else if a = 5 then
    { s.done r.mb [] with bench := {} }.functionReset
  else benchAct a p r s

def serveBenchControl : MbReq → State → State :=
  mbChecks 0x0905 benchSize (fun p => 1 ≤ getLe p 0 1 && getLe p 0 1 ≤ 5) 1 benchControlBody

/-- BENCH_CONTROL (R452). -/
def execBenchControl (r : MbReq) (s : State) : Host.Outcome State Fault Refusal := .next (mbGo 0x0905 r serveBenchControl s)

end Sys2Proof.Machine
end

