-- ==== Sys2Proof/Machine/Held.lean ====
section
/-! DEFINITION. Every mailbox command by its opcode (Table 12-5), requests that were held and are served at last, and the moments that
end such a wait: activation, power states, the end of a security self-test (R270, R337, R354 to R359). -/

namespace Sys2Proof.Machine

/-! ## Commands by opcode -/

/-- What serves each opcode of Table 12-5. -/
def services : List (Nat × (MbReq → State → State)) := [
  (0x0001, serveStateSummary), (0x0002, serveParamGet), (0x0003, serveParamSet), (0x0101, serveQpCreate), (0x0102, serveQpDelete),
  (0x0201, serveCartLoad), (0x0202, serveCartUnload), (0x0203, serveLedgerGet), (0x0204, serveLedgerStored), (0x0205, serveEodSearch),
  (0x0301, serveReadChannelStats), (0x0302, serveServoStatus), (0x0303, serveCompressStats), (0x0401, serveScrub),
  (0x0402, serveScaleLogRead), (0x0403, serveHearthChannelStatus)]

/-- Security, firmware and the rest of Table 12-5. -/
def services2 : List (Nat × (MbReq → State → State)) := [
  (0x0501, serveSecGetIdentity), (0x0502, serveSecChallenge), (0x0503, serveSecLogin), (0x0504, serveSecLogout), (0x0505, serveSecKeyAgree),
  (0x0506, serveSecCommission), (0x0507, serveSecSetAuth), (0x0508, serveSecKekLoad), (0x0509, serveSecKekErase),
  (0x050A, serveSecKeyLoad), (0x050B, serveSecKeyErase), (0x050C, serveSecSlotInfo), (0x050D, serveSecSetMode), (0x050E, serveSecZeroize),
  (0x050F, serveSecSelftest), (0x0601, serveFwInfo), (0x0602, serveFwDownload), (0x0603, serveFwCommit), (0x0604, serveFwActivate),
  (0x0701, servePowerSet), (0x0702, serveSelftestStart), (0x0703, serveSelftestAbort), (0x0704, serveSelftestResult),
  (0x0801, serveCalExport), (0x0802, serveCalWrite), (0x0803, serveLaneStatus), (0x0901, serveUnitControl), (0x0902, serveTwinPair),
  (0x0903, serveTwinSwap), (0x0904, serveTwinStatus), (0x0905, serveBenchControl), (0x0906, serveSnapshotRead)]

/-- A request served; an opcode that Table 12-5 does not list is rejected with INVALID OPCODE (R339). -/
def mbServe (op : Nat) (r : MbReq) (s : State) : State :=
  match assocGet (services ++ services2) op with
  | some f => f r s
  | none => s.refuse op Status.invalidOpcode r

/-- Held requests served in the order of their GOs (R354, R358); one that must wait still, because a request before it began an
activation or a power state, stays held. -/
def serveHeldN : List Nat → State → State
  | [], s => s
  | m :: rest, s =>
    let b := s.mbox m
    let op := b.opcode.toNat
    match b.req with
    | none => serveHeldN rest s
    | some r =>
      if s.mbWaits op then
        serveHeldN rest { s with fw := { s.fw with heldMb := s.fw.heldMb ++ [m] } }
      else serveHeldN rest (mbServe op r ((s.modMbox m (fun b => { b with held := false })).withIo r.io))

/-- The mailboxes that hold a request are served. -/
def State.serveHeld (s : State) : State := serveHeldN s.fw.heldMb { s with fw := { s.fw with heldMb := [] } }

/-! ## Hot activation (R354, R355, Table 12-14) -/

/-- An activation ends: fetch resumes, what waited for firmware goes out, held requests are served, FW_ACTIVATE is answered, a shutdown
asked for meanwhile begins (R354, R355, R361). -/
def State.endActivation (st : BitVec 16) (detail : Nat) (s : State) : State :=
  let m := s.fw.actMb
  let s := { s with fw := { s.fw with act := .none, actMb := none } }
  let s := s.drainEvents.drainMotion.serveHeld
  let s := answerMb m st detail s
  let k := s.glob.shutdownAfterAct
  if k = 0 then s
  else { s with glob := { s.glob with shutdownAfterAct := 0 } }.requestShutdown (decide (k = 2))

/-- The drain is complete: every fetched command and every request on another mailbox that is not held (Table 12-14, step 4). -/
def State.drained (s : State) : Bool :=
  s.recs.cmds.all (fun c => s.pairError c.pair)
    && (List.range 16).all (fun m => (s.mbox m).state ≠ 1 || (s.mbox m).held || s.fw.actMb = some m)

/-- BLACKOUT_START: the blackout begins with the guard still holding; without it fetch resumes and the activation goes back to step 2
(R354). -/
def execBlackoutStart (s : State) : Host.Outcome State Fault Refusal :=
  .next (if s.fw.act ≠ .draining || !s.drained then s
    else if s.actGuard then { s with fw := { s.fw with act := .blackout } }
    else { s with fw := { s.fw with act := .preparing } }.serveHeld)

/-- FIRMWARE_READY (R354, step 5). -/
def execFirmwareReady (s : State) : Host.Outcome State Fault Refusal :=
  .next (if s.fw.act ≠ .blackout then s
    else
      let v := fwVersion (s.fw.slot s.fw.bootSlot)
      ({ s with fw := { s.fw with running := BitVec.ofNat 64 v } }.event 0x0503 v 0).endActivation Status.success 0)

/-- ACTIVATION_FALLBACK: the previous image runs again and its slot is the boot slot (R354). -/
def execActivationFallback (s : State) : Host.Outcome State Fault Refusal :=
  .next (if s.fw.act ≠ .blackout then s else (s.markSlot s.fw.prevSlot).endActivation Status.sequenceError 5)

/-- ACT_DRAIN_MAX_EXPIRY: the blackout has not begun in time (R354). -/
def execActDrainMaxExpiry (s : State) : Host.Outcome State Fault Refusal :=
  .next (if s.fw.act = .preparing || s.fw.act = .draining then s.endActivation Status.sequenceError 4 else s)

/-! ## Power states (R356 to R359) -/

/-- The steps on the way to a power state are done: for P2 and P3 writing has ended, the tape is stopped and nothing needs it; in D3hot
every command has completed (R356, R359). -/
def State.entryDone (t : BitVec 2) (s : State) : Bool :=
  t.toNat < 2 || (!s.forge.writing && (s.recsIn .sealed) = [] && s.tapeStopped && s.rd.jobs = [] && s.rd.locate.isNone
    && !s.cart.searching && !s.cart.eodChecking && (!s.pwr.d3hot || s.recs.cmds.all (fun c => s.pairError c.pair)))

/-- After a state is reached: a wake that came during the entry is followed at once (R358); deeper targets asked for meanwhile and the
P3 of D3hot are entered next. -/
def State.afterEntry (t : BitVec 2) (s : State) : State :=
  if s.pwr.wake && !s.pwr.d3hot then
    let d := s.pwr.deeper
    let s := { s with pwr := { s.pwr with wake := false, deeper := [] } }
    (abandonSets d s).reachP0.serveHeld
  else match s.pwr.deeper with
    | (u, m) :: rest =>
      let s := { s with pwr := { s.pwr with deeper := rest } }
      if u.toNat ≤ t.toNat then s.done m [] else s.enterPower u (some m)
    | [] => if s.pwr.d3hot && t ≠ 3 then s.enterPower 3 none else s

/-- POWER_ENTRY_COMPLETE (R356, R358, R359). -/
def execPowerEntryComplete (s : State) : Host.Outcome State Fault Refusal :=
  .next (match s.pwr.entering with
    | none => s
    | some t =>
      if !s.entryDone t then s
      else
        let m := s.pwr.mb
        let w := s.pwr.wake
        let s := answerMb m Status.success 0 ({ s with pwr := { s.pwr with mb := none } }.reachPower t)
        { s with pwr := { s.pwr with wake := w } }.afterEntry t)

/-- D0_TRANSITION: a wake event; interrupts held since D3hot go out (R357, R359). -/
def execD0Transition (s : State) : Host.Outcome State Fault Refusal :=
  .next ({ s with pwr := { s.pwr with d3hot := false } }.wake.flushSignals.serveHeld)

/-! ## The end of a security self-test (R270) -/

/-- SEC_ requests that waited are rejected with SELF-TEST FAILED. -/
def rejectTests : List Nat → State → State
  | [], s => s
  | m :: rest, s => rejectTests rest (s.respond m Status.selfTestFailed (openDetail (s.mbox m).opcode.toNat Status.selfTestFailed.toNat) [])

/-- SEC_ requests that waited are served in order of arrival. -/
def serveTests : List Nat → State → State
  | [], s => s
  | m :: rest, s => serveTests rest (match (s.mbox m).req with
    | some r => mbServe (s.mbox m).opcode.toNat r (s.withIo r.io)
    | none => s)

/-- SEC_SELFTEST_END (R270): `pairs` are the AES pairs that passed, `ok` the outcome of the other tests. -/
def execSecSelftestEnd (ok : Bool) (pairs : List (Fin 80)) (io : Io) (s : State) : Host.Outcome State Fault Refusal :=
  .next (if s.sec.state ≠ .selfTest || !s.glob.ready then s
    else
      let s := (s.withIo io).setPairs (pairs.map Fin.val)
      let n := s.sec.pairs.length
      let pass := ok && 60 ≤ n
      let s := if pass then s.passTests else s.secError
      let m := s.sec.testMb
      let held := s.sec.heldMb
      let s := { s with sec := { s.sec with testMb := none, heldMb := [] } }
      let s := match m with
        | some m => s.done m ([byte (b2n (!pass))] ++ zeros 3 ++ leBytes 4 n)
        | none => s
      if pass then serveTests held s else rejectTests held s)

end Sys2Proof.Machine
end

