-- ==== Sys2Proof/Machine/TimeUnit.lean ====
section
/-! DEFINITION. The time unit (R459 to R466): the counter's cycle, the commands of TIME_CMD, TIME_FREQ, the TIME_NS latch and
the PPS pins. -/

namespace Sys2Proof.Machine

/-- Sub-units of a nanosecond: 2^-40 ns ÷ 125 each, so that SLEW's 16.384 × 2^-16 ns is exactly 2^35 of them (R459, R462, log 12). -/
def subPerNs : Nat := 125 * 2 ^ 40

/-- The counter as one number of sub-units. -/
def TimeUnit.total (t : TimeUnit) : Int := (subPerNs * (1000000000 * t.sec.toNat + t.ns.toNat) + t.sub : Nat)

/-- The counter set to a number of sub-units that is not negative; a nanoseconds value of 10^9 carries into seconds (R459). -/
def TimeUnit.setTotal (t : TimeUnit) (v : Int) : TimeUnit :=
  let n := v.toNat
  { t with sec := BitVec.ofNat 48 (n / subPerNs / 1000000000), ns := BitVec.ofNat 32 (n / subPerNs % 1000000000),
           sub := n % subPerNs }

/-- The slew term of one cycle: ±2^35 sub-units until the offset is gone, the last cycle taking what is left (R462, log 18). -/
def TimeUnit.slewStep (t : TimeUnit) : Int :=
  if t.slewing then clampInt (-(2 ^ 35)) (2 ^ 35) t.slewLeft else 0

/-- One cycle of the 400 MHz clock: the counter adds I (R459), a PPS_OUT pulse runs on (R464). -/
def TimeUnit.cycle (t : TimeUnit) : TimeUnit :=
  let d := t.slewStep
  let t' := t.setTotal (t.total + (163840 * 2 ^ 24 + t.adj.toInt) * 125 + d)
  { t' with slewLeft := t.slewLeft - d }

/-- One cycle of the time unit: what a step does on an empty queue (log 1). The counter stands still in power-on reset (R471). -/
def State.tick (s : State) : State :=
  if s.glob.phase = .inReset then s
  else
    let left := s.pins.ppsLeft - 1
    { s with time := s.time.cycle
             pins := { s.pins with ppsLeft := left, ppsOut := s.pins.ppsOut && decide (left ≠ 0) } }

/-- A TIME_IN entry (Table 15-9; the payload's layout is log 19): kind, then the values of the command or edge. -/
def State.timeIn (kind : Nat) (v : Nat) (s : State) : State := s.journal 0x06 0 (leBytes 8 kind ++ leBytes 8 v)

/-- SET (R462). -/
def execTimeSet (s : State) : Host.Outcome State Fault Refusal :=
  let t := s.time
  let t' := if t.setNs.toNat < 1000000000 then
      { t with sec := t.setSec, ns := t.setNs, sub := 0, valid := true, slewing := false, slewLeft := 0,
               setRejected := false, stepRejected := false }
    else { t with setRejected := true, stepRejected := false }
  .next ({ s.linkIn with time := t' }.timeIn 1 t.setNs.toNat)

/-- STEP (R462). -/
def execTimeStep (s : State) : Host.Outcome State Fault Refusal :=
  let t := s.time
  let v := t.total + t.phase.toInt * subPerNs
  let t' := if 0 ≤ v then
      { t.setTotal v with slewing := false, slewLeft := 0, setRejected := false, stepRejected := false }
    else { t with setRejected := false, stepRejected := true }
  .next ({ s.linkIn with time := t' }.timeIn 2 t.phase.toNat)

/-- SLEW (R462): an offset beyond 1,000,000 ns is ignored. -/
def execTimeSlew (s : State) : Host.Outcome State Fault Refusal :=
  let t := s.time
  let p := t.phase.toInt
  let t' := if p.natAbs ≤ 1000000 then
      { t with slewing := decide (p ≠ 0), slewLeft := p * subPerNs, setRejected := false, stepRejected := false }
    else t
  .next ({ s.linkIn with time := t' }.timeIn 3 t.phase.toNat)

/-- The end of a slew: what remains of the offset has been absorbed and SLEWING clears (R462). -/
def execSlewEnd (s : State) : Host.Outcome State Fault Refusal :=
  let t := s.time
  if t.slewing then
    let t' := t.setTotal (max 0 (t.total + t.slewLeft))
    .next { s with time := { t' with slewing := false, slewLeft := 0 } }
  else .next s

/-- A write of TIME_FREQ (R460). -/
def execTimeFreqWrite (v : BitVec 32) (s : State) : Host.Outcome State Fault Refusal :=
  .next ({ s.linkIn with time := { s.time with adj := v } }.timeIn 4 v.toNat)

/-- Fraction [15:0] of the counter, in 2^-16 ns (R459). -/
def TimeUnit.frac (t : TimeUnit) : BitVec 16 := BitVec.ofNat 16 (t.sub / (125 * 2 ^ 24))

/-- A read of TIME_NS: TIME_FRAC and TIME_SEC latch, the nanoseconds are returned (R461). -/
def execTimeNsRead (s : State) : Host.Outcome State Fault Refusal :=
  let t := s.time
  .next ({ s.linkIn with time := { t with latSec := t.sec, latFrac := t.frac } }.emit (.regValue 0x50000 (t.ns.setWidth 64)))

/-- A rising edge of PPS_IN: the counter is captured with the delay line's steps of 78.125 ps (R463). -/
def execPpsInEdge (steps : Fin 32) (s : State) : Host.Outcome State Fault Refusal :=
  let t := s.time
  let c := t.setTotal (t.total + (5120 * 125 * 2 ^ 24 * steps.val : Nat))
  let t' := { t with ppsSec := c.sec, ppsNs := c.ns, ppsFrac := c.frac, ppsCount := t.ppsCount + 1,
                     ppsSeen := true, ppsMissed := false }
  .next ({ s with time := t' }.timeIn 5 steps.val)

/-- 1.1 s after an edge without the next (R463, Table 16-4). -/
def execPpsInMissed (s : State) : Host.Outcome State Fault Refusal :=
  if s.time.ppsSeen then .next { s with time := { s.time with ppsSeen := false, ppsMissed := true } } else .next s

/-- The counter passes a second boundary less PPS_OUT_OFFSET: PPS_OUT rises for the programmed width while enabled (R464). -/
def execPpsOutPulse (s : State) : Host.Outcome State Fault Refusal :=
  if s.time.ppsOutCtl.getLsbD 0 then
    let width := bitsOf s.time.ppsOutCtl.toNat 8 8
    .next { s with pins := { s.pins with ppsOut := decide (width ≠ 0), ppsLeft := 400000 * width } }
  else .next s

end Sys2Proof.Machine
end

