-- ==== Sys2Proof/Machine/Registers.lean ====
section
/-! DEFINITION. BAR0: what a read of each register returns, and a write of any offset (R14 to R16, R279, Tables 10-4, 10-5, 12-1, 15-11,
16-3, 04-8, 09-10). -/

namespace Sys2Proof.Machine

/-! ## Reads -/

/-- LQI_SUPPORT (Table 10-5). -/
def lqiSupport : Nat := 0x0010FF07

/-- MB_STATUS (Table 12-2). -/
def Mailbox.statusWord (b : Mailbox) : Nat := b.state.toNat + 4 * b2n b.held + 16 * b.role.toNat + 256 * b.lastSeq.toNat

/-- MB_SUMMARY (Table 12-1). -/
def State.mbSummary (s : State) : Nat := (List.range 16).foldl (fun n m => n + b2n (decide ((s.mbox m).state = 2)) * 2 ^ m) 0

/-- TIME_STATUS (Table 16-4). -/
def TimeUnit.status (t : TimeUnit) : Nat :=
  b2n t.valid + 2 * b2n t.slewing + 4 * b2n t.ppsSeen + 8 * b2n t.ppsMissed + 16 * b2n t.stepRejected + 32 * b2n t.setRejected

/-- JNL_STATUS (Table 15-11). -/
def State.jnlStatus (s : State) : Nat := b2n s.jnlOn + 2 * b2n s.jnl.frozen + 4 * b2n s.bench.on + 256 * s.jnl.cause.toNat

/-- SLOTS_LOADED and KEKS_LOADED (Table 09-10). -/
def Sec.slotsLoaded (x : Sec) : Nat :=
  (List.range 64).foldl (fun n i => n + b2n (((x.slots[i]?).bind (fun (k : KeySlot) => k.cur)).isSome) * 2 ^ i) 0
def Sec.keksLoaded (x : Sec) : Nat := (List.range 4).foldl (fun n i => n + b2n (((x.keks[i]?).join).isSome) * 2 ^ i) 0

/-- Size and value of the identity and global status block's registers (Table 10-5); SERIAL is read as two halves. -/
def State.globalReg (s : State) (o : Nat) : Option (Nat × Nat) :=
  match o with
  | 0x00 => some (4, 0x48102100 + s.glob.deliverable.toNat)
  | 0x04 => some (4, lqiSupport)
  | 0x08 => some (8, s.fw.running.toNat)
  | 0x10 => some (8, getLe s.glob.serial 0 8)
  | 0x18 => some (8, getLe s.glob.serial 8 8)
  | 0x20 => some (4, s.globalStatus)
  | 0x24 => some (4, b2n s.glob.enable)
  | 0x28 => some (8, s.evq.base.toNat)
  | 0x30 => some (4, s.evq.configWord.toNat)
  | 0x34 => some (4, s.recs.cmds.length)
  | 0x38 => some (4, s.heldEvents)
  | 0x3C => some (4, s.glob.doorbellErrors.toNat)
  | _ => none

/-- Registers of the doorbell block: doorbells read zero, the mailboxes' control registers follow Table 12-1. -/
def State.doorbellReg (s : State) (o : Nat) : Option (Nat × Nat) :=
  if o = 0xD00 then some (4, s.mbSummary)
  else if 0xC00 ≤ o && o < 0xD00 && o % 4 = 0 then
    let b := s.mbox (o % 256 / 16)
    some (4, if o % 16 = 4 then b.statusWord else if o % 16 = 8 then b2n b.intEnable else 0)
  else if o ≤ 0x800 && o % 4 = 0 then some (4, 0)
  else none

/-- Registers of the MSI-X table and its pending bits (Table 10-4, log 7). -/
def State.msixReg (s : State) (o : Nat) : Option (Nat × Nat) :=
  if o < 257 * 16 && o % 4 = 0 then
    let e := (s.glob.msix[o / 16]?).getD {}
    some (4, if o % 16 = 0 then e.addr.toNat % 2 ^ 32 else if o % 16 = 4 then e.addr.toNat / 2 ^ 32
      else if o % 16 = 8 then e.data.toNat else b2n e.masked)
  else if 0x2000 ≤ o && o < 0x2000 + 40 && o % 8 = 0 then
    some (8, (List.range 64).foldl (fun n i => n + b2n (((s.glob.msix[(o - 0x2000) * 8 + i]?).getD {}).pending) * 2 ^ i) 0)
  else none

/-- Registers of the time unit (Table 16-3). -/
def TimeUnit.reg (t : TimeUnit) (o : Nat) : Option (Nat × Nat) :=
  match o with
  | 0x00 => some (4, t.ns.toNat)
  | 0x04 => some (4, t.latFrac.toNat)
  | 0x08 => some (8, t.latSec.toNat)
  | 0x10 => some (8, t.setSec.toNat)
  | 0x18 => some (4, t.setNs.toNat)
  | 0x1C => some (4, 0)
  | 0x20 => some (8, t.phase.toNat)
  | 0x28 => some (4, t.adj.toNat)
  | 0x2C => some (4, t.status)
  | 0x30 => some (8, t.ppsSec.toNat)
  | 0x38 => some (4, t.ppsNs.toNat)
  | 0x3C => some (4, t.ppsFrac.toNat)
  | 0x40 => some (4, t.ppsCount.toNat)
  | 0x44 => some (4, t.ppsOutCtl.toNat)
  | 0x48 => some (4, t.ppsOutOffset.toNat)
  | _ => none

/-- Registers of the journal control block (Table 15-11). -/
def State.jnlReg (s : State) (o : Nat) : Option (Nat × Nat) :=
  match o with
  | 0x00 => some (4, s.jnl.control.toNat)
  | 0x04 => some (4, s.jnlStatus)
  | 0x08 => some (8, s.jnl.head)
  | 0x10 => some (8, s.jnl.wraps.toNat)
  | 0x18 => some (4, 0)
  | 0x1C => some (4, 0)
  | 0x20 => some (8, s.jnl.lost.toNat)
  | 0x28 => some (8, s.jnl.snapHead)
  | 0x30 => some (8, s.jnl.triggerTime.toNat)
  | 0x38 => some (4, s.jnl.ignored.toNat)
  | _ => none

/-- Registers of the Bellows status block (Table 04-8). -/
def State.blwReg (s : State) (o : Nat) : Option (Nat × Nat) :=
  match o with
  | 0x00 => some (8, s.blwFill)
  | 0x08 => some (4, s.blwState)
  | 0x0C => some (4, s.blw.intStatus.toNat)
  | 0x10 => some (4, s.blw.intMask.toNat)
  | 0x14 => some (4, s.anvil.free)
  | 0x18 => some (4, s.anvilMax)
  | 0x20 => some (8, s.blw.framesFirst.toNat)
  | 0x28 => some (8, s.blw.framesRewritten.toNat)
  | 0x30 => some (8, s.blw.rewriteHeats.toNat)
  | 0x38 => some (8, s.blw.slagFrames.toNat)
  | 0x40 => some (8, s.blw.poisonedWords.toNat)
  | 0x48 => some (8, s.blw.correctedWords.toNat)
  | 0x50 => some (8, s.blw.quenchCount.toNat)
  | 0x58 => some (8, s.blw.exhaustedFrames.toNat)
  | _ => none

/-- Registers of the security block (Table 09-10). -/
def State.secReg (s : State) (o : Nat) : Option (Nat × Nat) :=
  match o with
  | 0x00 => some (4, s.secStatus)
  | 0x04 => some (4, s.sec.intStatus.toNat)
  | 0x08 => some (4, s.sec.intMask.toNat)
  | 0x0C => some (4, 0)
  | 0x10 => some (8, s.sec.slotsLoaded)
  | 0x18 => some (4, s.sec.keksLoaded)
  | 0x1C => some (4, s.sessionCur)
  | 0x20 => some (8, s.sec.tagFails.toNat)
  | 0x28 => some (4, s.sec.authFails.toNat)
  | 0x2C => some (4, s.sec.lockstep.toNat)
  | 0x30 => some (4, s.sec.pairs.length)
  | _ => none

/-- Size and value of the register at a BAR0 offset; none where no register begins (Table 10-4). -/
def State.regAt (s : State) (off : Nat) : Option (Nat × Nat) :=
  match off / 0x10000 with
  | 0 => s.globalReg off
  | 3 => s.doorbellReg (off % 0x10000)
  | 4 => s.msixReg (off % 0x10000)
  | 5 => s.time.reg (off % 0x10000)
  | 6 => s.jnlReg (off % 0x10000)
  | 7 => s.blwReg (off % 0x10000)
  | 8 => s.secReg (off % 0x10000)
  | _ => none

/-- A read of BAR0: a register by its own size, an 8-byte register also by halves, anything else zero (R279). -/
def State.readReg (s : State) (off size : Nat) : Nat :=
  match s.regAt off with
  | some (n, v) => if size = n then v else if n = 8 && size = 4 then v % 2 ^ 32 else 0
  | none => if size = 4 && 4 ≤ off then (match s.regAt (off - 4) with
      | some (n, v) => if n = 8 then v / 2 ^ 32 else 0
      | none => 0) else 0

/-- Response buffer of a mailbox: header and payload (Table 12-4). -/
def Mailbox.response (b : Mailbox) : Bytes :=
  leBytes 2 b.opcode.toNat ++ leBytes 2 b.status.toNat ++ leBytes 4 b.seq.toNat ++ leBytes 4 b.payload.length ++ leBytes 2 b.detail.toNat
  ++ zeros 2 ++ b.payload

/-! ## Writes of registers without a command of their own -/

/-- The request that a mailbox's buffer spells (Table 12-3). -/
def bufRequest (m : Fin 16) (b : Bytes) (io : Io) (aux : List Int) : MbReq :=
  let len := getLe b 8 4
  { mb := m, flags := BitVec.ofNat 16 (getLe b 2 2), seq := BitVec.ofNat 32 (getLe b 4 4), len := BitVec.ofNat 32 len,
    rsv := BitVec.ofNat 32 (getLe b 12 4), payload := slice b 16 (min len 4080), io := io, aux := aux }

/-- MB_DOORBELL: GO; bits [31:1] must be zero (Table 12-1). -/
def State.goWrite (m : Fin 16) (v : Nat) (io : Io) (aux : List Int) (s : State) : State :=
  if 2 ≤ v then s.linkIn.countError
  else if v = 0 then s.linkIn
  else
    let b := (s.mbox m).reqBuf
    let op := getLe b 0 2
    mbGo op (bufRequest m b io aux) (mbServe op) s

/-- The request buffer of a mailbox: bytes written while it is not BUSY (R336, R337). -/
def State.bufWrite (off size v : Nat) (s : State) : State :=
  let m := (off - 0x10000) / 0x2000
  let o := (off - 0x10000) % 0x2000
  if 0x1000 ≤ o || (s.mbox m).state = 1 then s
  else s.modMbox m (fun b => { b with reqBuf := putAt (Sys2Proof.fit 4096 b.reqBuf) o (leBytes size v) })

/-- A write of the MSI-X table; a vector no longer masked sends what is pending (R285, log 7). -/
def State.msixWrite (o v : Nat) (s : State) : State :=
  let f := fun (e : MsixEntry) =>
    if o % 16 = 0 then { e with addr := BitVec.ofNat 64 (e.addr.toNat / 2 ^ 32 * 2 ^ 32 + v) }
    else if o % 16 = 4 then { e with addr := BitVec.ofNat 64 (e.addr.toNat % 2 ^ 32 + v * 2 ^ 32) }
    else if o % 16 = 8 then { e with data := BitVec.ofNat 32 v }
    else { e with masked := bitAt v 0 }
  { s with glob := { s.glob with msix := modAt s.glob.msix (o / 16) f } }.flushSignals

/-- EVQ_BASE: bits [11:0] zero, ignored while the queue is enabled (R293). -/
def State.evqBaseWrite (v : Nat) (s : State) : State :=
  if s.evq.enable then s else { s with evq := { s.evq with base := BitVec.ofNat 64 (v / 4096 * 4096), baseWritten := true } }

/-- Offsets of the time unit that store a value (Table 16-3, RWS). -/
def TimeUnit.store (o v : Nat) (t : TimeUnit) : TimeUnit :=
  match o with
  | 0x10 => { t with setSec := BitVec.ofNat 48 v }
  | 0x18 => { t with setNs := BitVec.ofNat 32 v }
  | 0x20 => { t with phase := BitVec.ofNat 64 v }
  | 0x44 => { t with ppsOutCtl := BitVec.ofNat 32 (v % 2 + v / 256 % 256 * 256) }
  | 0x48 => { t with ppsOutOffset := BitVec.ofNat 32 v }
  | _ => t

/-- Registers that store a value or clear bits, by offset; any other offset ignores the write (R14, R279). -/
def State.plainWrite (off v : Nat) (s : State) : State :=
  let w := BitVec.ofNat 32 v
  if 0x30C00 ≤ off && off < 0x30D00 then
    (if off % 16 = 8 then s.modMbox (off % 256 / 16) (fun b => { b with intEnable := bitAt v 0 }) else s)
  else if 0x40000 ≤ off && off < 0x40000 + 257 * 16 then s.msixWrite (off % 0x10000) v
  else if 0x50000 ≤ off && off < 0x50050 then { s with time := s.time.store (off % 0x10000) v }
  else match off with
    | 0x00028 => s.evqBaseWrite v
    | 0x60000 => { s with jnl := { s.jnl with control := w &&& 3 } }
    | 0x7000C => { s with blw := { s.blw with intStatus := s.blw.intStatus &&& ~~~w } }
    | 0x70010 => { s with blw := { s.blw with intMask := w &&& 0x7FF } }
    | 0x80004 => { s with sec := { s.sec with intStatus := s.sec.intStatus &&& ~~~w } }
    | 0x80008 => { s with sec := { s.sec with intMask := w &&& 0x7F } }
    | _ => s

/-! ## Writes that act -/

/-- The state that a meaning leads to. -/
def nextOf (o : Host.Outcome State Fault Refusal) (s : State) : State :=
  match o with
  | .next t => t
  | _ => s

/-- GLOBAL_CONTROL (Table 10-7, R360 to R362): ENABLE first, then SHUTDOWN_REQ. -/
def State.controlWrite (v : Nat) (s : State) : State :=
  let was := s.glob.enable
  let s := if bitAt v 0 then nextOf (execGlobalEnable s) s
    else if was then nextOf (execOrderlyShutdown true s) s else s.linkIn
  if v / 2 % 4 = 1 then s.requestShutdown false else if v / 2 % 4 = 2 then s.requestShutdown true else s

/-- TIME_CMD: exactly one command bit acts (R462). -/
def State.timeCommand (v : Nat) (s : State) : State :=
  match v % 8 with
  | 1 => nextOf (execTimeSet s) s
  | 2 => nextOf (execTimeStep s) s
  | 4 => nextOf (execTimeSlew s) s
  | _ => s.linkIn

/-- SEC_ZEROIZE (R275). -/
def State.zeroizeWrite (v : Nat) (s : State) : State :=
  if v / 2 ^ 16 ≠ 0x5A5A || bitsOf v 6 9 ≠ 0 then s.linkIn
  else if bitAt v 15 then s.linkIn.zeroizeFull
  else s.linkIn.zeroizeSlot (v % 64)

/-- A 4-byte write of the doorbell block. -/
def State.doorbellWrite (o v : Nat) (io : Io) (aux : List Int) (s : State) : State :=
  let w := BitVec.ofNat 32 v
  if o < 0x800 then
    let q : Fin 256 := Fin.ofNat 256 (o / 8)
    if o % 8 = 0 then nextOf (execSqTailDoorbell q w s) s else nextOf (execCqHeadDoorbell q w s) s
  else if o = 0x800 then nextOf (execEvqHeadDoorbell w s) s
  else if 0xC00 ≤ o && o < 0xD00 && o % 16 = 0 then s.goWrite (Fin.ofNat 16 (o % 256 / 16)) v io aux
  else s.linkIn.plainWrite (0x30000 + o) v

/-- REGISTER_WRITE (R14, R279): `size` bytes of `v` at offset `off`. A register takes a write of its own size alone; registers that act
do what their own commands do. -/
def execRegisterWrite (off : BitVec 20) (size : Nat) (v : BitVec 64) (io : Io) (aux : List Int) (s : State) :
    Host.Outcome State Fault Refusal :=
  let o := off.toNat
  let n := v.toNat % 2 ^ (8 * size)
  .next (if s.glob.phase = .inReset then s
    else if 0x10000 ≤ o && o < 0x30000 then
      (if (size = 1 || size = 2 || size = 4 || size = 8) && o % size = 0 then s.linkIn.bufWrite o size n else s.linkIn)
    else match s.regAt o with
      | none => s.linkIn
      | some (k, _) =>
        if k ≠ size then s.linkIn
        else if o / 0x10000 = 3 then s.doorbellWrite (o % 0x10000) n io aux
        else match o with
          | 0x00024 => s.controlWrite n
          | 0x00030 => nextOf (execEvqConfigWrite (BitVec.ofNat 32 n) s) s
          | 0x5001C => s.timeCommand n
          | 0x50028 => nextOf (execTimeFreqWrite (BitVec.ofNat 32 n) s) s
          | 0x60018 => nextOf (execJnlTrigger s) s
          | 0x6001C => nextOf (execJnlResume s) s
          | 0x8000C => s.zeroizeWrite n
          | _ => s.linkIn.plainWrite o n)

end Sys2Proof.Machine
end

