-- ==== Sys2Proof/Machine/Dispatch.lean ====
section
/-! DEFINITION. The dispatch of a command to its meaning: one arm per row of spec/opcode_table.json. -/

namespace Sys2Proof.Machine

def exec (i : Instr) (s : State) : Host.Outcome State Fault Refusal :=
  match i with
  | .powerOnReset pwrgood => Sys2Proof.Machine.execPowerOnReset pwrgood s
  | .boot e => Sys2Proof.Machine.execBoot e s
  | .tamperNAssert => Sys2Proof.Machine.execTamperNAssert s
  | .tamperNRelease => Sys2Proof.Machine.execTamperNRelease s
  | .functionReset => Sys2Proof.Machine.execFunctionReset s
  | .d3hotEntry => Sys2Proof.Machine.execD3hotEntry s
  | .d0Transition => Sys2Proof.Machine.execD0Transition s
  | .clockMonitorFault => Sys2Proof.Machine.execClockMonitorFault s
  | .railFault => Sys2Proof.Machine.execRailFault s
  | .pvtSample readings => Sys2Proof.Machine.execPvtSample readings s
  | .ppsInEdge steps => Sys2Proof.Machine.execPpsInEdge steps s
  | .ppsInMissed => Sys2Proof.Machine.execPpsInMissed s
  | .ppsOutPulse => Sys2Proof.Machine.execPpsOutPulse s
  | .spdAckRise => Sys2Proof.Machine.execSpdAckRise s
  | .spdAckFall => Sys2Proof.Machine.execSpdAckFall s
  | .speedRequest => Sys2Proof.Machine.execSpeedRequest s
  | .speedTimeout => Sys2Proof.Machine.execSpeedTimeout s
  | .starveStop => Sys2Proof.Machine.execStarveStop s
  | .starveResume => Sys2Proof.Machine.execStarveResume s
  | .ucieModuleLoss module => Sys2Proof.Machine.execUcieModuleLoss module s
  | .sqTailDoorbell q v => Sys2Proof.Machine.execSqTailDoorbell q v s
  | .cqHeadDoorbell q v => Sys2Proof.Machine.execCqHeadDoorbell q v s
  | .evqHeadDoorbell v => Sys2Proof.Machine.execEvqHeadDoorbell v s
  | .evqConfigWrite v => Sys2Proof.Machine.execEvqConfigWrite v s
  | .registerWrite off size v io aux => Sys2Proof.Machine.execRegisterWrite off size v io aux s
  | .fetchGrant f => Sys2Proof.Machine.execFetchGrant f s
  | .lockAdmission q tag => Sys2Proof.Machine.execLockAdmission q tag s
  | .stagingChunkGrant io => Sys2Proof.Machine.execStagingChunkGrant io s
  | .coalescingTimeExpiry q => Sys2Proof.Machine.execCoalescingTimeExpiry q s
  | .openRec q tag io => Sys2Proof.Machine.execOpenRec q tag io s
  | .segmentWrite q tag io => Sys2Proof.Machine.execSegmentWrite q tag io s
  | .segmentRead q tag io => Sys2Proof.Machine.execSegmentRead q tag io s
  | .seal q tag io => Sys2Proof.Machine.execSeal q tag io s
  | .abandon q tag io => Sys2Proof.Machine.execAbandon q tag io s
  | .sync q tag io => Sys2Proof.Machine.execSync q tag io s
  | .syncCompletion io => Sys2Proof.Machine.execSyncCompletion io s
  | .locate q tag io => Sys2Proof.Machine.execLocate q tag io s
  | .recordRead q tag io => Sys2Proof.Machine.execRecordRead q tag io s
  | .mark q tag io => Sys2Proof.Machine.execMark q tag io s
  | .query q tag io => Sys2Proof.Machine.execQuery q tag io s
  | .abort q tag io => Sys2Proof.Machine.execAbort q tag io s
  | .stateSummary r => Sys2Proof.Machine.execStateSummary r s
  | .paramGet r => Sys2Proof.Machine.execParamGet r s
  | .paramSet r => Sys2Proof.Machine.execParamSet r s
  | .qpCreate r => Sys2Proof.Machine.execQpCreate r s
  | .qpDelete r => Sys2Proof.Machine.execQpDelete r s
  | .cartLoad r => Sys2Proof.Machine.execCartLoad r s
  | .cartUnload r => Sys2Proof.Machine.execCartUnload r s
  | .ledgerGet r => Sys2Proof.Machine.execLedgerGet r s
  | .ledgerStored r => Sys2Proof.Machine.execLedgerStored r s
  | .sessionFirstFrame => Sys2Proof.Machine.execSessionFirstFrame s
  | .eodSearch r => Sys2Proof.Machine.execEodSearch r s
  | .eodBlockCheck found io => Sys2Proof.Machine.execEodBlockCheck found io s
  | .eodSearchEnd noBlock io => Sys2Proof.Machine.execEodSearchEnd noBlock io s
  | .readChannelStats r => Sys2Proof.Machine.execReadChannelStats r s
  | .servoStatus r => Sys2Proof.Machine.execServoStatus r s
  | .compressStats r => Sys2Proof.Machine.execCompressStats r s
  | .scrub r => Sys2Proof.Machine.execScrub r s
  | .scrubDone found => Sys2Proof.Machine.execScrubDone found s
  | .scaleLogRead r => Sys2Proof.Machine.execScaleLogRead r s
  | .hearthChannelStatus r => Sys2Proof.Machine.execHearthChannelStatus r s
  | .secGetIdentity r => Sys2Proof.Machine.execSecGetIdentity r s
  | .secChallenge r => Sys2Proof.Machine.execSecChallenge r s
  | .secLogin r => Sys2Proof.Machine.execSecLogin r s
  | .secLogout r => Sys2Proof.Machine.execSecLogout r s
  | .secKeyAgree r => Sys2Proof.Machine.execSecKeyAgree r s
  | .secCommission r => Sys2Proof.Machine.execSecCommission r s
  | .secSetAuth r => Sys2Proof.Machine.execSecSetAuth r s
  | .secKekLoad r => Sys2Proof.Machine.execSecKekLoad r s
  | .secKekErase r => Sys2Proof.Machine.execSecKekErase r s
  | .secKeyLoad r => Sys2Proof.Machine.execSecKeyLoad r s
  | .secKeyErase r => Sys2Proof.Machine.execSecKeyErase r s
  | .keyEraseComplete slot => Sys2Proof.Machine.execKeyEraseComplete slot s
  | .secSlotInfo r => Sys2Proof.Machine.execSecSlotInfo r s
  | .secSetMode r => Sys2Proof.Machine.execSecSetMode r s
  | .secZeroize r => Sys2Proof.Machine.execSecZeroize r s
  | .secSelftest r => Sys2Proof.Machine.execSecSelftest r s
  | .secSelftestEnd ok pairs io => Sys2Proof.Machine.execSecSelftestEnd ok pairs io s
  | .entropyHealthFail => Sys2Proof.Machine.execEntropyHealthFail s
  | .nonceExpiry mb => Sys2Proof.Machine.execNonceExpiry mb s
  | .lockoutEnd => Sys2Proof.Machine.execLockoutEnd s
  | .secZeroizeFullWrite => Sys2Proof.Machine.execSecZeroizeFullWrite s
  | .secZeroizeSlotWrite slot => Sys2Proof.Machine.execSecZeroizeSlotWrite slot s
  | .fwInfo r => Sys2Proof.Machine.execFwInfo r s
  | .fwDownload r => Sys2Proof.Machine.execFwDownload r s
  | .fwCommit r => Sys2Proof.Machine.execFwCommit r s
  | .fwActivate r => Sys2Proof.Machine.execFwActivate r s
  | .activationDrain => Sys2Proof.Machine.execActivationDrain s
  | .blackoutStart => Sys2Proof.Machine.execBlackoutStart s
  | .firmwareReady => Sys2Proof.Machine.execFirmwareReady s
  | .activationFallback => Sys2Proof.Machine.execActivationFallback s
  | .actDrainMaxExpiry => Sys2Proof.Machine.execActDrainMaxExpiry s
  | .powerSet r => Sys2Proof.Machine.execPowerSet r s
  | .pwrIdleP1Expiry => Sys2Proof.Machine.execPwrIdleP1Expiry s
  | .pwrIdleP2Expiry => Sys2Proof.Machine.execPwrIdleP2Expiry s
  | .pwrIdleP3Expiry => Sys2Proof.Machine.execPwrIdleP3Expiry s
  | .wakeEvent => Sys2Proof.Machine.execWakeEvent s
  | .powerEntryComplete => Sys2Proof.Machine.execPowerEntryComplete s
  | .globalEnable => Sys2Proof.Machine.execGlobalEnable s
  | .orderlyShutdown viaEnable => Sys2Proof.Machine.execOrderlyShutdown viaEnable s
  | .abruptShutdown => Sys2Proof.Machine.execAbruptShutdown s
  | .shutdownComplete => Sys2Proof.Machine.execShutdownComplete s
  | .selftestStart r => Sys2Proof.Machine.execSelftestStart r s
  | .selftestAbort r => Sys2Proof.Machine.execSelftestAbort r s
  | .selftestResult r => Sys2Proof.Machine.execSelftestResult r s
  | .selftestDone failed => Sys2Proof.Machine.execSelftestDone failed s
  | .singletonTestSlice cls request => Sys2Proof.Machine.execSingletonTestSlice cls request s
  | .bistIntervalTick failed => Sys2Proof.Machine.execBistIntervalTick failed s
  | .calExport r => Sys2Proof.Machine.execCalExport r s
  | .calWrite r => Sys2Proof.Machine.execCalWrite r s
  | .laneStatus r => Sys2Proof.Machine.execLaneStatus r s
  | .unitControl r => Sys2Proof.Machine.execUnitControl r s
  | .twinPair r => Sys2Proof.Machine.execTwinPair r s
  | .twinSwap r => Sys2Proof.Machine.execTwinSwap r s
  | .twinStatus r => Sys2Proof.Machine.execTwinStatus r s
  | .benchControl r => Sys2Proof.Machine.execBenchControl r s
  | .snapshotRead r => Sys2Proof.Machine.execSnapshotRead r s
  | .timeSet => Sys2Proof.Machine.execTimeSet s
  | .timeStep => Sys2Proof.Machine.execTimeStep s
  | .timeSlew => Sys2Proof.Machine.execTimeSlew s
  | .slewEnd => Sys2Proof.Machine.execSlewEnd s
  | .timeFreqWrite v => Sys2Proof.Machine.execTimeFreqWrite v s
  | .timeNsRead => Sys2Proof.Machine.execTimeNsRead s
  | .jnlTrigger => Sys2Proof.Machine.execJnlTrigger s
  | .jnlResume => Sys2Proof.Machine.execJnlResume s
  | .snapPostEnd => Sys2Proof.Machine.execSnapPostEnd s
  | .journalMarker => Sys2Proof.Machine.execJournalMarker s
  | .hearthAccess req addr kind errs errs2 feed ra => Sys2Proof.Machine.execHearthAccess req addr kind errs errs2 feed ra s
  | .refreshDue chan rank => Sys2Proof.Machine.execRefreshDue chan rank s
  | .refreshRateIndicatorRead doubled above => Sys2Proof.Machine.execRefreshRateIndicatorRead doubled above s
  | .hotRowWindowClear chan sub => Sys2Proof.Machine.execHotRowWindowClear chan sub s
  | .rankPowerDown chan rank => Sys2Proof.Machine.execRankPowerDown chan rank s
  | .dqsOscillator chan rank drift => Sys2Proof.Machine.execDqsOscillator chan rank drift s
  | .fullRetrainingStart chan => Sys2Proof.Machine.execFullRetrainingStart chan s
  | .fullRetrainingEnd chan ok eyes => Sys2Proof.Machine.execFullRetrainingEnd chan ok eyes s
  | .formBilletHeat => Sys2Proof.Machine.execFormBilletHeat s
  | .cuCompress engine mismatch io => Sys2Proof.Machine.execCuCompress engine mismatch io s
  | .cuSeal pair mismatch => Sys2Proof.Machine.execCuSeal pair mismatch s
  | .anvilPush chan => Sys2Proof.Machine.execAnvilPush chan s
  | .anvilPop chan word err => Sys2Proof.Machine.execAnvilPop chan word err s
  | .heatBoundary => Sys2Proof.Machine.execHeatBoundary s
  | .wrapChange => Sys2Proof.Machine.execWrapChange s
  | .verifyVerdict chan cell word err => Sys2Proof.Machine.execVerifyVerdict chan cell word err s
  | .verifyTimeout chan => Sys2Proof.Machine.execVerifyTimeout chan s
  | .reform wrong disputed => Sys2Proof.Machine.execReform wrong disputed s
  | .servoEstimate => Sys2Proof.Machine.execServoEstimate s
  | .fastPathEstimate => Sys2Proof.Machine.execFastPathEstimate s
  | .quenchRelease => Sys2Proof.Machine.execQuenchRelease s
  | .tiltUpdate => Sys2Proof.Machine.execTiltUpdate s
  | .tensionHint => Sys2Proof.Machine.execTensionHint s
  | .servoFlit sp flit0 flit1 => Sys2Proof.Machine.execServoFlit sp flit0 flit1 s
  | .sampleFlit port flit aligned => Sys2Proof.Machine.execSampleFlit port flit aligned s
  | .laneStatusWord port logical w => Sys2Proof.Machine.execLaneStatusWord port logical w s
  | .managementResponse port w => Sys2Proof.Machine.execManagementResponse port w s
  | .managementTimeout port => Sys2Proof.Machine.execManagementTimeout port s
  | .transmitSuperframe port => Sys2Proof.Machine.execTransmitSuperframe port s
  | .laneAlignmentLoss port lane => Sys2Proof.Machine.execLaneAlignmentLoss port lane s
  | .laneSwap port logical bip => Sys2Proof.Machine.execLaneSwap port logical bip s
  | .laneSwapComplete port errors => Sys2Proof.Machine.execLaneSwapComplete port errors s
  | .portDown port => Sys2Proof.Machine.execPortDown port s
  | .portTrainingComplete port aligned failed eeprom => Sys2Proof.Machine.execPortTrainingComplete port aligned failed eeprom s
  | .retrainMaxExpiry port => Sys2Proof.Machine.execRetrainMaxExpiry port s
  | .syncMarkWindow lane => Sys2Proof.Machine.execSyncMarkWindow lane s
  | .c1DecodeDone => Sys2Proof.Machine.execC1DecodeDone s
  | .secondLookTry lane => Sys2Proof.Machine.execSecondLookTry lane s
  | .captureExpiry lane => Sys2Proof.Machine.execCaptureExpiry lane s
  | .c2Attempt heat => Sys2Proof.Machine.execC2Attempt heat s
  | .billetFinal heat => Sys2Proof.Machine.execBilletFinal heat s
  | .c3Decode => Sys2Proof.Machine.execC3Decode s
  | .temperSegmentEnd => Sys2Proof.Machine.execTemperSegmentEnd s
  | .raIdleExpiry => Sys2Proof.Machine.execRaIdleExpiry s
  | .rereadStart => Sys2Proof.Machine.execRereadStart s
  | .rereadPassEnd => Sys2Proof.Machine.execRereadPassEnd s
  | .cuDelivery io => Sys2Proof.Machine.execCuDelivery io s
  | .motionReport e => Sys2Proof.Machine.execMotionReport e s
  | .motionFault => Sys2Proof.Machine.execMotionFault s
  | .heartbeat => Sys2Proof.Machine.execHeartbeat s
  | .mirrorItem m => Sys2Proof.Machine.execMirrorItem m s
  | .standbyVerdict serial j pass crc => Sys2Proof.Machine.execStandbyVerdict serial j pass crc s
  | .twinArmed slotsMatch => Sys2Proof.Machine.execTwinArmed slotsMatch s
  | .peerSilentAtBoot => Sys2Proof.Machine.execPeerSilentAtBoot s
  | .m2Silence => Sys2Proof.Machine.execM2Silence s
  | .peerFault => Sys2Proof.Machine.execPeerFault s
  | .handover => Sys2Proof.Machine.execHandover s
  | .claimRefusedTimeout => Sys2Proof.Machine.execClaimRefusedTimeout s
  | .twinTakeover => Sys2Proof.Machine.execTwinTakeover s
  | .replayedCompletions => Sys2Proof.Machine.execReplayedCompletions s
  | .debugUnlock => Sys2Proof.Machine.execDebugUnlock s
  | .acquireMarkAccepted lane => Sys2Proof.Machine.execAcquireMarkAccepted lane s
  | .m2TrainingComplete rate owned copyMib => Sys2Proof.Machine.execM2TrainingComplete rate owned copyMib s
  | .streamingSingletonFault cls => Sys2Proof.Machine.execStreamingSingletonFault cls s
  | .smithyLockstepFault pair => Sys2Proof.Machine.execSmithyLockstepFault pair s
  | .dailySingletonTest failed => Sys2Proof.Machine.execDailySingletonTest failed s
  | .fwCommitComplete => Sys2Proof.Machine.execFwCommitComplete s

end Sys2Proof.Machine
end

