-- ==== Sys2Proof/Safety.lean ====
section
/-! DEFINITION. What claims are stated in: the shape every state of a run keeps, which parts of the state a command leaves alone, the
answer of a mailbox, the report of an event, and a run that never stops. -/

namespace Sys2Proof.Machine

/-- The shape of a state: the Hearth's contents are in canonical form, and there are as many mailboxes, pairs, MSI-X entries, ports, DDR5
channels, Anvil channels, lanes, KEK slots and data-key slots as the manual gives (R36, R149, R277, R280, R336, R366, R401, Table 09-3). -/
structure State.Shape (s : State) : Prop where
  mem : Mem.wf s.hearth.mem
  mail : s.mail.length = 16
  pairs : s.pairs.length = 256
  msix : s.glob.msix.length = 257
  ports : s.tongs.ports.length = 18
  chans : s.hearth.chans.length = 8
  anvil : s.anvil.chans.length = 1024
  lanes : s.rd.lanes.length = 1024
  keks : s.sec.keks.length = 4
  slots : s.sec.slots.length = 64

/-- A run of `n` steps ends in a state: nothing stopped it. -/
def runs (n : Nat) (s : State) : Prop := ∃ t, Host.Core.run Sys2Proof.core n s = .next t

/-! ## Frames -/

/-- The parts of the state a frame names. `jnl` is the journal unit but for its stream; `glob` the host interface's registers with the
MSI-X table, but for pending bits. -/
inductive Block where
  | queue | pins | time | glob | evq | pairs | arb | motion | mail | params | recs | cart | forge | anvil | heat | blw | rd | servo
  | tongs | hearth | sec | comp | units | twin | jnl | bench | fw | pwr | pvt
deriving DecidableEq, Repr

/-- The host interface's registers with pending interrupts left out. -/
def Glob.quiet (g : Glob) : Glob := { g with msix := g.msix.map (fun e => { e with pending := false }), mbSignal := false }

/-- The journal unit with the entries of its stream and their counters left out. -/
def Journal.quiet (j : Journal) : Journal := { j with entries := [], seqs := [], head := 0, wraps := 0, lost := 0 }

/-- Two states agree on a part. -/
def Block.same (b : Block) (s t : State) : Prop :=
  match b with
  | .queue => t.pending = s.pending
  | .pins => t.pins = s.pins
  | .time => t.time = s.time
  | .glob => t.glob.quiet = s.glob.quiet
  | .evq => t.evq = s.evq
  | .pairs => t.pairs = s.pairs
  | .arb => t.arb = s.arb
  | .motion => t.motion = s.motion
  | .mail => t.mail = s.mail
  | .params => t.params = s.params
  | .recs => t.recs = s.recs
  | .cart => t.cart = s.cart
  | .forge => t.forge = s.forge
  | .anvil => t.anvil = s.anvil
  | .heat => t.heat = s.heat
  | .blw => t.blw = s.blw
  | .rd => t.rd = s.rd
  | .servo => t.servo = s.servo
  | .tongs => t.tongs = s.tongs
  | .hearth => t.hearth = s.hearth
  | .sec => t.sec = s.sec
  | .comp => t.comp = s.comp
  | .units => t.units = s.units
  | .twin => t.twin = s.twin
  | .jnl => t.jnl.quiet = s.jnl.quiet
  | .bench => t.bench = s.bench
  | .fw => t.fw = s.fw
  | .pwr => t.pwr = s.pwr
  | .pvt => t.pvt = s.pvt

/-- The frame of a command: every part but the listed ones is as it was. Besides, the outputs only grow; entries may join the journal's
stream, interrupts become pending, free values be drawn. -/
def Only (bs : List Block) (s t : State) : Prop := s.out <+: t.out ∧ ∀ b : Block, b ∉ bs → b.same s t

/-! ## Outputs, events, mailboxes -/

/-- What a command has put out. -/
def State.newOut (s t : State) : List Output := t.out.drop s.out.length

/-- An event of a code with its arguments has been reported: its entry is written in the event ring, or waits among the held events, on
its own or merged into one of its code (R293). -/
def Reported (code a b : Nat) (s t : State) : Prop :=
  (∃ e ph, Output.event e ph ∈ s.newOut t ∧ e.code = BitVec.ofNat 16 code ∧ e.a = a ∧ e.b = b) ∨
  (∃ h ∈ t.evq.held, h.code = BitVec.ofNat 16 code ∧
    ((h.a = a ∧ h.b = b) ∨ ∃ g ∈ s.evq.held, g.code = h.code ∧ g.count < h.count))

/-- A mailbox command of an opcode is served at once: the formatter is ready and not fatal, the mailbox is not BUSY, and neither power
state nor activation makes it wait (R337, R340, R354, R358, R359). -/
structure State.Serves (s : State) (op : Nat) (r : MbReq) : Prop where
  mail : s.mail.length = 16
  ready : s.glob.ready = true
  alive : s.glob.fatal = false
  idle : (s.mbox r.mb).state ≠ 1
  awake : s.goWakes op = false
  now : s.mbWaits op = false

/-- The request of a mailbox command (Table 12-5). -/
def requestOf? (c : Instr) : Option MbReq :=
  match c with
  | .stateSummary r | .paramGet r | .paramSet r | .qpCreate r | .qpDelete r | .cartLoad r | .cartUnload r | .ledgerGet r |
  .ledgerStored r | .eodSearch r | .readChannelStats r | .servoStatus r | .compressStats r | .scrub r | .scaleLogRead r |
  .hearthChannelStatus r | .secGetIdentity r | .secChallenge r | .secLogin r | .secLogout r | .secKeyAgree r | .secCommission r |
  .secSetAuth r | .secKekLoad r | .secKekErase r | .secKeyLoad r | .secKeyErase r | .secSlotInfo r | .secSetMode r | .secZeroize r |
  .secSelftest r | .fwInfo r | .fwDownload r | .fwCommit r | .fwActivate r | .powerSet r | .selftestStart r | .selftestAbort r |
  .selftestResult r | .calExport r | .calWrite r | .laneStatus r | .unitControl r | .twinPair r | .twinSwap r | .twinStatus r |
  .benchControl r | .snapshotRead r => some r
  | _ => none

/-- A request carries no flag and a zero reserved word (R339, R480). -/
def Plain (r : MbReq) : Prop := r.rsv = 0 ∧ r.flags = 0

/-- A mailbox after a GO that has been answered (R337, Table 12-2, Table 12-4). -/
def Mailbox.answered (op : Nat) (r : MbReq) (st : BitVec 16) (detail : Nat) (payload : Bytes) (b : Mailbox) : Mailbox :=
  { b with state := 2, lastSeq := BitVec.ofNat 16 r.seq.toNat, seq := r.seq, opcode := BitVec.ofNat 16 op, req := none, held := false,
           status := st, detail := BitVec.ofNat 16 detail, payload := payload }

/-- A mailbox after a GO of a command that is still running: BUSY (R337). -/
def Mailbox.busy (op : Nat) (r : MbReq) (b : Mailbox) : Mailbox :=
  { b with state := 1, lastSeq := BitVec.ofNat 16 r.seq.toNat, seq := r.seq, opcode := BitVec.ofNat 16 op, req := some r, held := false }

/-- The request's mailbox holds the response, its DONE has gone out, no other mailbox has changed. -/
def Answered (op : Nat) (r : MbReq) (st : BitVec 16) (detail : Nat) (payload : Bytes) (s t : State) : Prop :=
  t.mail = modAt s.mail r.mb (Mailbox.answered op r st detail payload) ∧ Output.response r.mb ∈ s.newOut t
    ∧ ((s.mbox r.mb).intEnable = true → t.glob.mbSignal = true)

/-- The request's mailbox is BUSY with it, no other mailbox has changed, no response has gone out. -/
def Underway (op : Nat) (r : MbReq) (s t : State) : Prop :=
  t.mail = modAt s.mail r.mb (Mailbox.busy op r) ∧ ∀ m, Output.response m ∉ s.newOut t

/-! ## Record commands, interrupts -/

/-- A record command of opcode `op` is due: the outstanding command `c` of pair `p` has been admitted, the pair is not in the error state
and its completion entries can be written, no security self-test holds it, and the checks common to all commands pass (R291, R309, R480). -/
structure State.Executes (s : State) (op : Nat) (q : Fin 256) (tag : BitVec 16) (io : Io) (c : Cmd) (p : Pair) : Prop where
  cmd : s.cmd? q tag.toNat = some c
  pair : s.pair? q = some p
  code : c.op = op
  admitted : c.admitted = true
  live : p.error = false
  served : s.sec.state ≠ .selfTest
  writes : io.cqFail = false
  checks : s.commonCheck c p.rev = none

/-- The command of a pair and tag is complete: its completion entry is out with a status, a result and, above revision 1, a result
extension; it is outstanding no longer; no other pair has changed (R283, R290). -/
def Completed (q tag : Nat) (st : BitVec 16) (res ext : Nat) (s t : State) : Prop :=
  (∃ c, Output.completion c ∈ s.newOut t ∧ c.pair = q ∧ c.tag = tag ∧ c.status = st ∧ c.result = BitVec.ofNat 64 res ∧
    (∀ p, s.pair? q = some p → p.rev ≠ 1 → c.ext = BitVec.ofNat 32 ext)) ∧
  t.cmd? q tag = none ∧ ∀ q', q' ≠ q → t.pair? q' = s.pair? q'

/-- Vector `v` has been signalled: its message is out, or its pending bit is set (R285). -/
def Signalled (v : Nat) (s t : State) : Prop :=
  Output.msix v ∈ s.newOut t ∨ ∃ e, t.glob.msix[v]? = some e ∧ e.pending = true

end Sys2Proof.Machine
end

