-- ==== Sys2Proof/Certificates/Slice0/Obligations.lean ====
section
/-! DEFINITION. Statements for the provers: what the rules of the spec say the commands do, each with its frame. -/

open Sys2Proof Sys2Proof.Machine

/-- A step takes the command at the front of the queue and runs it with the queue's rest. Rests on 01_architecture.md, R337. -/
def Obligations.StepRunsFront : Prop :=
  ∀ (s : State) (c : Instr) (r : List Instr), s.pending = c :: r → step s = exec c { s with pending := r }

/-- On an empty queue a step is one cycle of the 400 MHz clock (log 1): the counter gains I and nothing but the time unit and PPS_OUT
moves. Rests on R459, R464, R471. -/
def Obligations.EmptyQueueTick : Prop :=
  ∀ s : State, s.pending = [] → ∃ t, step s = .next t ∧
    (s.glob.phase = .inReset → t = s) ∧
    (s.glob.phase ≠ .inReset → 0 ≤ s.time.total + s.time.slewStep →
      s.time.total + (163840 * 2 ^ 24 + s.time.adj.toInt) * 125 + s.time.slewStep < 2 ^ 48 * 1000000000 * subPerNs →
      t.time.total = s.time.total + (163840 * 2 ^ 24 + s.time.adj.toInt) * 125 + s.time.slewStep) ∧
    t.time.slewLeft = (if s.glob.phase = .inReset then s.time.slewLeft else s.time.slewLeft - s.time.slewStep) ∧
    t.pins = { s.pins with ppsOut := t.pins.ppsOut, ppsLeft := t.pins.ppsLeft } ∧ Only [.time, .pins] s t

/-- No command's effect touches the queue of waiting commands. Rests on 01_architecture.md. -/
def Obligations.QueueUntouched : Prop :=
  ∀ (c : Instr) (s t : State), exec c s = .next t → t.pending = s.pending

/-- After power-on reset the machine has its shape, waits for BOOT, drives neither write gate nor ALERT_N, and holds no pair, key, record,
port or cartridge. Rests on R471, R36, R149, R280, R336, R366, R401, R474, Table 10-6. -/
def Obligations.ShapeAtReset : Prop :=
  let s := State.reset
  s.Shape ∧ s.pending = [] ∧ s.glob.phase = .inReset ∧ s.glob.ready = false ∧ s.glob.enabled = false ∧ s.glob.fatal = false ∧ s.time.total = 0 ∧
    (∀ b ∈ s.mail, b.state = 0 ∧ b.lastSeq = 0) ∧ (∀ q, s.pair? q = none) ∧ (∀ k ∈ s.sec.keks, k = none) ∧
    (∀ k ∈ s.sec.slots, k.cur = none ∧ k.old = none) ∧ s.recs.recs = [] ∧ s.recs.cmds = [] ∧ s.cart.loaded = false ∧ s.hearth.mem = [] ∧
    (∀ p ∈ s.tongs.ports, p.state = 0) ∧ (∀ p : Port, s.gateOut p = false) ∧ s.alertLow = false

/-- Every step keeps the shape of the machine: canonical Hearth contents, and as many mailboxes, pairs, ports, channels and key slots as
there are. Rests on R36, R149, R277, R280, R336, R366, R401, R395, R306. -/
def Obligations.ShapeKept : Prop :=
  ∀ s t : State, s.Shape → step s = .next t → t.Shape

/-- FATAL, once set, stays and holds the write gate low until power-on reset or the boot that follows it, whatever command comes. Rests on
R457, R471, R470, R476, R478. -/
def Obligations.FatalHoldsGate : Prop :=
  let Safe := fun (s : State) => s.glob.fatal = true → s.pins.gateLocked = true
  Safe State.reset ∧
  (∀ (c : Instr) (s t : State), Safe s → exec c s = .next t → Safe t) ∧
  ∀ (c : Instr) (s t : State), Safe s → s.glob.fatal = true → exec c s = .next t →
    (∀ p, c ≠ .powerOnReset p) → (∀ e, c = .boot e → s.glob.phase ≠ .inReset) →
    t.glob.fatal = true ∧ t.alertLow = true ∧ ∀ p : Port, t.gateOut p = false

/-- No command moves the time counter but the time unit's own, a register write, and power-on reset with the boot that ends it. Rests on
R459, R460, R461, R462, R463, R471. -/
def Obligations.TimeKept : Prop :=
  ∀ (c : Instr) (s t : State), exec c s = .next t →
    (match c with
      | .powerOnReset _ | .boot _ | .ppsInEdge _ | .ppsInMissed | .timeSet | .timeStep | .timeSlew | .slewEnd | .timeFreqWrite _ | .timeNsRead
      | .registerWrite _ _ _ _ _ => True
      | _ => t.time = s.time)

/-- No key, KEK or role key changes but by a security command, a register write, the tamper pin, power-on reset, or a held request's
service. Rests on R254, R255, R261, R262, R264, R271, R275, R363. -/
def Obligations.KeysKept : Prop :=
  ∀ (c : Instr) (s t : State), exec c s = .next t →
    (match c with
      | .powerOnReset _ | .boot _ | .tamperNAssert | .secCommission _ | .secSetAuth _ | .secKekLoad _ | .secKekErase _ | .secKeyLoad _
      | .secKeyErase _ | .secSetMode _ | .secZeroize _ | .secZeroizeFullWrite | .secZeroizeSlotWrite _ | .registerWrite _ _ _ _ _
      | .d0Transition | .secSelftestEnd _ _ _ | .blackoutStart | .firmwareReady | .activationFallback | .actDrainMaxExpiry
      | .powerEntryComplete | .keyEraseComplete _ | .debugUnlock => True
      | _ => t.sec.coKey = s.sec.coKey ∧ t.sec.userKey = s.sec.userKey ∧ t.sec.keks = s.sec.keks ∧
          t.sec.slots.map (fun k => k.cur.map (fun g => (g.key, g.label))) = s.sec.slots.map (fun k => k.cur.map (fun g => (g.key, g.label))))

/-- Bytes written to staged chunks are read back from the Hearth, and every other byte of it reads as before. Rests on R306, R370, R371,
R395. -/
def Obligations.StagedWriteReads : Prop :=
  ∀ (h : Hearth) (chunks : List (Nat × Nat)) (o : Nat) (d : Bytes), Mem.wf h.mem →
    (∀ a, (∀ i < d.length, ∀ c, assocGet chunks ((o + i) / h.G) = some c → a ≠ c * h.G + (o + i) % h.G) →
      Mem.read (h.stageWrite chunks o d).mem a = Mem.read h.mem a) ∧
    ((∀ i < d.length, (assocGet chunks ((o + i) / h.G)).isSome) → (chunks.map Prod.snd).Nodup →
      (h.stageWrite chunks o d).stageRead chunks o d.length = d)

/-- POWER_ON_RESET puts every register, field and volatile key at its reset value; only pins driven from outside keep their level. Where
the spec gives no reset value, State.reset's is the model's choice (log 6). Rests on R471, R363, R459, R254. -/
def Obligations.PowerOnResetClears : Prop :=
  ∀ (pwrgood : Bool) (s : State), ∃ t, exec (.powerOnReset pwrgood) s = .next t ∧
    t.pins = { State.reset.pins with tamperLow := s.pins.tamperLow, pwrgood := pwrgood, refs := pwrgood } ∧
    t.glob = State.reset.glob ∧ t.jnl = State.reset.jnl ∧ t.pending = s.pending ∧ t.out = s.out ∧ Only [.queue, .pins] State.reset t

/-- BOOT leads from power-on reset to READY with a verified image and enough DDR5 channels, and to FATAL without either. Rests on R473,
R474, R472, R276, R384, R388, R395, R457. -/
def Obligations.BootRunsOrStops : Prop :=
  ∀ (e : BootEnv) (s : State),
    let u := (s.cleared true).bootInputs e
    let good := fun (one : Bool) => u.fwFault (if one then e.cert1 else e.cert0) (u.fw.slot one) = none
    let trained := fun (c : Nat) => (e.chans.getD c {}).ok = true
    let enough := 4 ≤ ((List.range 8).filter (fun c => (e.chans.getD c {}).ok)).length ∧
      (u.hearth.mirror = true → ∀ k < 4, trained (2 * k) ∨ trained (2 * k + 1))
    (s.glob.phase = .inReset → (good false ∨ good true) → enough →
      ∃ t, exec (.boot e) s = .next t ∧ t.glob.phase = .running ∧ t.glob.ready = true ∧ t.glob.enabled = false ∧ t.glob.fatal = false ∧
        t.glob.serial = fit 16 e.serial ∧ t.hearth.mem = [] ∧ t.hearth.filled = true ∧ t.pins.pwrgood = true ∧ t.pins.gateLocked = false ∧
        (good u.fw.bootSlot → t.fw.running.toNat = fwVersion (u.fw.slot u.fw.bootSlot) % 2 ^ 64 ∧ t.fw.bootSlot = u.fw.bootSlot) ∧
        (¬ good u.fw.bootSlot → t.fw.running.toNat = fwVersion (u.fw.slot (!u.fw.bootSlot)) % 2 ^ 64 ∧ t.fw.bootSlot = !u.fw.bootSlot) ∧
        Only [.queue, .pins, .glob, .evq, .cart, .fw, .hearth, .sec, .tongs, .twin, .units] State.reset t) ∧
    (s.glob.phase = .inReset → ¬ ((good false ∨ good true) ∧ enough) →
      ∃ t, exec (.boot e) s = .next t ∧ t.glob.phase = .bootFailed ∧ t.glob.fatal = true ∧ t.glob.ready = false ∧ t.pins.gateLocked = true) ∧
    (s.glob.phase ≠ .inReset → ∃ t, exec (.boot e) s = .next t ∧ t = s)

/-- TAMPER_N low destroys every volatile key at once; its release seeds the DRBG again; DEBUG_UNLOCK zeroizes and opens the debug bridge.
Rests on R271, R266, R267, R261, R475. -/
def Obligations.TamperPinZeroizes : Prop :=
  ∀ s : State,
    let gone := fun (t : State) => (∀ k ∈ t.sec.slots, k.cur = none ∧ k.old = none) ∧ (∀ k ∈ t.sec.keks, k = none) ∧ t.sec.coKey = none ∧
      t.sec.userKey = none ∧ (∀ b ∈ t.mail, b.role = 0 ∧ b.ktk = none) ∧
      t.sec.state = (if s.sec.state = .operational then .uncommissioned else s.sec.state) ∧ t.sec.intStatus.getLsbD 0 = true
    let rest := [Block.mail, .sec, .evq, .anvil, .blw, .cart, .forge, .hearth, .heat, .motion, .pairs, .params, .rd, .recs]
    (s.sec.slots.length = 64 →
      (∃ t, exec .tamperNAssert s = .next t ∧ gone t ∧ t.sec.drbg = false ∧ t.sec.identity = false ∧ t.sec.intStatus.getLsbD 1 = true ∧
        t.pins = { s.pins with tamperLow := true } ∧ Only (.pins :: rest) s t) ∧
      (∃ t, exec .debugUnlock s = .next t ∧ gone t ∧ t.sec.debug = true ∧ Only rest s t)) ∧
    (∃ t, exec .tamperNRelease s = .next t ∧ t.pins = { s.pins with tamperLow := false } ∧
      t.sec = { s.sec with drbg := true, identity := true } ∧ Only [.pins, .sec] s t)

/-- A clock or rail fault sets FATAL, locks the write gate and drives ALERT_N; an armed active first releases its ports and tells its
peer. Rests on R457, R470, R478, R442. -/
def Obligations.ClockAndRailFaultsStop : Prop :=
  ∀ (c : Instr) (s : State), c = .clockMonitorFault ∨ (c = .railFault ∧ s.pins.pwrgood = true) →
    (s.glob.phase = .inReset → exec c s = .next s) ∧
    (s.glob.phase ≠ .inReset → ∃ t, exec c s = .next t ∧ t.glob.fatal = true ∧ t.pins = { s.pins with gateLocked := true } ∧
      t.heat.gate = false ∧ t.alertLow = true ∧ t.glob = { s.glob with fatal := true } ∧
      (s.armedActive = true → Output.peerFault ∈ s.newOut t ∧ (∀ p ∈ t.tongs.ports, p.owner = false ∧ p.release = true) ∧ t.twin.role = 2 ∧
        Only [.pins, .glob, .heat, .tongs, .anvil, .forge, .blw, .twin] s t) ∧
      (s.armedActive = false → t.heat = { s.heat with gate := false } ∧ Only [.pins, .glob, .heat] s t))

/-- PVT_SAMPLE acts on the highest reading: THERMAL at 100 and 105 °C, re-armed below 95 °C, speed cap from 105 to 100 °C, trip at 115 °C.
Rests on R476, R457, R478. -/
def Obligations.TemperatureLimits : Prop :=
  ∀ (r : Int) (rest : List Int) (s : State), s.glob.phase ≠ .inReset →
    let m := rest.foldl max r
    ∃ t, exec (.pvtSample (r :: rest)) s = .next t ∧ t.pvt.temp = m ∧
      t.pvt.armed = (if 800 ≤ m then false else if m < 760 then true else s.pvt.armed) ∧
      t.pvt.cap = (if 840 ≤ m then true else if m < 800 then false else s.pvt.cap) ∧
      (800 ≤ m → s.pvt.armed = true → m < 920 → Reported 0x0409 (ofSigned 64 m) 0 s t) ∧
      (920 ≤ m → s.pvt.trip = false → t.pvt.trip = true ∧ t.glob.fatal = true ∧ t.pins.gateLocked = true ∧ t.heat.gate = false ∧ t.alertLow = true) ∧
      (m < 920 → t.pvt.trip = s.pvt.trip ∧ Only [.pvt, .evq] s t)

/-- The loss of one UCIe module degrades the link and posts LINK_DEGRADED; the function and its state survive. Rests on R276. -/
def Obligations.HostLinkLoss : Prop :=
  ∀ (m : Bool) (s : State),
    (s.glob.m0Up = true → s.glob.m1Up = true → ∃ t, exec (.ucieModuleLoss m) s = .next t ∧
      t.glob.quiet = { s.glob with m0Up := m, m1Up := !m, linkDegraded := true }.quiet ∧
      Reported 0x0502 (if m then 1 else 2) s.glob.rate s t ∧ Only [.glob, .evq] s t) ∧
    ((if m then s.glob.m1Up else s.glob.m0Up) = false → exec (.ucieModuleLoss m) s = .next s) ∧
    (s.glob.m0Up = !m → s.glob.m1Up = m → ∃ t, exec (.ucieModuleLoss m) s = .next t ∧
      t.glob.quiet = { s.glob with m0Up := false, m1Up := false }.quiet ∧ Only [.glob] s t)

/-- SET, STEP and SLEW act on the counter as R462 says, and reject what it says they reject; a TIME_FREQ write changes ADJ alone. Rests on
R462, R459, R460. -/
def Obligations.TimeCommandsMoveCounter : Prop :=
  ∀ s : State,
    (∃ t, exec .timeSet s = .next t ∧ Only [.time] s t ∧
      (s.time.setNs.toNat < 1000000000 → t.time.sec = s.time.setSec ∧ t.time.ns = s.time.setNs ∧ t.time.sub = 0 ∧ t.time.valid = true ∧
        t.time.slewing = false ∧ t.time.slewLeft = 0 ∧ t.time.setRejected = false) ∧
      (1000000000 ≤ s.time.setNs.toNat → t.time = { s.time with setRejected := true, stepRejected := t.time.stepRejected })) ∧
    (∃ t, exec .timeStep s = .next t ∧ Only [.time] s t ∧
      (0 ≤ s.time.total + s.time.phase.toInt * subPerNs → s.time.total + s.time.phase.toInt * subPerNs < 2 ^ 48 * 1000000000 * subPerNs →
        t.time.total = s.time.total + s.time.phase.toInt * subPerNs ∧ t.time.slewing = false ∧ t.time.slewLeft = 0 ∧ t.time.stepRejected = false) ∧
      (s.time.total + s.time.phase.toInt * subPerNs < 0 →
        t.time = { s.time with stepRejected := true, setRejected := t.time.setRejected })) ∧
    (∃ t, exec .timeSlew s = .next t ∧ Only [.time] s t ∧ t.time.total = s.time.total ∧
      (s.time.phase.toInt.natAbs ≤ 1000000 → t.time.slewLeft = s.time.phase.toInt * subPerNs ∧ (t.time.slewing = true ↔ s.time.phase ≠ 0)) ∧
      (1000000 < s.time.phase.toInt.natAbs → t.time = s.time)) ∧
    (s.time.slewing = true → 0 ≤ s.time.total + s.time.slewLeft → s.time.total + s.time.slewLeft < 2 ^ 48 * 1000000000 * subPerNs →
      ∃ t, exec .slewEnd s = .next t ∧ Only [.time] s t ∧ t.time.slewing = false ∧ t.time.slewLeft = 0 ∧
        t.time.total = s.time.total + s.time.slewLeft) ∧
    (∀ v, ∃ t, exec (.timeFreqWrite v) s = .next t ∧ t.time = { s.time with adj := v } ∧ Only [.time] s t)

/-- TIME_NS read latches, PPS_IN edges capture and count, a missed edge is flagged, PPS_OUT pulses for its width while enabled. Rests on
R461, R463, R464. -/
def Obligations.TimeReadsAndPpsCapture : Prop :=
  ∀ s : State,
    (∃ t, exec .timeNsRead s = .next t ∧ t.time = { s.time with latSec := s.time.sec, latFrac := s.time.frac } ∧
      Output.regValue 0x50000 (s.time.ns.setWidth 64) ∈ s.newOut t ∧ Only [.time] s t) ∧
    (∀ steps : Fin 32, s.time.sec.toNat < 2 ^ 48 - 1 → s.time.ns.toNat < 1000000000 → s.time.sub < subPerNs →
      ∃ t, exec (.ppsInEdge steps) s = .next t ∧ Only [.time] s t ∧ t.time.ppsCount = s.time.ppsCount + 1 ∧ t.time.ppsSeen = true ∧
        t.time.ppsMissed = false ∧ t.time.total = s.time.total ∧
        1000000000 * (t.time.ppsSec.toNat : Int) + t.time.ppsNs.toNat =
          (s.time.total + 5120 * 125 * 2 ^ 24 * (steps.val : Int)) / subPerNs ∧
        (t.time.ppsFrac.toNat : Int) = (s.time.total + 5120 * 125 * 2 ^ 24 * (steps.val : Int)) % subPerNs / (125 * 2 ^ 24)) ∧
    (s.time.ppsSeen = true → ∃ t, exec .ppsInMissed s = .next t ∧ t.time = { s.time with ppsSeen := false, ppsMissed := true } ∧ Only [.time] s t) ∧
    (∃ t, exec .ppsOutPulse s = .next t ∧ Only [.pins] s t ∧
      (s.time.ppsOutCtl.getLsbD 0 = false → t.pins = s.pins) ∧
      (s.time.ppsOutCtl.getLsbD 0 = true → t.pins = { s.pins with ppsOut := decide (s.time.ppsOutCtl.toNat / 256 % 256 ≠ 0),
                                                                  ppsLeft := 400000 * (s.time.ppsOutCtl.toNat / 256 % 256) }))

/-- A speed request moves SPD_REQ by one step and waits; only a rise of SPD_ACK after its fall acknowledges it; SPEED_TIMEOUT is a cause.
Rests on R142, R143, R144, R148. -/
def Obligations.SpeedHandshake : Prop :=
  ∀ s : State,
    (s.streams = true → s.pins.spdAck = true → s.blw.ackPending = false → s.nextLevel ≠ s.pins.spdReq.toNat →
      ∃ t, exec .speedRequest s = .next t ∧ t.pins = { s.pins with spdReq := BitVec.ofNat 2 s.nextLevel } ∧
        (t.pins.spdReq.toNat = s.pins.spdReq.toNat + 1 ∨ t.pins.spdReq.toNat + 1 = s.pins.spdReq.toNat) ∧
        t.blw = { s.blw with ackPending := true, fell := false } ∧ Only [.pins, .blw] s t) ∧
    (∃ t, exec .spdAckFall s = .next t ∧ t.pins = { s.pins with spdAck := false } ∧
      t.blw = { s.blw with fell := s.blw.fell || s.blw.ackPending } ∧ Only [.pins, .blw] s t) ∧
    (∃ t, exec .spdAckRise s = .next t ∧ t.pins = { s.pins with spdAck := true } ∧ Only [.pins, .blw] s t ∧
      (s.blw.ackPending = true → s.blw.fell = true → s.streams = true →
        t.blw = { s.blw with speedCur := s.pins.spdReq, ackPending := false, fell := false }) ∧
      (s.blw.fell = false → t.blw = s.blw)) ∧
    (s.streams = true → s.blw.ackPending = true → ∃ t, exec .speedTimeout s = .next t ∧
      t.blw = { s.blw with intStatus := s.blw.intStatus ||| 2 } ∧
      (s.blw.intStatus.getLsbD 1 = false → s.blw.intMask.getLsbD 1 = true → Reported 0x0101 0 0 s t) ∧ Only [.blw, .evq] s t)

/-- Function reset ends requests, commands, pairs, writing and records, and keeps keys, parameters, cartridge, journal and time unit.
Rests on R363, R14, R127, R331, R357. -/
def Obligations.FunctionResetKeepsAndClears : Prop :=
  ∀ s : State, ∃ t, exec .functionReset s = .next t ∧
    (∀ b ∈ t.mail, b.state = 0 ∧ b.role = 0 ∧ b.ktk = none ∧ b.req = none) ∧ (∀ p ∈ t.pairs, p = none) ∧
    t.recs.cmds = [] ∧ t.recs.syncs = [] ∧ t.rd.jobs = [] ∧ t.rd.locate = none ∧
    (∀ x ∈ t.recs.recs, x.state ≠ .opened ∧ x.state ≠ .sealed) ∧ t.forge.writing = false ∧ t.heat.gate = false ∧
    t.evq.enable = false ∧ t.evq.error = false ∧ t.glob.enable = false ∧ t.glob.enabled = false ∧ t.glob.shutdown = 0 ∧
    t.glob.fatal = s.glob.fatal ∧ t.glob.ready = s.glob.ready ∧ t.glob.doorbellErrors = s.glob.doorbellErrors ∧
    t.blw.intStatus = 0 ∧ t.blw.intMask = 0 ∧ t.sec.intStatus = 0 ∧ t.sec.intMask = 0 ∧ t.jnl.control = 3 ∧
    t.sec.coKey = s.sec.coKey ∧ t.sec.userKey = s.sec.userKey ∧ t.sec.keks = s.sec.keks ∧ t.sec.state = s.sec.state ∧
    t.sec.slots.map (fun k => k.cur.map (fun g => (g.key, g.label))) = s.sec.slots.map (fun k => k.cur.map (fun g => (g.key, g.label))) ∧
    t.cart.loaded = s.cart.loaded ∧
    (s.cart.loaded = true → s.forge.writing = true → t.cart.image.sessionOpen = true ∧ t.cart.image.eodValid = false ∧
      ∃ n, t.cart.lastIssued = some n ∧ ∃ h ∈ t.evq.held, h.code = 0x0303) ∧
    Only [.anvil, .arb, .blw, .cart, .evq, .forge, .fw, .glob, .hearth, .heat, .jnl, .mail, .motion, .pairs, .pwr, .rd, .recs, .sec, .twin,
      .units] s t

/-- D3hot enters P3 as POWER_SET would and holds interrupts; the D0 transition wakes to P0 and sends what was held. Rests on R359, R357,
R356, R285. -/
def Obligations.DeviceStatesD3hotAndD0 : Prop :=
  ∀ s : State,
    (s.pwr.entering = none → s.pwr.state ≠ 3 → ∃ t, exec .d3hotEntry s = .next t ∧ t.pwr.d3hot = true ∧ t.pwr.entering = some 3 ∧
      t.pwr.state = s.pwr.state ∧ (s.forge.writing = true → t.forge = { s.forge with ending := true }) ∧
      Only [.pwr, .units, .forge, .motion, .pairs, .evq] s t) ∧
    ((s.pwr.entering ≠ none ∨ s.pwr.state = 3) → ∃ t, exec .d3hotEntry s = .next t ∧ t.pwr = { s.pwr with d3hot := true } ∧ Only [.pwr] s t) ∧
    (s.pwr.entering = none → s.fw.heldMb = [] → s.glob.msix.length = 257 →
      ∃ t, exec .d0Transition s = .next t ∧ t.pwr.state = 0 ∧ t.pwr.d3hot = false ∧
        (∀ e ∈ t.glob.msix, e.pending = true → e.masked = true) ∧
        (s.pwr.state = 0 → t.pwr = { s.pwr with d3hot := false } ∧ Only [.pwr] s t) ∧
        Only [.pwr, .hearth, .mail, .evq] s t)

/-- A doorbell inside its ring moves its index and nothing else; a CQ head at the tail cancels the pending signal. Rests on R281, R283,
R284, R285, R286, R293. -/
def Obligations.DoorbellsMoveIndices : Prop :=
  ∀ (q : Fin 256) (v : BitVec 32) (s : State),
    (∀ p, s.pair? q = some p → p.tailOk v.toNat = true → p.motion = true ∨ (s.pwr.state = 0 ∧ s.pwr.entering = none) →
      ∃ t, exec (.sqTailDoorbell q v) s = .next t ∧ t.pairs = modAt s.pairs q (Option.map (fun p => { p with sqTail := v.toNat, awaitDoorbell := false })) ∧
        Only [.pairs] s t) ∧
    (∀ p, s.pair? q = some p → p.headOk v.toNat = true → p.motion = false →
      ∃ t, exec (.cqHeadDoorbell q v) s = .next t ∧ Only [.pairs] s t ∧ (∀ q', q' ≠ q.val → t.pair? q' = s.pair? q') ∧
        t.pair? q = some { p with cqHead := v.toNat, unsignalled := if v.toNat = p.cqTail then 0 else p.unsignalled } ∧
        (v.toNat = p.cqTail → ∀ e, t.glob.msix[q.val]? = some e → e.pending = false)) ∧
    (v.toNat < s.evq.size → ringDiff s.evq.size v.toNat s.evq.head ≤ ringDiff s.evq.size s.evq.tail s.evq.head → s.evq.held = [] →
      ∃ t, exec (.evqHeadDoorbell v) s = .next t ∧ t.evq = { s.evq with head := v.toNat } ∧ Only [.evq] s t)

/-- A doorbell write that R286 names is ignored, counted in DOORBELL_ERRORS and reported as DOORBELL_INVALID with the pair; indices stay.
Rests on R286. -/
def Obligations.IgnoredDoorbellsAreCounted : Prop :=
  ∀ (q : Fin 256) (v : BitVec 32) (c : Instr) (who : Nat) (s : State),
    (c = .sqTailDoorbell q v ∧ who = q.val ∧ (s.pair? q = none ∨ ∃ p, s.pair? q = some p ∧ p.sqLog ≤ 16 ∧
      (65536 ≤ v.toNat ∨ 2 ^ p.sqLog ≤ v.toNat ∨ 2 ^ p.sqLog - 1 < p.unfetched + ringDiff (2 ^ p.sqLog) v.toNat p.sqTail))) ∨
    (c = .cqHeadDoorbell q v ∧ who = q.val ∧ (s.pair? q = none ∨ ∃ p, s.pair? q = some p ∧ p.cqLog ≤ 16 ∧
      (65536 ≤ v.toNat ∨ 2 ^ p.cqLog ≤ v.toNat ∨ ringDiff (2 ^ p.cqLog) p.cqTail p.cqHead < ringDiff (2 ^ p.cqLog) v.toNat p.cqHead))) ∨
    (c = .evqHeadDoorbell v ∧ who = 0x100 ∧ s.evq.log2.toNat ≤ 16 ∧
      (65536 ≤ v.toNat ∨ 2 ^ s.evq.log2.toNat ≤ v.toNat ∨
        ringDiff (2 ^ s.evq.log2.toNat) s.evq.tail s.evq.head < ringDiff (2 ^ s.evq.log2.toNat) v.toNat s.evq.head)) →
    ∃ t, exec c s = .next t ∧ t.pairs = s.pairs ∧ t.evq.head = s.evq.head ∧
      t.glob.doorbellErrors = satAdd 32 s.glob.doorbellErrors 1 ∧ Reported 0x0500 who v.toNat s t ∧
      t.glob.quiet = { s.glob with doorbellErrors := t.glob.doorbellErrors }.quiet ∧ Only [.glob, .evq] s t

/-- EVQ_CONFIG: without a base or with a size outside 6 to 16 the write is ignored in full and counted; otherwise enable and size take
effect. Rests on R293. -/
def Obligations.EventQueueConfiguration : Prop :=
  ∀ (v : BitVec 32) (s : State),
    let size := v.toNat % 32
    ((v.getLsbD 31 = true ∧ s.evq.baseWritten = false) ∨ size < 6 ∨ 16 < size →
      ∃ t, exec (.evqConfigWrite v) s = .next t ∧ t.glob = { s.glob with doorbellErrors := satAdd 32 s.glob.doorbellErrors 1 } ∧ Only [.glob] s t) ∧
    (¬ ((v.getLsbD 31 = true ∧ s.evq.baseWritten = false) ∨ size < 6 ∨ 16 < size) →
      ∃ t, exec (.evqConfigWrite v) s = .next t ∧ t.evq.enable = v.getLsbD 31 ∧ t.evq.base = s.evq.base ∧
        t.evq.log2 = (if s.evq.enable then s.evq.log2 else BitVec.ofNat 5 size) ∧
        (v.getLsbD 31 = false → t.evq.error = false ∧ t.evq.held = s.evq.held) ∧
        (v.getLsbD 31 = true → s.evq.enable = false → s.evq.held = [] → t.evq.head = 0 ∧ t.evq.tail = 0 ∧ t.evq.phase = true) ∧
        Only [.evq, .recs] s t)

/-- A register write stores what its register keeps, clears the RW1C bits it names, acts as its own command does, or changes nothing.
Rests on R14, R15, R279, R281, R293, R460, R462, R447, R450, R148, R275. -/
def Obligations.RegisterWritesStoreOrAct : Prop :=
  ∀ (v : BitVec 64) (io : Io) (aux : List Int) (s : State), s.glob.phase ≠ .inReset →
    (∀ r ∈ [((0x50010 : BitVec 20), 8, 2 ^ 48 - 1, Block.time), (0x50018, 4, 2 ^ 32 - 1, Block.time), (0x50020, 8, 2 ^ 64 - 1, Block.time),
        (0x50044, 4, 0xFF01, Block.time), (0x50048, 4, 2 ^ 32 - 1, Block.time), (0x60000, 4, 3, Block.jnl), (0x70010, 4, 0x7FF, Block.blw),
        (0x80008, 4, 0x7F, Block.sec)],
      ∃ t, exec (.registerWrite r.1 r.2.1 v io aux) s = .next t ∧ t.readReg r.1.toNat r.2.1 = v.toNat &&& r.2.2.1 ∧ Only [r.2.2.2] s t) ∧
    (∃ t, exec (.registerWrite 0x7000C 4 v io aux) s = .next t ∧ t.blw = { s.blw with intStatus := s.blw.intStatus &&& ~~~(v.setWidth 32) } ∧
      Only [.blw] s t) ∧
    (∃ t, exec (.registerWrite 0x80004 4 v io aux) s = .next t ∧ t.sec = { s.sec with intStatus := s.sec.intStatus &&& ~~~(v.setWidth 32) } ∧
      Only [.sec] s t) ∧
    (∃ t, exec (.registerWrite 0x28 8 v io aux) s = .next t ∧ t.evq.base = (if s.evq.enable then s.evq.base else v &&& ~~~(0xFFF : BitVec 64)) ∧
      Only [.evq] s t) ∧
    (∀ q : Fin 256, exec (.registerWrite (BitVec.ofNat 20 (0x30000 + 8 * q.val)) 4 v io aux) s = exec (.sqTailDoorbell q (v.setWidth 32)) s ∧
      exec (.registerWrite (BitVec.ofNat 20 (0x30004 + 8 * q.val)) 4 v io aux) s = exec (.cqHeadDoorbell q (v.setWidth 32)) s) ∧
    exec (.registerWrite 0x30800 4 v io aux) s = exec (.evqHeadDoorbell (v.setWidth 32)) s ∧
    exec (.registerWrite 0x30 4 v io aux) s = exec (.evqConfigWrite (v.setWidth 32)) s ∧
    exec (.registerWrite 0x5001C 4 1 io aux) s = exec .timeSet s ∧ exec (.registerWrite 0x5001C 4 2 io aux) s = exec .timeStep s ∧
    exec (.registerWrite 0x5001C 4 4 io aux) s = exec .timeSlew s ∧
    exec (.registerWrite 0x50028 4 v io aux) s = exec (.timeFreqWrite (v.setWidth 32)) s ∧
    exec (.registerWrite 0x60018 4 v io aux) s = exec .jnlTrigger s ∧ exec (.registerWrite 0x6001C 4 v io aux) s = exec .jnlResume s ∧
    (∀ (off : BitVec 20) (size : Nat), (off.toNat < 0x10000 ∨ 0x30000 ≤ off.toNat) → (∀ n w, s.regAt off.toNat = some (n, w) → n ≠ size) →
      ∃ t, exec (.registerWrite off size v io aux) s = .next t ∧ Only [] s t)

/-- A fetch grant takes the arbiter's pair: a good entry gets the next arrival number and joins; a bad tag or opcode completes at once; a
failed read stops the pair. Rests on R282, R284, R291, R292, R309, R480. -/
def Obligations.FetchTakesArrivalOrder : Prop :=
  ∀ (f : FetchIo) (s : State),
    (s.choose = none → exec (.fetchGrant f) s = .next s) ∧
    ∀ q a p, s.choose = some (q, a) → s.pair? q = some p →
      (f = .readFailed → ∃ t, exec (.fetchGrant f) s = .next t ∧ t.pair? q = some { p with error := true } ∧ Reported 0x0501 q 0 s t ∧
        (∀ q', q' ≠ q → t.pair? q' = s.pair? q') ∧ Only [.pairs, .evq] s t) ∧
      ∀ b l ok, f = .entry b l ok →
        let e := fit p.sqEntryBytes b
        let c := cmdOf q s.arb.nextGrant e l ok
        p.error = false → q ∉ s.env.cqFail →
        (((s.cmd? q c.tag).isSome ∨ c.op = 0 ∨ 0x0B < c.op) → ∃ t, exec (.fetchGrant f) s = .next t ∧ t.arb.nextGrant = s.arb.nextGrant + 1 ∧
          (t.pair? q).map (·.sqFetch) = some p.advanceSq.sqFetch ∧
          (∃ x, Output.completion x ∈ s.newOut t ∧ x.pair = q ∧ x.tag = c.tag ∧
            x.status = if (s.cmd? q c.tag).isSome then Status.tagInUse else Status.invalidOpcode) ∧ Only [.arb, .pairs] s t) ∧
        (s.cmd? q c.tag = none → 0 < c.op → c.op < 0x0B → s.pwr.state = 0 → s.pwr.entering = none →
          ∃ t d, exec (.fetchGrant f) s = .next t ∧ t.arb.nextGrant = s.arb.nextGrant + 1 ∧ t.pair? q = some p.advanceSq ∧
            t.recs = { s.recs with cmds := s.recs.cmds ++ [d] } ∧ d.pair = q ∧ d.tag = c.tag ∧ d.op = c.op ∧ d.entry = e ∧
            d.arrival = s.arb.nextGrant ∧ (s.recs.cmds = [] → d.admitted = true) ∧ Only [.arb, .pairs, .recs] s t)

/-- A waiting command is admitted exactly when no earlier one holds it back; the coalescing time signals a pair's vector. Rests on R285,
R288, R309. -/
def Obligations.AdmissionAndCoalescing : Prop :=
  (∀ (q : Fin 256) (tag : BitVec 16) (s : State) (c : Cmd), s.cmd? q tag.toNat = some c →
    (s.admissible c = true → ∃ t, exec (.lockAdmission q tag) s = .next t ∧ t.cmd? q tag.toNat = some { c with admitted := true } ∧
      (∀ q' tag', (q' ≠ q.val ∨ tag' ≠ tag.toNat) → t.cmd? q' tag' = s.cmd? q' tag') ∧ t.recs = { s.recs with cmds := t.recs.cmds } ∧
      Only [.recs] s t) ∧
    (s.admissible c = false → exec (.lockAdmission q tag) s = .next s)) ∧
  (∀ (q : Fin 256) (s : State) (p : Pair), s.pair? q = some p → s.glob.msix.length = 257 →
    (p.motion = false → p.unsignalled ≠ 0 → ∃ t, exec (.coalescingTimeExpiry q) s = .next t ∧ t.pair? q = some { p with unsignalled := 0 } ∧
      (∀ q', q' ≠ q.val → t.pair? q' = s.pair? q') ∧ Signalled q s t ∧ Only [.pairs] s t) ∧
    ((p.motion = true ∨ p.unsignalled = 0) → exec (.coalescingTimeExpiry q) s = .next s))

/-- OPEN gives the next number to an OPEN record as its entry describes it; MARK gives it to a record sealed at once. Rests on R298, R304,
R309, R311, R313, R253, R259, R268, R299, R480. -/
def Obligations.OpenAndMarkTakeNumbers : Prop :=
  ∀ (q : Fin 256) (tag : BitVec 16) (io : Io) (s : State) (c : Cmd) (p : Pair),
    let n := s.nextNumber
    let slot := bitsOf c.dwA 8 6
    let due := s.numberTurn c = true ∧ s.numberWaits = false ∧ s.needsSession = false
    let room := (s.recsIn .opened).length < 4096 ∧ 4 * gib ≤ s.capacity
    (s.Executes 0x01 q tag io c p → due → room → bitAt c.dwA 14 = false → s.sec.allowPlain = true →
      ∃ (t : State) (x : Rec), exec (.openRec q tag io) s = .next t ∧ Completed q tag.toNat Status.success n 0 s t ∧ t.rec? n = some x ∧ x.state = .opened ∧
        x.pair = q ∧ x.shared = bitAt c.dwA 15 ∧ x.encrypted = false ∧ x.mark = false ∧ x.extents = [] ∧ x.chunks = [] ∧ x.openTime = s.nowSec ∧
        x.setting = BitVec.ofNat 8 (if c.dwA % 256 = 0 then s.paramN 0x08050100 else c.dwA % 256) ∧ t.recs.next = n + 1 ∧
        (∀ m, m ≠ n → t.rec? m = s.rec? m) ∧ Only [.pairs, .recs] s t) ∧
    (∀ k g, s.Executes 0x01 q tag io c p → due → room → bitAt c.dwA 14 = true → s.sec.slots[slot]? = some k → k.cur = some g → k.erasing = [] →
      ∃ (t : State) (x : Rec), exec (.openRec q tag io) s = .next t ∧ Completed q tag.toNat Status.success n g.gen.toNat s t ∧ t.rec? n = some x ∧
        x.state = .opened ∧ x.pair = q ∧ x.encrypted = true ∧ x.slot = slot ∧ x.gen = g.gen ∧ x.label = g.label ∧ t.recs.next = n + 1 ∧
        t.sec = { s.sec with slots := t.sec.slots } ∧ (∀ i, i ≠ slot → t.sec.slots[i]? = s.sec.slots[i]?) ∧
        (t.sec.slots[slot]?).bind (·.cur) = some { g with users := g.users + 1 } ∧
        (∀ m, m ≠ n → t.rec? m = s.rec? m) ∧ Only [.pairs, .recs, .sec] s t) ∧
    (s.Executes 0x09 q tag io c p → due → 96 ≤ s.capacity → s.tapeFree = false →
      ∃ (t : State) (x : Rec), exec (.mark q tag io) s = .next t ∧ Completed q tag.toNat Status.success n 0 s t ∧ t.rec? n = some x ∧ x.state = .sealed ∧
        x.mark = true ∧ x.pair = q ∧ x.openTime = s.nowSec ∧ t.recs.next = n + 1 ∧ .record n ∈ t.recs.sealQ ∧
        (∀ m, m ≠ n → t.rec? m = s.rec? m) ∧ Only [.pairs, .recs, .blw, .evq] s t)

/-- SEGMENT WRITE stages its data at its offset, extends the extents and touches no other byte; it waits for chunks, and a failed transfer
drops its range. Rests on R305, R306, R307, R370, R372, R373, R394. -/
def Obligations.SegmentWriteStages : Prop :=
  ∀ (q : Fin 256) (tag : BitVec 16) (io : Io) (s : State) (c : Cmd) (p : Pair) (x : Rec),
    let off := c.dwA
    let n := c.xferLen
    s.Executes 0x02 q tag io c p → s.rec? c.num = some x → x.state = .opened → (x.shared = true ∨ x.pair = q) →
    off + n ≤ 4294967280 → (addExtent off (off + n) x.extents).length ≤ 256 →
      (s.hearth.lacking x.chunks off (off + n) = [] → io.ok = true → c.sglOk = true → (x.chunks.map Prod.snd).Nodup →
        (∀ i, i < n → (assocGet x.chunks ((off + i) / s.hearth.G)).isSome) → Mem.wf s.hearth.mem →
        s.hearth.busError ((s.hearth.bursts x.chunks off (off + n)).map Prod.fst) = none →
        ∃ t, exec (.segmentWrite q tag io) s = .next t ∧
          Completed q tag.toNat Status.success n (addExtent off (off + n) x.extents).length s t ∧
          t.rec? c.num = some { x with extents := addExtent off (off + n) x.extents } ∧ (∀ m, m ≠ c.num → t.rec? m = s.rec? m) ∧
          t.hearth.stageRead x.chunks off n = fit n io.data ∧
          (∀ a, (∀ i < n, ∀ k, assocGet x.chunks ((off + i) / s.hearth.G) = some k → a ≠ k * s.hearth.G + (off + i) % s.hearth.G) →
            Mem.read t.hearth.mem a = Mem.read s.hearth.mem a) ∧
          t.hearth = { s.hearth with mem := t.hearth.mem, bad := t.hearth.bad } ∧ Only [.pairs, .recs, .hearth] s t) ∧
      (s.mayAllocate c (s.hearth.lacking x.chunks off (off + n)).length = false →
        ∃ t, exec (.segmentWrite q tag io) s = .next t ∧ t.cmd? q tag.toNat = some { c with waitChunks := true } ∧
          t.recs.recs = s.recs.recs ∧ Only [.recs] s t) ∧
      (s.hearth.lacking x.chunks off (off + n) = [] → io.ok = false →
        ∃ t, exec (.segmentWrite q tag io) s = .next t ∧ Completed q tag.toNat Status.dataTransferError 0 0 s t ∧
          t.rec? c.num = some { x with extents := dropExtent off (off + n) x.extents } ∧ (∀ m, m ≠ c.num → t.rec? m = s.rec? m) ∧
          Only [.pairs, .recs] s t)

/-- Freed chunks go to the waiting write that R373 names: it takes chunks no record held and completes with its data staged. Rests on
R301, R306, R372, R373. -/
def Obligations.StagingChunkGrantServesOneWrite : Prop :=
  ∀ (io : Io) (s : State),
    (s.nextWaiting = none → exec (.stagingChunkGrant io) s = .next s) ∧
    ∀ (c : Cmd) (p : Pair) (x : Rec), s.nextWaiting = some c → s.cmd? c.pair c.tag = some c → s.pair? c.pair = some p → p.error = false →
      io.cqFail = false → c.op = 0x02 → s.rec? c.num = some x → x.state = .opened → (x.shared = true ∨ x.pair = c.pair) →
      c.dwA + c.xferLen ≤ 4294967280 → (addExtent c.dwA (c.dwA + c.xferLen) x.extents).length ≤ 256 →
      s.mayAllocate c (s.hearth.lacking x.chunks c.dwA (c.dwA + c.xferLen)).length = true →
      (io.ok = false ∨ (c.sglOk = true ∧ s.hearth.lacking x.chunks c.dwA (c.dwA + c.xferLen) = [] ∧
        s.hearth.busError ((s.hearth.bursts x.chunks c.dwA (c.dwA + c.xferLen)).map Prod.fst) = none)) →
      ∃ (t : State) (y : Rec), exec (.stagingChunkGrant io) s = .next t ∧
        (if io.ok then Completed c.pair c.tag Status.success c.xferLen (addExtent c.dwA (c.dwA + c.xferLen) x.extents).length s t
          else Completed c.pair c.tag Status.dataTransferError 0 0 s t) ∧
        t.rec? c.num = some y ∧ (∀ e ∈ y.chunks, e ∈ x.chunks ∨ e.2 ∉ s.hearth.used) ∧ (∀ e ∈ x.chunks, e ∈ y.chunks) ∧
        (∀ m, m ≠ c.num → t.rec? m = s.rec? m) ∧ Only [.pairs, .recs, .hearth] s t

/-- SEGMENT READ returns the staged bytes; SEAL closes a record whose extents are its length; ABANDON ends one and frees its staging.
Rests on R305, R308, R311, R312, R314, R299, R119, R372. -/
def Obligations.SegmentReadSealAbandon : Prop :=
  ∀ (q : Fin 256) (tag : BitVec 16) (io : Io) (s : State) (c : Cmd) (p : Pair),
    (∀ x, s.rec? c.num = some x → x.state = .opened → (x.shared = true ∨ x.pair = q) →
      (s.Executes 0x03 q tag io c p → c.isSgl = false → c.sglOk = true → io.ok = true → inExtents c.dwA (c.dwA + c.xferLen) x.extents = true →
        s.hearth.busError ((s.hearth.bursts x.chunks c.dwA (c.dwA + c.xferLen)).map Prod.fst) = none →
        ∃ t, exec (.segmentRead q tag io) s = .next t ∧ Completed q tag.toNat Status.success c.xferLen 0 s t ∧
          Output.dma (BitVec.ofNat 64 c.addr) (s.hearth.stageRead x.chunks c.dwA c.xferLen) ∈ s.newOut t ∧
          t.recs = { s.recs with cmds := t.recs.cmds } ∧ Only [.pairs, .recs] s t) ∧
      (s.Executes 0x03 q tag io c p → c.sglOk = true → inExtents c.dwA (c.dwA + c.xferLen) x.extents = false →
        ∃ t, exec (.segmentRead q tag io) s = .next t ∧ Completed q tag.toNat Status.sequenceError 0 0 s t ∧
          t.recs = { s.recs with cmds := t.recs.cmds } ∧ Only [.pairs, .recs] s t) ∧
      (s.Executes 0x04 q tag io c p → x.extents = (if c.dwA = 0 then [] else [(0, c.dwA)]) → recBound c.dwA ≤ s.capacity → s.tapeFree = false →
        ∃ (t : State) (y : Rec), exec (.seal q tag io) s = .next t ∧ Completed q tag.toNat Status.success (cuCount c.dwA) 0 s t ∧ t.rec? c.num = some y ∧
          y = { x with state := .sealed, len := c.dwA, digestAddr := if p.rev = 3 then BitVec.ofNat 64 c.digest else 0 } ∧
          .record c.num ∈ t.recs.sealQ ∧ (∀ m, m ≠ c.num → t.rec? m = s.rec? m) ∧ Only [.pairs, .recs, .blw, .evq] s t) ∧
      (s.Executes 0x04 q tag io c p → x.extents ≠ (if c.dwA = 0 then [] else [(0, c.dwA)]) →
        ∃ t, exec (.seal q tag io) s = .next t ∧ Completed q tag.toNat Status.sequenceError 0 0 s t ∧
          t.recs = { s.recs with cmds := t.recs.cmds } ∧ Only [.pairs, .recs] s t) ∧
      (s.Executes 0x05 q tag io c p → s.tapeFree = false →
        ∃ (t : State) (y : Rec), exec (.abandon q tag io) s = .next t ∧ Completed q tag.toNat Status.success 0 0 s t ∧ t.rec? c.num = some y ∧
          y.state = .abandoned ∧ y.extents = [] ∧ y.chunks = [] ∧ .record c.num ∉ t.recs.sealQ ∧
          t.hearth = { s.hearth with used := s.hearth.used.filter (fun k => !(x.chunks.map Prod.snd).contains k) } ∧
          (∀ m, m ≠ c.num → t.rec? m = s.rec? m) ∧ Only [.pairs, .recs, .hearth, .sec] s t)) ∧
    (∀ i op, (i = .segmentWrite q tag io ∧ op = 0x02 ∨ i = .segmentRead q tag io ∧ op = 0x03 ∨ i = .seal q tag io ∧ op = 0x04 ∨
        i = .abandon q tag io ∧ op = 0x05) → s.Executes op q tag io c p →
      (s.rec? c.num = none ∨ ∃ x, s.rec? c.num = some x ∧ x.state ≠ .sealed ∧ (x.state ≠ .opened ∨ (x.shared = false ∧ x.pair ≠ q))) →
      ∃ t, exec i s = .next t ∧ Completed q tag.toNat Status.invalidRecord 0 0 s t ∧ t.recs = { s.recs with cmds := t.recs.cmds } ∧
        Only [.pairs, .recs] s t)

/-- SYNC completes at once when all it covers is synced; else it waits in arrival order, and completes when its records are written and
its image is out. Rests on R316, R317, R318, R76. -/
def Obligations.SyncWaitsAndCompletes : Prop :=
  (∀ (q : Fin 256) (tag : BitVec 16) (io : Io) (s : State) (c : Cmd) (p : Pair), s.Executes 0x06 q tag io c p →
    let errs := s.coveredErrors c.syncM
    let idle := ∀ r ∈ s.covered c.syncM, r.state = .synced ∨ r.state = .discarded
    (idle → s.recs.syncs = [] → s.errorsPosted c.syncM = true →
      ∃ t, exec (.sync q tag io) s = .next t ∧ Completed q tag.toNat (((lowestEntry errs).map (·.status)).getD Status.success)
          s.lastImage.syncedLimit ((errs.map (·.num)).eraseDups).length s t ∧
        t.recs.deferred = [] ∧ t.recs.deferredCount = 0 ∧ t.recs.syncs = [] ∧ Only [.pairs, .recs] s t) ∧
    (¬ idle → (∀ y ∈ s.recs.syncs, ¬ (y.pair = c.pair ∧ y.tag = c.tag) ∧ y.arrival < c.arrival) → s.tapeFree = false →
      ∃ (t : State) (y : SyncWait), exec (.sync q tag io) s = .next t ∧ t.recs.syncs = s.recs.syncs ++ [y] ∧ y.pair = q ∧ y.tag = tag.toNat ∧ y.m = c.syncM ∧
        t.recs.recs = s.recs.recs ∧ t.cmd? q tag.toNat = some c ∧ (∀ k, c.syncM = some k → .closeMark k ∈ t.recs.sealQ) ∧ Only [.recs] s t)) ∧
  (∀ (io : Io) (s : State),
    (s.recs.syncs = [] → exec (.syncCompletion io) s = .next s) ∧
    ∀ y r c p, s.recs.syncs = y :: r → s.cmd? y.pair y.tag = some c → s.pair? y.pair = some p → p.error = false → io.cqFail = false →
      ((∃ x ∈ s.covered y.m, x.state = .opened ∨ x.state = .sealed) → ∃ t, exec (.syncCompletion io) s = .next t ∧ Only [] s t) ∧
      ((∀ x ∈ s.covered y.m, x.state = .written ∨ x.state = .synced ∨ x.state = .discarded) →
        s.syncBound y.m ≤ s.lastImage.syncedLimit → s.cart.changed = false → s.issuedHeld = false → s.errorsPosted y.m = true →
        ∃ t, exec (.syncCompletion io) s = .next t ∧
          Completed y.pair y.tag (((lowestEntry (s.coveredErrors y.m)).map (·.status)).getD Status.success) s.lastImage.syncedLimit
            (((s.coveredErrors y.m).map (·.num)).eraseDups).length s t ∧
          (∀ x ∈ t.recs.recs, (∃ k, y.m = some k ∧ x.num ≤ k) → x.state ≠ .written) ∧
          t.recs.deferred = [] ∧ (∀ z ∈ t.recs.syncs, ¬ (z.pair = y.pair ∧ z.tag = y.tag)) ∧ Only [.pairs, .recs] s t))

/-- LOCATE and RECORD READ end a writing first; a LOCATE(write) to the record limit completes at the append position; a read queues behind
earlier ones. Rests on R205, R212, R213, R214, R322, R323, R324, R325, R264. -/
def Obligations.LocateAndRecordReadStart : Prop :=
  ∀ (q : Fin 256) (tag : BitVec 16) (io : Io) (s : State) (c : Cmd) (p : Pair),
    (s.Executes 0x07 q tag io c p → bitAt c.dwA 0 = true → s.recsIn .opened = [] → s.cart.image.eodValid = true →
      c.num = s.cart.image.recordLimit → s.forge.writing = false → s.rd.jobs = [] → s.rd.locate = none → s.cart.searching = false →
      s.cart.eodChecking = false → s.cart.searchPending = false → s.cart.eodChecked = true →
      (∀ d ∈ s.recs.cmds, d.op = 0x07 → d = c) →
      ∃ t, exec (.locate q tag io) s = .next t ∧
        Completed q tag.toNat Status.success (s.cart.appendPos.wrap + s.cart.appendPos.heat * 256) (ofSigned 32 s.cart.appendPos.lpos) s t ∧
        t.recs.startSet = some c.num ∧ t.recs.recs = s.recs.recs ∧ Only [.pairs, .recs, .cart] s t) ∧
    (s.Executes 0x07 q tag io c p → bitAt c.dwA 0 = true → s.recsIn .opened ≠ [] →
      ∃ t, exec (.locate q tag io) s = .next t ∧ Completed q tag.toNat Status.sequenceError 0 0 s t ∧
        t.recs = { s.recs with cmds := t.recs.cmds } ∧ Only [.pairs, .recs] s t) ∧
    (s.Executes 0x07 q tag io c p → bitAt c.dwA 0 = false → s.forge.writing = true →
      ∃ t, exec (.locate q tag io) s = .next t ∧ t.cmd? q tag.toNat = some { c with started := true } ∧
        t.recs = { s.recs with cmds := t.recs.cmds } ∧ t.forge = { s.forge with ending := true } ∧ Only [.recs, .forge] s t) ∧
    (s.Executes 0x08 q tag io c p → s.forge.writing = true → (∀ j ∈ s.rd.jobs, ¬ (j.pair = c.pair ∧ j.tag = c.tag)) →
      bitAt c.dwA 16 = false →
      ∃ (t : State) (j : ReadJob), exec (.recordRead q tag io) s = .next t ∧ t.rd = { s.rd with jobs := s.rd.jobs ++ [j] } ∧ j.pair = q ∧ j.tag = tag.toNat ∧
        j.num = c.num ∧ j.first = c.dwA % 2 ^ 14 ∧ j.count = c.dwB ∧ j.cut = false ∧ j.addr = BitVec.ofNat 64 c.addr ∧ j.len = c.xferLen ∧
        j.report = BitVec.ofNat 64 c.report ∧ t.cmd? q tag.toNat = some { c with started := true } ∧ t.recs.startSet = none ∧
        t.recs.recs = s.recs.recs ∧ t.forge = { s.forge with ending := true } ∧ Only [.recs, .forge, .rd, .cart] s t) ∧
    (s.Executes 0x08 q tag io c p → (∀ j ∈ s.rd.jobs, ¬ (j.pair = c.pair ∧ j.tag = c.tag)) → bitAt c.dwA 16 = true → s.sec.approved = true →
      ∃ t, exec (.recordRead q tag io) s = .next t ∧ Completed q tag.toNat Status.cutThroughRefused 0 0 s t ∧
        t.recs = { s.recs with cmds := t.recs.cmds } ∧ Only [.pairs, .recs] s t)

/-- QUERY returns the 64 bytes of Table 11-6 and the state code; ABORT completes after its target, as decided at its arrival; nothing else
changes. Rests on R327, R329, R289, R480. -/
def Obligations.QueryAndAbortAnswer : Prop :=
  ∀ (q : Fin 256) (tag : BitVec 16) (io : Io) (s : State) (c : Cmd) (p : Pair),
    (s.Executes 0x0A q tag io c p → io.ok = true → c.sglOk = true → c.isSgl = false →
      ∃ t, exec (.query q tag io) s = .next t ∧ Completed q tag.toNat Status.success (s.numberCode c.num) 0 s t ∧
        Output.dma (BitVec.ofNat 64 c.addr) (s.queryBytes c.num) ∈ s.newOut t ∧ (s.queryBytes c.num).length = 64 ∧
        t.recs = { s.recs with cmds := t.recs.cmds } ∧ Only [.pairs, .recs] s t) ∧
    (s.Executes 0x0A q tag io c p → io.ok = false →
      ∃ t, exec (.query q tag io) s = .next t ∧ Completed q tag.toNat Status.dataTransferError 0 0 s t ∧
        t.recs = { s.recs with cmds := t.recs.cmds } ∧ Only [.pairs, .recs] s t) ∧
    (s.Executes 0x0B q tag io c p → (∀ d ∈ s.recs.cmds, some d.arrival ≠ c.target) →
      ∃ t, exec (.abort q tag io) s = .next t ∧
        Completed q tag.toNat (if c.caughtTarget then Status.abortCaught else Status.abortNotCaught) 0 0 s t ∧
        t.recs = { s.recs with cmds := t.recs.cmds } ∧ Only [.pairs, .recs] s t) ∧
    (s.Executes 0x0B q tag io c p → (∃ d ∈ s.recs.cmds, some d.arrival = c.target) →
      ∃ t, exec (.abort q tag io) s = .next t ∧ Only [] s t)

/-- A read of TIME_NS latches TIME_FRAC and TIME_SEC from the same cycle; those registers return the latched values until the next read of
TIME_NS. Rests on R461. -/
def Obligations.TimeReadLatches : Prop :=
  (∀ s : State, ∃ t, exec .timeNsRead s = .next t ∧ Output.regValue 0x50000 (s.time.ns.setWidth 64) ∈ s.newOut t ∧
    t.readReg 0x50004 4 = s.time.frac.toNat ∧ t.readReg 0x50008 8 = s.time.sec.toNat ∧ Only [.time] s t) ∧
  (∀ (c : Instr) (s t : State), exec c s = .next t → c ≠ .timeNsRead → (∀ p, c ≠ .powerOnReset p) → (∀ e, c ≠ .boot e) →
    t.readReg 0x50004 4 = s.readReg 0x50004 4 ∧ t.readReg 0x50008 8 = s.readReg 0x50008 8) ∧
  (∀ s : State, s.tick.readReg 0x50004 4 = s.readReg 0x50004 4 ∧ s.tick.readReg 0x50008 8 = s.readReg 0x50008 8)

/-- A GO to a BUSY mailbox is ignored and counted; one before READY or after FATAL is ignored; writes to a BUSY request buffer are
ignored. Rests on R337, R338, R339, R457, R276. -/
def Obligations.MailboxGoProtocol : Prop :=
  (∀ (c : Instr) (r : MbReq) (s : State), requestOf? c = some r →
    (s.glob.ready = true → s.glob.fatal = false → (s.mbox r.mb).state = 1 →
      ∃ t, exec c s = .next t ∧ t.glob = { s.glob with doorbellErrors := satAdd 32 s.glob.doorbellErrors 1 } ∧ Only [.glob] s t) ∧
    ((s.glob.ready = false ∨ s.glob.fatal = true) → ∃ t, exec c s = .next t ∧ Only [] s t)) ∧
  (∀ (m : Fin 16) (o : Fin 4096) (size : Nat) (v : BitVec 64) (io : Io) (aux : List Int) (s : State), (s.mbox m).state = 1 →
    ∃ t, exec (.registerWrite (BitVec.ofNat 20 (0x10000 + 0x2000 * m.val + o.val)) size v io aux) s = .next t ∧ Only [] s t)

/-- STATE_SUMMARY and PARAM_GET answer with what the state holds and change nothing but their mailbox. Rests on R339, R344, R351, R480. -/
def Obligations.SummaryAndParameterReads : Prop :=
  ∀ (r : MbReq) (s : State), Plain r →
    let p := mbData r
    (s.Serves 0x0001 r → r.len = 16 → getLe p 0 8 % 16 = 0 → zeroAt p 12 4 = true →
      (getLe p 8 4 = 0 ∨ (4096 ≤ getLe p 8 4 ∧ r.io.ok = true)) →
      ∃ t pay, exec (.stateSummary r) s = .next t ∧ Answered 0x0001 r Status.success 0 pay s t ∧
        getLe pay 0 4 = s.globalStatus % 2 ^ 32 ∧ getLe pay 4 4 = s.secStatus % 2 ^ 32 ∧ getLe pay 8 8 = s.fw.running.toNat ∧
        getLe pay 40 4 = s.recs.cmds.length % 2 ^ 32 ∧ getLe pay 44 4 = s.heldEvents % 2 ^ 32 ∧
        (getLe p 0 8 ≠ 0 → getLe p 8 4 ≠ 0 → ∃ b, Output.dma (BitVec.ofNat 64 (getLe p 0 8)) b ∈ s.newOut t ∧ 4096 ≤ b.length ∧
          b.length ≤ getLe p 8 4 ∧ ∀ q < 256, slice b (16 * q) 16 = s.pairBytes q) ∧ Only [.mail] s t) ∧
    (let n := getLe p 0 2
     let id := fun (i : Nat) => getLe p (8 + 4 * i) 4
     s.Serves 0x0002 r → r.len.toNat = 8 + 4 * n → zeroAt p 2 6 = true → 0 < n → n ≤ 254 →
      ((∀ i < n, (paramRow (id i)).isSome) → ∃ t pay, exec (.paramGet r) s = .next t ∧ Answered 0x0002 r Status.success 0 pay s t ∧
        pay.length = 16 * n ∧ (∀ i < n, getLe pay (16 * i) 4 = id i ∧ getLe pay (16 * i + 4) 4 = b2n (s.paramPending (id i)) ∧
          toSigned 64 (getLe pay (16 * i + 8) 8) = toSigned 64 (ofSigned 64 (s.accepted (id i)))) ∧ Only [.mail] s t) ∧
      (∀ k < n, (∀ i < k, (paramRow (id i)).isSome) → (paramRow (id k)).isSome = false →
        ∃ t, exec (.paramGet r) s = .next t ∧ Answered 0x0002 r Status.invalidField k [] s t ∧ Only [.mail] s t))

/-- PARAM_SET accepts every entry at once or none: the first failing entry is named and nothing else changes. Rests on R342, R343, R344,
R147, R176, R201. -/
def Obligations.ParameterSetIsWhole : Prop :=
  ∀ (r : MbReq) (s : State), Plain r → s.Serves 0x0003 r →
    let l := setEntries (mbData r)
    r.len.toNat = 8 + 16 * l.length → setReservedOk (mbData r) = true → 0 < l.length → l.length ≤ 254 →
      ((∀ i < l.length, s.entryFails l i = none) →
        ∃ t, exec (.paramSet r) s = .next t ∧ Answered 0x0003 r Status.success 0 (leBytes 2 l.length) s t ∧
          (∀ i < l.length, t.accepted (l.getD i (0, 0)).1 = (l.getD i (0, 0)).2) ∧
          (∀ id, (∀ e ∈ l, e.1 ≠ id) → t.accepted id = s.accepted id) ∧ Only [.mail, .params, .rd, .anvil, .jnl] s t) ∧
      (∀ k st, k < l.length → (∀ i < k, s.entryFails l i = none) → s.entryFails l k = some st →
        ∃ t, exec (.paramSet r) s = .next t ∧ Answered 0x0003 r st k [] s t ∧ Only [.mail] s t)

/-- QP_CREATE makes a pair as Table 10-8 describes it, or refuses as R280 says; QP_DELETE ends the pair, its commands and its OPEN
records. Rests on R280, R283, R330, Table 11-9. -/
def Obligations.PairsCreatedAndDeleted : Prop :=
  ∀ (r : MbReq) (s : State), Plain r →
    let p := mbData r
    let q := getLe p 0 1
    (s.Serves 0x0101 r → r.len = 32 → zeroAt p 26 6 = true →
      (s.glob.enabled = true → s.bench.on = false → s.pairs.length = 256 → s.pair? q = none → qpBadField p = none → getLe p 2 1 = 0 →
        ∃ t x, exec (.qpCreate r) s = .next t ∧ Answered 0x0101 r Status.success 0 [] s t ∧ t.pair? q = some x ∧ x.rev = getLe p 1 1 ∧
          x.motion = false ∧ x.urgent = decide (getLe p 3 1 = 1) ∧ x.weight = getLe p 4 1 ∧ x.sqLog = getLe p 5 1 ∧ x.cqLog = getLe p 6 1 ∧
          x.coCount = getLe p 7 1 ∧ x.coTime = getLe p 24 2 ∧ x.sqBase.toNat = getLe p 8 8 ∧ x.cqBase.toNat = getLe p 16 8 ∧
          x.sqTail = 0 ∧ x.sqFetch = 0 ∧ x.cqTail = 0 ∧ x.cqHead = 0 ∧ x.cqPhase = true ∧ x.error = false ∧
          (∀ q', q' ≠ q → t.pair? q' = s.pair? q') ∧ Only [.mail, .pairs] s t) ∧
      (s.glob.enabled = false →
        ∃ t d, exec (.qpCreate r) s = .next t ∧ Answered 0x0101 r Status.sequenceError d [] s t ∧ Only [.mail] s t) ∧
      (s.glob.enabled = true → s.bench.on = false → (s.pair? q).isSome →
        ∃ t d, exec (.qpCreate r) s = .next t ∧ Answered 0x0101 r Status.resourceBusy d [] s t ∧ Only [.mail] s t) ∧
      (∀ o, s.glob.enabled = true → s.bench.on = false → s.pair? q = none → getLe p 2 1 ≠ 1 → qpBadField p = some o →
        ∃ t, exec (.qpCreate r) s = .next t ∧ Answered 0x0101 r Status.invalidField (o + 1) [] s t ∧ Only [.mail] s t)) ∧
    (s.Serves 0x0102 r → r.len = 8 → zeroAt p 1 7 = true →
      (∀ x, s.pair? q = some x → x.motion = false → s.forge.writing = true →
        ∃ t, exec (.qpDelete r) s = .next t ∧ Answered 0x0102 r Status.success 0 [] s t ∧ t.pair? q = none ∧
          (∀ c ∈ t.recs.cmds, c.pair ≠ q) ∧ (∀ y ∈ t.recs.recs, y.state = .opened → y.pair ≠ q) ∧
          (∀ q', q' ≠ q → (t.pair? q').isSome = (s.pair? q').isSome) ∧
          Only [.mail, .pairs, .recs, .rd, .sec, .hearth, .evq, .motion] s t) ∧
      (s.pair? q = none → ∃ t, exec (.qpDelete r) s = .next t ∧ Answered 0x0102 r Status.invalidField 1 [] s t ∧ Only [.mail] s t))

/-- CART_LOAD takes a good image, builds one for BLANK and RECOVER, and refuses as Table 12-9 says; CART_UNLOAD leaves nothing of the
cartridge. Rests on R346, R347, R348, R349, R216, R148, R177, R244. -/
def Obligations.CartridgeLoadAndUnload : Prop :=
  ∀ (r : MbReq) (s : State), Plain r →
    let p := mbData r
    let f := getLe p 0 1
    let img := fit 65536 r.io.data
    (s.Serves 0x0201 r → r.len = 32 → cartReservedOk p = true →
      (s.cart.loaded = true → ∃ t d, exec (.cartLoad r) s = .next t ∧ Answered 0x0201 r Status.sequenceError d [] s t ∧ Only [.mail] s t) ∧
      (s.cart.loaded = false → s.cart.barred = false → s.bench.on = false →
        (getLe p 1 1 = 0 → getLe p 24 8 % 8 = 0 → r.io.ok = true →
          (imageFault img f (slice p 8 16) = none → (parseImage img).eodValid = true → (parseImage img).sessionOpen = false →
            ∃ t, exec (.cartLoad r) s = .next t ∧ Answered 0x0201 r Status.success 0 [] s t ∧ t.cart.loaded = true ∧
              t.cart.image = parseImage img ∧ t.cart.searchPending = false ∧ t.recs.recs = [] ∧ t.recs.next = (parseImage img).recordLimit ∧
              t.rd.temper = [] ∧ t.comp = {} ∧ t.blw.framesFirst = 0 ∧ t.blw.framesRewritten = 0 ∧ t.blw.quenchCount = 0 ∧
              Only [.mail, .cart, .recs, .forge, .heat, .rd, .blw, .comp, .sec, .tongs] s t) ∧
          (∀ d, imageFault img f (slice p 8 16) = some d →
            ∃ t, exec (.cartLoad r) s = .next t ∧ Answered 0x0201 r Status.invalidField d [] s t ∧ Only [.mail] s t)) ∧
        (getLe p 1 1 = 1 →
          (f = 2 → ∃ t, exec (.cartLoad r) s = .next t ∧ Answered 0x0201 r Status.invalidField 6 [] s t ∧ Only [.mail] s t) ∧
          (f ≠ 2 → r.aux.headD 0 ≠ 0 →
            ∃ t, exec (.cartLoad r) s = .next t ∧ Answered 0x0201 r Status.invalidField 5 [] s t ∧ Only [.mail, .params] s t) ∧
          (f ≠ 2 → r.aux.headD 0 = 0 → ∃ t, exec (.cartLoad r) s = .next t ∧ Answered 0x0201 r Status.success 0 [] s t ∧
            t.cart.loaded = true ∧ t.cart.blank = true ∧ t.cart.image = { blankImage f (slice p 8 16) with seq := 0 } ∧
            t.cart.lastIssued = some 0 ∧ Reported 0x0303 0 0 s t ∧ t.cart.searchPending = false ∧ t.recs.recs = [] ∧
            Only [.mail, .params, .cart, .recs, .forge, .heat, .rd, .blw, .comp, .sec, .tongs, .evq] s t)) ∧
        (getLe p 1 1 = 2 → s.param 0x07080700 ≠ 1 → ∃ t, exec (.cartLoad r) s = .next t ∧ Answered 0x0201 r Status.success 0 [] s t ∧
          t.cart.loaded = true ∧ t.cart.image.sessionOpen = true ∧ t.cart.image.session = 0 ∧ t.cart.image.syncedLimit = 0 ∧
          t.cart.searchPending = true ∧ t.recs.recs = [] ∧ Only [.mail, .cart, .recs, .forge, .heat, .rd, .blw, .comp, .sec, .tongs] s t))) ∧
    (s.Serves 0x0202 r → r.len = 0 →
      ((s.recsIn .opened ≠ [] ∨ s.recsIn .sealed ≠ []) →
        ∃ t d, exec (.cartUnload r) s = .next t ∧ Answered 0x0202 r Status.sequenceError d [] s t ∧ Only [.mail] s t) ∧
      (s.recsIn .opened = [] → s.recsIn .sealed = [] → s.cart.loaded = true → s.forge.writing = false → s.rd.jobs = [] → s.rd.locate = none →
        s.rd.reading = false → s.cart.searching = false → s.cart.eodChecking = false → s.cart.searchMb = [] → s.waitingLocate = none →
        (∀ m < 16, m ≠ r.mb.val → (s.mbox m).state ≠ 1) →
        ∃ t, exec (.cartUnload r) s = .next t ∧ Answered 0x0202 r Status.success 0 [] s t ∧ t.cart.loaded = false ∧ t.recs.recs = [] ∧
          t.rd.temper = [] ∧ t.rd.recovery = [] ∧ (s.cart.changed = true → ∃ n, t.cart.lastIssued = some n ∧ Reported 0x0303 n (n % 8) s t) ∧
          (s.cart.changed = false → t.cart.issued = s.cart.issued) ∧ Only [.mail, .cart, .recs, .rd, .sec, .evq] s t))

/-- LEDGER_GET writes one of the eight last images; LEDGER_STORED notes the highest stored; the first frame of a session waits for its
image's report. Rests on R76, R350, R75, R234. -/
def Obligations.LedgerImages : Prop :=
  (∀ (r : MbReq) (s : State), Plain r →
    let n := getLe (mbData r) 0 8
    let a := getLe (mbData r) 8 8
    (s.Serves 0x0203 r → r.len = 16 → a % 8 = 0 →
      (∀ m, s.cart.issued.find? (fun m => m.seq = n) = some m → r.io.ok = true →
        ∃ t, exec (.ledgerGet r) s = .next t ∧ Answered 0x0203 r Status.success 0 (leBytes 1 (n % 8) ++ zeros 7) s t ∧
          Output.dma (BitVec.ofNat 64 a) m.bytes ∈ s.newOut t ∧ Only [.mail] s t) ∧
      ((∀ m ∈ s.cart.issued, m.seq ≠ n) →
        ∃ t d, exec (.ledgerGet r) s = .next t ∧ Answered 0x0203 r Status.invalidField d [] s t ∧ Only [.mail] s t)) ∧
    (s.Serves 0x0204 r → r.len = 8 →
      (∀ l, s.cart.lastIssued = some l → n ≤ l →
        ∃ t, exec (.ledgerStored r) s = .next t ∧ Answered 0x0204 r Status.success 0 [] s t ∧
          t.cart = { s.cart with lastStored := some (max n (s.cart.lastStored.getD 0)) } ∧ Only [.mail, .cart] s t) ∧
      ((s.cart.lastIssued = none ∨ ∃ l, s.cart.lastIssued = some l ∧ l < n) →
        ∃ t d, exec (.ledgerStored r) s = .next t ∧ Answered 0x0204 r Status.invalidField d [] s t ∧ Only [.mail] s t))) ∧
  (∀ s : State,
    (s.sessionStored = true → s.tapeFree = true → s.formable = true →
      ∃ t, exec .sessionFirstFrame s = .next t ∧ t.forge.writing = true ∧ t.cart.waitStored = none ∧ t.cart.image.sessionOpen = true ∧
        t.cart.image.eodValid = false ∧ t.cart.startPos = none ∧ t.heat.wrap = s.splicePos.wrap ∧ t.heat.h = s.splicePos.heat ∧
        Only [.cart, .forge, .heat, .rd, .motion, .pairs, .anvil] s t) ∧
    (s.sessionStored = false → exec .sessionFirstFrame s = .next s))

/-- EOD_SEARCH runs a pending search or returns the last result; the EOD block's check and the search's end fix the append point, limit
and session. Rests on R216, R218, R219, R220. -/
def Obligations.EndOfDataSearch : Prop :=
  (∀ (r : MbReq) (s : State), Plain r → s.Serves 0x0205 r → r.len = 0 →
    (s.cart.searchPending = false → s.cart.searching = false →
      ∃ t, exec (.eodSearch r) s = .next t ∧ Answered 0x0205 r Status.success 0 s.cart.eod.bytes s t ∧ s.cart.eod.bytes.length = 48 ∧
        Only [.mail] s t) ∧
    (s.cart.searchPending = true → s.cart.searching = false → s.cart.eodChecking = false → s.forge.writing = false → s.rd.locate = none →
      ∃ t, exec (.eodSearch r) s = .next t ∧ Underway 0x0205 r s t ∧ t.cart = { s.cart with searching := true, searchMb := s.cart.searchMb ++ [r.mb.val] } ∧
        t.rd.reading = true ∧ t.rd.parseNext = some s.cart.image.syncedPos.serial ∧ t.heat = { s.heat with wrap := s.cart.image.syncedPos.wrap } ∧
        Only [.mail, .cart, .rd, .heat, .params, .motion, .pairs] s t)) ∧
  (∀ (io : Io) (s : State),
    (s.cart.eodChecking = false → ∀ b, exec (.eodBlockCheck b io) s = .next s) ∧
    (s.cart.eodChecking = true → s.rd.jobs = [] → s.cart.searchPending = false → s.waitingLocate = none → s.unloadMb = none →
      (s.formable = false → ∃ t, exec (.eodBlockCheck true io) s = .next t ∧ t.cart.eodChecking = false ∧ t.cart.eodChecked = true ∧
        t.cart.appendPos = s.cart.image.eodPos ∧ t.cart.eod.outcome = 0 ∧ t.cart.eod.recordLimit = s.cart.image.recordLimit ∧
        t.cart.image = s.cart.image ∧ Only [.cart, .rd, .motion, .pairs, .blw] s t) ∧
      (∃ t, exec (.eodBlockCheck false io) s = .next t ∧ t.cart.eodChecking = false ∧ t.cart.stale = true ∧ t.cart.searchPending = true ∧
        t.cart.searching = true ∧ Reported 0x0301 s.cart.image.seq 0 s t ∧ Only [.cart, .rd, .heat, .params, .motion, .pairs, .evq] s t)) ∧
    ((s.cart.searching = false ∨ s.searchSettled = false) → ∀ b, exec (.eodSearchEnd b io) s = .next s) ∧
    (∀ b o, s.cart.searching = true → s.searchSettled = true → s.searchOutcome b = some o → s.rd.jobs = [] → s.waitingLocate = none →
      s.unloadMb = none → s.formable = false →
      ∃ t, exec (.eodSearchEnd b io) s = .next t ∧ t.cart.searching = false ∧ t.cart.searchPending = false ∧ t.cart.searchMb = [] ∧
        t.cart.eod.outcome = o ∧ t.cart.appendPos = t.cart.eod.append ∧ t.recs.next = t.cart.eod.recordLimit ∧
        t.cart.image.recordLimit = t.cart.eod.recordLimit ∧ t.cart.image.eodValid = false ∧ t.cart.image.sessionOpen = false ∧
        t.cart.reserved = some t.cart.eod.session ∧ t.cart.image.session = t.cart.eod.session ∧
        (∀ e, s.judged.find? (fun e => !e.2) = some e → t.cart.eod.recordLimit = itemRec e.1.head) ∧
        Reported 0x0302 t.cart.eod.recordLimit t.cart.eod.session s t ∧
        Only [.cart, .recs, .rd, .motion, .pairs, .blw, .mail, .evq] s t))

/-- The statistics commands return their records from before the clear; with CLEAR set they zero exactly those counters, without it they
change nothing. Rests on R177, R202, R244, R339, R398, R399, R426, Table 05-8, Table 06-6. -/
def Obligations.StatisticsAreReturnedAndCleared : Prop :=
  ∀ (r : MbReq) (s : State), r.rsv = 0 → (r.flags = 0 ∨ r.flags = 1) →
    let clear : Prop := r.flags = 1
    let p := mbData r
    let first := getLe p 0 2
    let n := getLe p 2 2
    let addr := getLe p 8 8
    (s.Serves 0x0301 r → r.len = 16 → zeroAt p 4 4 = true → s.rd.stats.length = 1024 →
      (0 < n → first + n ≤ 1024 → (addr = 0 → n ≤ 127) → addr % 16 = 0 → (addr ≠ 0 → r.io.ok = true) →
        ∃ (t : State) (recs : Bytes), exec (.readChannelStats r) s = .next t ∧
          Answered 0x0301 r Status.success 0 (leBytes 2 n ++ zeros 6 ++ (if addr = 0 then recs else [])) s t ∧ recs.length = 32 * n ∧
          (addr ≠ 0 → Output.dma (BitVec.ofNat 64 addr) recs ∈ s.newOut t) ∧
          (∀ i c, i < n → s.rd.stats[first + i]? = some c → slice recs (32 * i) 32 = c.bytes) ∧
          (∀ k c, s.rd.stats[k]? = some c → (clear ∧ first ≤ k ∧ k < first + n → t.rd.stats[k]? = some {}) ∧
            (¬ (clear ∧ first ≤ k ∧ k < first + n) → t.rd.stats[k]? = some c)) ∧
          t.rd = { s.rd with stats := t.rd.stats } ∧ Only [.mail, .rd] s t) ∧
      ((n = 0 ∨ 1024 < first + n ∨ (addr = 0 ∧ 127 < n)) →
        ∃ t d, exec (.readChannelStats r) s = .next t ∧ Answered 0x0301 r Status.invalidField d [] s t ∧ Only [.mail] s t)) ∧
    (s.Serves 0x0302 r → r.len = 0 → r.flags = 0 →
      ∃ t pay, exec (.servoStatus r) s = .next t ∧ Answered 0x0302 r Status.success 0 pay s t ∧ pay.length = 64 ∧
        slice pay 0 2 = [byte s.servo.mode, byte (s.servo.wrap.getD 0xFF)] ∧ getLe pay 2 2 = s.servo.valid.toNat ∧
        slice pay 4 4 = leBytes 4 (ofSigned 32 s.servo.o) ∧ slice pay 24 4 = leBytes 4 (ofSigned 32 s.servo.vel) ∧
        getLe pay 28 4 = s.servo.f.toNat ∧ slice pay 32 8 = leBytes 8 (ofSigned 64 s.servo.lpos) ∧
        getLe pay 48 8 = s.servo.offtrackCount.toNat ∧ getLe pay 56 8 = s.servo.time.toNat ∧ Only [.mail] s t) ∧
    (s.Serves 0x0303 r → r.len = 0 →
      ∃ t pay, exec (.compressStats r) s = .next t ∧ Answered 0x0303 r Status.success 0 pay s t ∧ pay.length = 64 ∧
        getLe pay 0 8 = s.comp.compressed.toNat ∧ getLe pay 8 8 = s.comp.stored.toNat ∧ getLe pay 16 4 = s.comp.probeAb.toNat ∧
        getLe pay 20 4 = s.comp.lateAb.toNat ∧ getLe pay 24 4 = s.comp.mismatches.toNat ∧ getLe pay 36 4 = s.comp.streamErrs.toNat ∧
        getLe pay 48 8 = s.comp.rawBytes.toNat ∧ getLe pay 56 8 = s.comp.cBytes.toNat ∧
        (clear → t.comp = {}) ∧ (¬ clear → t.comp = s.comp) ∧ Only [.mail, .comp] s t) ∧
    (s.Serves 0x0402 r → r.len = 0 → s.hearth.scale.length ≤ 32 →
      ∃ t pay, exec (.scaleLogRead r) s = .next t ∧ Answered 0x0402 r Status.success 0 pay s t ∧ pay.length = 1040 ∧
        getLe pay 0 1 = s.hearth.scale.length ∧ getLe pay 4 4 = s.hearth.scaleOver.toNat ∧
        (∀ i e, s.hearth.scale[i]? = some e → slice pay (16 + 32 * i) 32 = e.bytes) ∧
        (clear → t.hearth = { s.hearth with scale := [], scaleOver := 0 }) ∧ (¬ clear → t.hearth = s.hearth) ∧ Only [.mail, .hearth] s t) ∧
    (s.Serves 0x0403 r → r.len = 0 →
      ∃ t pay, exec (.hearthChannelStatus r) s = .next t ∧ Answered 0x0403 r Status.success 0 pay s t ∧
        (∀ i c, s.hearth.chans[i]? = some c → slice pay (64 + 64 * i) 64 = c.bytes s.hearth.doubled) ∧
        (clear → t.hearth = { s.hearth with chans := s.hearth.chans.map HChan.cleared }) ∧ (¬ clear → t.hearth = s.hearth) ∧
        Only [.mail, .hearth] s t) ∧
    (s.Serves 0x0803 r → r.len = 0 →
      ∃ t pay, exec (.laneStatus r) s = .next t ∧ Answered 0x0803 r Status.success 0 pay s t ∧ getLe pay 0 1 = b2n s.tongs.calFailed ∧
        (∀ i c, s.tongs.ports[i]? = some c → slice pay (16 + 64 * i) 64 = Port.bytes i c) ∧
        (clear → t.tongs = { s.tongs with ports := s.tongs.ports.map Port.cleared }) ∧ (¬ clear → t.tongs = s.tongs) ∧
        Only [.mail, .tongs] s t)

/-- TWIN_STATUS, FW_INFO, SELFTEST_RESULT, CAL_EXPORT, SNAPSHOT_READ, SEC_GET_IDENTITY and SEC_SLOT_INFO return what the state holds and
change nothing. Rests on R257, R268, R353, R365, R425, R446, R451, Table 12-17, Table 15-6, Table 09-14. -/
def Obligations.RecordsOfTheFormatterAreReturned : Prop :=
  ∀ (r : MbReq) (s : State), Plain r →
    let p := mbData r
    (s.Serves 0x0904 r → r.len = 0 → s.twin.peerSerial.length = 16 →
      ∃ t pay, exec (.twinStatus r) s = .next t ∧ Answered 0x0904 r Status.success 0 pay s t ∧ pay.length = 64 ∧
        slice pay 0 3 = [byte s.twin.role.toNat, byte s.twin.peer, byte s.twin.die] ∧ slice pay 8 16 = s.twin.peerSerial ∧
        getLe pay 24 4 = s.twin.disagreements.toNat ∧ getLe pay 28 4 = s.twin.takeovers.toNat ∧ getLe pay 32 4 = s.twin.swaps.toNat ∧
        getLe pay 36 4 = s.twin.resends.toNat ∧ getLe pay 40 8 = s.twin.lastTakeover.toNat ∧ Only [.mail] s t) ∧
    (s.Serves 0x0601 r → r.len = 0 →
      ∃ t pay, exec (.fwInfo r) s = .next t ∧ Answered 0x0601 r Status.success 0 pay s t ∧ pay.length = 48 ∧
        getLe pay 0 8 = s.fw.running.toNat ∧ slice pay 8 8 = leBytes 8 (fwVersion s.fw.slot0) ∧
        slice pay 16 8 = leBytes 8 (fwVersion s.fw.slot1) ∧ getLe pay 24 8 = b2n s.fw.bootSlot ∧ slice pay 40 8 = leBytes 8 s.fw.floor ∧
        Only [.mail] s t) ∧
    (s.Serves 0x0704 r → r.len = 4 →
      (∀ x, s.units.running = none → s.units.results.find? (fun q => q.id = BitVec.ofNat 32 (getLe p 0 4)) = some x →
        ∃ t, exec (.selftestResult r) s = .next t ∧ Answered 0x0704 r Status.success 0 x.bytes s t ∧ Only [.mail] s t) ∧
      (∀ x, s.units.running = some x → x.id = BitVec.ofNat 32 (getLe p 0 4) →
        ∃ t, exec (.selftestResult r) s = .next t ∧
          Answered 0x0704 r Status.success 0 ({ x with duration := msBetween x.start s.now } : TestResult).bytes s t ∧ Only [.mail] s t) ∧
      ((∀ x ∈ s.units.running.toList ++ s.units.results, x.id ≠ BitVec.ofNat 32 (getLe p 0 4)) →
        ∃ t d, exec (.selftestResult r) s = .next t ∧ Answered 0x0704 r Status.invalidField d [] s t ∧ Only [.mail] s t)) ∧
    (s.Serves 0x0801 r → r.len = 16 → zeroAt p 12 4 = true → getLe p 0 8 % 8 = 0 → 33280 ≤ getLe p 8 4 → s.eepromUp = true → r.io.ok = true →
      ∃ t pay, exec (.calExport r) s = .next t ∧ Answered 0x0801 r Status.success 0 pay s t ∧ pay.length = 24 ∧
        Output.dma (BitVec.ofNat 64 (getLe p 0 8)) (fit 33280 s.tongs.eeprom) ∈ s.newOut t ∧
        (getLe pay 0 1 = 1 ↔ getLe (fit 33280 s.tongs.eeprom) 0x81FC 4 = (crc32c (slice (fit 33280 s.tongs.eeprom) 0 0x81FC)).toNat) ∧
        slice pay 8 16 = slice (fit 33280 s.tongs.eeprom) 0x10 16 ∧ Only [.mail] s t) ∧
    (s.Serves 0x0906 r → r.len = 32 → getLe p 0 1 ≤ 2 → zeroAt p 1 7 = true → zeroAt p 20 4 = true →
      (getLe p 16 4 % 16 = 0 → getLe p 16 4 ≤ 64 * mib → getLe p 8 8 + getLe p 16 4 ≤ journalBytes → r.io.ok = true →
        ∃ t, exec (.snapshotRead r) s = .next t ∧ Answered 0x0906 r Status.success 0 [] s t ∧
          Output.dma (BitVec.ofNat 64 (getLe p 24 8)) (s.jnl.readRange (getLe p 0 1) (getLe p 8 8) (getLe p 16 4)) ∈ s.newOut t ∧
          Only [.mail] s t) ∧
      (journalBytes < getLe p 8 8 + getLe p 16 4 →
        ∃ t d, exec (.snapshotRead r) s = .next t ∧ Answered 0x0906 r Status.invalidField d [] s t ∧ Only [.mail] s t)) ∧
    (s.Serves 0x0501 r → r.len = 0 → s.secRefuses 0x0501 = none →
      ∃ t, exec (.secGetIdentity r) s = .next t ∧ Only [.mail] s t ∧ Answered 0x0501 r Status.success 0
        (leBytes 4 ((Config.identityChain ()).take 3072).length ++ zeros 4 ++ (Config.identityChain ()).take 3072) s t) ∧
    (s.Serves 0x050C r → r.len = 8 → s.sec.state ≠ .selfTest → s.secRefuses 0x050C = none → (s.mbox r.mb).role ≠ 0 → slotRangeOk p = true →
      ∃ t pay, exec (.secSlotInfo r) s = .next t ∧ Answered 0x050C r Status.success 0 pay s t ∧ pay.length = 32 * getLe p 1 1 ∧
        (∀ i < getLe p 1 1, slice pay (32 * i) 32 = (s.slot (getLe p 0 1 + i)).info) ∧ Only [.mail] s t)

/-- Challenge, login, lockout, key agreement, commissioning and authentication keys work as the login rules say, and a wrong MAC, label or
wrap gives its status. Rests on R255, R256, R266, R267, R270, Table 09-4, Table 09-5, Table 09-8. -/
def Obligations.LoginAndKeyAgreement : Prop :=
  ∀ (r : MbReq) (s : State), Plain r →
    let p := mbData r
    let role := getLe p 0 1
    let ok := fun (op who : Nat) => s.Serves op r ∧ s.sec.state ≠ .selfTest ∧ s.secRefuses op = none ∧ roleOk (s.mbox r.mb).role who = true
    let mac := fun (k n : Bytes) => cmac k (ascii "DXFLOGIN" ++ [byte role] ++ n ++ [byte r.mb])
    (ok 0x0502 0 → r.len = 0 → s.sec.drbg = true → ∃ t n, exec (.secChallenge r) s = .next t ∧ n.length = 16 ∧
      Answered 0x0502 r Status.success 0 n (s.modMbox r.mb (fun b => { b with nonce := some n })) t ∧ Only [.mail] s t) ∧
    (ok 0x0503 0 → r.len = 20 → roleByteOk p = true →
      (s.sec.lockedOut = true → ∃ t d, exec (.secLogin r) s = .next t ∧ Answered 0x0503 r Status.loginLocked d [] s t ∧ Only [.mail] s t) ∧
      (s.sec.lockedOut = false → (s.mbox r.mb).nonce = none →
        ∃ t d, exec (.secLogin r) s = .next t ∧ Answered 0x0503 r Status.sequenceError d [] s t ∧ Only [.mail] s t) ∧
      (∀ n, s.sec.lockedOut = false → (s.mbox r.mb).nonce = some n →
        (∀ k, s.authKey role = some k → mac k n = slice p 4 16 → ∃ t, exec (.secLogin r) s = .next t ∧
          Answered 0x0503 r Status.success 0 [] (s.modMbox r.mb (fun b => { b with nonce := none, role := BitVec.ofNat 2 role })) t ∧
          t.sec = { s.sec with fails := 0 } ∧ Only [.mail, .sec] s t) ∧
        ((∀ k, s.authKey role = some k → mac k n ≠ slice p 4 16) → ∃ t d, exec (.secLogin r) s = .next t ∧
          Answered 0x0503 r Status.loginFailed d [] (s.modMbox r.mb (fun b => { b with nonce := none })) t ∧
          t.sec.fails = s.sec.fails + 1 ∧ t.sec.authFails = satAdd 32 s.sec.authFails 1 ∧ t.sec.intStatus.getLsbD 5 = true ∧
          t.sec.lockedOut = decide (s.sec.fails = 7) ∧ Only [.mail, .sec, .evq] s t))) ∧
    (ok 0x0504 3 → r.len = 0 → ∃ t, exec (.secLogout r) s = .next t ∧
      Answered 0x0504 r Status.success 0 [] (s.modMbox r.mb (fun b => { b with role := 0, ktk := none })) t ∧ Only [.mail] s t) ∧
    (ok 0x0505 0 → r.len = 116 → zeroAt p 113 3 = true →
      (∀ q, ecPublic (slice p 0 97) = some q → s.sec.drbg = true → ∃ t n, exec (.secKeyAgree r) s = .next t ∧ n.length = 16 ∧
        Answered 0x0505 r Status.success 0 n (s.modMbox r.mb (fun b => { b with
          ktk := some (ktkOf (ecdh Config.identityKey q) s.glob.serial (slice p 97 16) n) })) t ∧ Only [.mail] s t) ∧
      (ecPublic (slice p 0 97) = none →
        ∃ t, exec (.secKeyAgree r) s = .next t ∧ Answered 0x0505 r Status.invalidField 1 [] s t ∧ Only [.mail] s t)) ∧
    (ok 0x0506 0 → r.len = 48 →
      ((s.sec.state = .operational ∨ s.sec.debug = true) →
        ∃ t d, exec (.secCommission r) s = .next t ∧ Answered 0x0506 r Status.sequenceError d [] s t ∧ Only [.mail] s t) ∧
      (∀ k, s.sec.state ≠ .operational → s.sec.debug = false → (s.mbox r.mb).ktk = some k →
        (∀ w, kwpUnwrap k p = some w → w.drop 32 = roleLabel 1 → ∃ t, exec (.secCommission r) s = .next t ∧
          Answered 0x0506 r Status.success 0 [] s t ∧ Only [.mail, .sec] s t ∧
          t.sec = { s.sec with coKey := some (w.take 32), state := .operational, allowPlain := false, approved := true }) ∧
        (∀ w, kwpUnwrap k p = some w → w.drop 32 ≠ roleLabel 1 →
          ∃ t d, exec (.secCommission r) s = .next t ∧ Answered 0x0506 r Status.labelInvalid d [] s t ∧ Only [.mail] s t) ∧
        (kwpUnwrap k p = none →
          ∃ t d, exec (.secCommission r) s = .next t ∧ Answered 0x0506 r Status.wrapInvalid d [] s t ∧ Only [.mail] s t))) ∧
    (ok 0x0507 1 → r.len = 52 → roleByteOk p = true → ∀ k, (s.mbox r.mb).ktk = some k →
      (∀ w, kwpUnwrap k (slice p 4 48) = some w → w.drop 32 = roleLabel role → ∃ t, exec (.secSetAuth r) s = .next t ∧
        Answered 0x0507 r Status.success 0 [] s t ∧ Only [.mail, .sec] s t ∧ (role = 1 → t.sec = { s.sec with coKey := some (w.take 32) }) ∧
        (role ≠ 1 → t.sec = { s.sec with userKey := some (w.take 32) })) ∧
      (∀ w, kwpUnwrap k (slice p 4 48) = some w → w.drop 32 ≠ roleLabel role →
        ∃ t d, exec (.secSetAuth r) s = .next t ∧ Answered 0x0507 r Status.labelInvalid d [] s t ∧ Only [.mail] s t)) ∧
    (∀ mb : Fin 16, ∃ t, exec (.nonceExpiry mb) s = .next t ∧ t.mail = modAt s.mail mb (fun b => { b with nonce := none }) ∧ Only [.mail] s t) ∧
    (∃ t, exec .lockoutEnd s = .next t ∧ t.sec.lockedOut = false ∧ (s.sec.lockedOut = true → t.sec = { s.sec with lockedOut := false, fails := 0 }) ∧
      (s.sec.lockedOut = false → t.sec = s.sec) ∧ Only [.sec] s t) ∧
    (∃ t, exec .entropyHealthFail s = .next t ∧ t.sec.drbg = false ∧ Only [.sec, .evq] s t ∧
      (2 ≤ (s.sec.entropyFails.filter (fun x => s.nowNs < x + 1000000000)).length → t.sec.state = .error ∧ t.sec.intStatus.getLsbD 2 = true) ∧
      ((s.sec.entropyFails.filter (fun x => s.nowNs < x + 1000000000)).length < 2 → t.sec.state = s.sec.state))

/-- Keys are loaded only under a good wrap and role, replace as R259 says, and are erased once nothing uses them; SEC_SET_MODE keeps no
key across modes. Rests on R256, R257, R259, R260, R266, R268, R273, Table 09-6. -/
def Obligations.KeysAreLoadedAndErased : Prop :=
  ∀ (r : MbReq) (s : State), Plain r →
    let p := mbData r
    let n := getLe p 0 1
    let ok := fun (op who : Nat) => s.Serves op r ∧ s.sec.state ≠ .selfTest ∧ s.secRefuses op = none ∧ roleOk (s.mbox r.mb).role who = true
    let barred := fun (op who : Nat) => s.Serves op r ∧ s.sec.state ≠ .selfTest ∧ s.secRefuses op = none ∧ roleOk (s.mbox r.mb).role who = false
    let refused := fun (c : Instr) (op : Nat) (st : BitVec 16) => ∃ t d, exec c s = .next t ∧ Answered op r st d [] s t ∧ Only [.mail] s t
    (r.len = 52 → n < 4 → zeroAt p 1 3 = true → (barred 0x0508 1 → refused (.secKekLoad r) 0x0508 Status.roleRequired) ∧
      (∀ k, ok 0x0508 1 → (s.mbox r.mb).ktk = some k →
        (∀ w, kwpUnwrap k (slice p 4 48) = some w → ∃ t, exec (.secKekLoad r) s = .next t ∧ Answered 0x0508 r Status.success 0 (w.drop 32) s t ∧
          t.sec = { s.sec with keks := modAt s.sec.keks n (fun _ => some (w.take 32, w.drop 32)) } ∧ Only [.mail, .sec] s t) ∧
        (kwpUnwrap k (slice p 4 48) = none → refused (.secKekLoad r) 0x0508 Status.wrapInvalid))) ∧
    (r.len = 8 → n < 4 → zeroAt p 1 7 = true → (barred 0x0509 1 → refused (.secKekErase r) 0x0509 Status.roleRequired) ∧
      (ok 0x0509 1 → ∃ t, exec (.secKekErase r) s = .next t ∧ Answered 0x0509 r Status.success 0 [] s t ∧
        t.sec = { s.sec with keks := modAt s.sec.keks n (fun _ => none) } ∧ Only [.mail, .sec] s t)) ∧
    (r.len = 52 → n < 64 → getLe p 1 1 < 4 → zeroAt p 2 2 = true → (barred 0x050A 2 → refused (.secKeyLoad r) 0x050A Status.roleRequired) ∧
      (∀ k, ok 0x050A 2 → s.sec.slots[n]? = some k →
        (k.erasing ≠ [] → refused (.secKeyLoad r) 0x050A Status.keyErasing) ∧
        (k.erasing = [] → s.sec.keks[getLe p 1 1]? = some none → refused (.secKeyLoad r) 0x050A Status.keyNotAvailable) ∧
        (∀ kek id, k.erasing = [] → s.sec.keks[getLe p 1 1]? = some (some (kek, id)) →
          (kwpUnwrap kek (slice p 4 48) = none → refused (.secKeyLoad r) 0x050A Status.wrapInvalid) ∧
          (∀ w, kwpUnwrap kek (slice p 4 48) = some w →
            ((w.drop 32 = zeros 8 ∨ w.drop 32 ∈ s.labels) → refused (.secKeyLoad r) 0x050A Status.labelInvalid) ∧
            (w.drop 32 ≠ zeros 8 → w.drop 32 ∉ s.labels →
              ((∃ g, k.old = some g ∧ g.users ≠ 0) → refused (.secKeyLoad r) 0x050A Status.slotBusy) ∧
              ((∀ g, k.old = some g → g.users = 0) → ∃ (t : State) (y : KeySlot), exec (.secKeyLoad r) s = .next t ∧
                Answered 0x050A r Status.success 0 (leBytes 2 (k.lastGen + 1).toNat ++ zeros 6 ++ w.drop 32) s t ∧
                t.sec.slots[n]? = some y ∧ y.cur = some { key := w.take 32, label := w.drop 32, gen := k.lastGen + 1 } ∧
                y.lastGen = k.lastGen + 1 ∧ y.erasing = [] ∧ (∀ c, k.cur = some c → c.users ≠ 0 → y.old = some c) ∧
                ((∀ c, k.cur = some c → c.users = 0) → y.old = none) ∧ (∀ i, i ≠ n → t.sec.slots[i]? = s.sec.slots[i]?) ∧
                t.sec = { s.sec with slots := t.sec.slots } ∧ Only [.mail, .sec] s t)))))) ∧
    (r.len = 8 → n < 64 → zeroAt p 1 7 = true → (barred 0x050B 2 → refused (.secKeyErase r) 0x050B Status.roleRequired) ∧
      (∀ k, ok 0x050B 2 → s.sec.slots[n]? = some k → ∃ (t : State), exec (.secKeyErase r) s = .next t ∧ Underway 0x050B r s t ∧
        t.sec = { s.sec with slots := t.sec.slots } ∧ t.sec.slots[n]? = some { k with erasing := k.erasing ++ [r.mb.toNat] } ∧
        (∀ i, i ≠ n → t.sec.slots[i]? = s.sec.slots[i]?) ∧ Only [.mail, .sec] s t)) ∧
    (∀ (i : Fin 64) (k : KeySlot), s.sec.slots[i.val]? = some k → s.mail.length = 16 →
      (k.erasing ≠ [] → k.unused = true → ∃ t, exec (.keyEraseComplete i) s = .next t ∧ t.sec.slots[i.val]? = some { lastGen := k.lastGen } ∧
        (∀ j : Nat, j ≠ i.val → t.sec.slots[j]? = s.sec.slots[j]?) ∧ t.sec.intStatus.getLsbD 6 = true ∧
        (∀ m ∈ k.erasing, m < 16 → (t.mbox m).state = 2 ∧ (t.mbox m).status = Status.success ∧ Output.response m ∈ s.newOut t) ∧
        (∀ m : Nat, m ∉ k.erasing → t.mail[m]? = s.mail[m]?) ∧ Only [.mail, .sec, .evq] s t) ∧
      ((k.erasing = [] ∨ k.unused = false) → exec (.keyEraseComplete i) s = .next s)) ∧
    (r.len = 8 → modeOk p = true → ok 0x050D 1 →
      let change : Prop := n ≠ 0xFF ∧ decide (n = 1) ≠ s.sec.approved
      let plain := if getLe p 1 1 = 0xFF then s.sec.allowPlain else decide (getLe p 1 1 = 1)
      (change → (s.recsIn .opened ≠ [] ∨ s.recsIn .sealed ≠ [] ∨ s.rd.jobs ≠ []) → refused (.secSetMode r) 0x050D Status.slotBusy) ∧
      (change → s.recsIn .opened = [] → s.recsIn .sealed = [] → s.rd.jobs = [] → s.sec.slots.length = 64 →
        ∃ t, exec (.secSetMode r) s = .next t ∧ Answered 0x050D r Status.success 0 []
          { s with mail := s.mail.map (fun b => { b with ktk := none }) } t ∧ t.sec.approved = decide (n = 1) ∧ t.sec.allowPlain = plain ∧
          (∀ k ∈ t.sec.keks, k = none) ∧ (∀ k ∈ t.sec.slots, k.cur = none ∧ k.old = none) ∧ Only [.mail, .sec] s t) ∧
      (¬ change → ∃ t, exec (.secSetMode r) s = .next t ∧ Answered 0x050D r Status.success 0 [] s t ∧
        t.sec = { s.sec with allowPlain := plain } ∧ Only [.mail, .sec] s t))

/-- A full zeroize leaves no key or role, a slot zeroize empties its slot alone; SEC_SELFTEST holds the monitor until SEC_SELFTEST_END
sets its state. Rests on R246, R261, R266, R267, R270, R271, R275, Table 09-9. -/
def Obligations.ZeroizeAndSelfTest : Prop :=
  ∀ (r : MbReq) (s : State),
    let p := mbData r
    let rest := [Block.mail, .sec, .evq, .anvil, .blw, .cart, .forge, .hearth, .heat, .motion, .pairs, .params, .rd, .recs]
    let full := fun (t : State) => (∀ k ∈ t.sec.slots, k.cur = none ∧ k.old = none) ∧ (∀ k ∈ t.sec.keks, k = none) ∧ t.sec.coKey = none ∧
      t.sec.userKey = none ∧ (∀ b ∈ t.mail, b.role = 0 ∧ b.ktk = none) ∧ t.sec.drbg = !s.pins.tamperLow ∧
      t.sec.state = (if s.sec.state = .operational then .uncommissioned else s.sec.state) ∧ t.sec.intStatus.getLsbD 0 = true
    let one := fun (n : Nat) (t : State) => (∀ k, s.sec.slots[n]? = some k → t.sec.slots[n]? = some { k with cur := none, old := none }) ∧
      t.sec.keks = s.sec.keks ∧ t.sec.coKey = s.sec.coKey ∧ t.sec.userKey = s.sec.userKey ∧ t.sec.state = s.sec.state ∧
      (∀ i, i ≠ n → (t.sec.slots[i]?).map (fun k => (k.cur.map (fun g => (g.key, g.label, g.gen)), k.lastGen)) =
        (s.sec.slots[i]?).map (fun k => (k.cur.map (fun g => (g.key, g.label, g.gen)), k.lastGen))) ∧ t.sec.intStatus.getLsbD 0 = true
    (s.sec.slots.length = 64 →
      (∃ t, exec .secZeroizeFullWrite s = .next t ∧ full t ∧ Only rest s t) ∧
      (∀ n : Fin 64, ∃ t, exec (.secZeroizeSlotWrite n) s = .next t ∧ one n.val t ∧ Only rest s t) ∧
      (Plain r → s.Serves 0x050E r → s.secRefuses 0x050E = none → r.len = 8 → zeroAt p 2 6 = true →
        (getLe p 0 1 = 1 → getLe p 1 1 = 0 → ∃ t, exec (.secZeroize r) s = .next t ∧ full t ∧ (t.mbox r.mb).state = 2 ∧
          (t.mbox r.mb).status = Status.success ∧ Output.response r.mb ∈ s.newOut t ∧ Only rest s t) ∧
        (getLe p 0 1 = 0 → getLe p 1 1 < 64 → ∃ t, exec (.secZeroize r) s = .next t ∧ one (getLe p 1 1) t ∧ (t.mbox r.mb).state = 2 ∧
          (t.mbox r.mb).status = Status.success ∧ Output.response r.mb ∈ s.newOut t ∧ Only rest s t))) ∧
    (Plain r → s.Serves 0x050F r → s.sec.state ≠ .selfTest → s.secRefuses 0x050F = none → r.len = 0 →
      ∃ t, exec (.secSelftest r) s = .next t ∧ Underway 0x050F r s t ∧
        t.sec = { s.sec with state := .selfTest, testMb := some r.mb.toNat } ∧ Only [.mail, .sec] s t) ∧
    (∀ (good : Bool) (pairs : List (Fin 80)) (io : Io),
      let now := (List.range 80).filter (pairs.map Fin.val).contains
      let pass := good && decide (60 ≤ now.length)
      (s.sec.state ≠ .selfTest → exec (.secSelftestEnd good pairs io) s = .next s) ∧
      (s.sec.state = .selfTest → s.glob.ready = true → s.sec.heldMb = [] → s.mail.length = 16 →
        ∃ t, exec (.secSelftestEnd good pairs io) s = .next t ∧ t.sec.pairs = now ∧ t.sec.testMb = none ∧
          t.sec.state = (if pass then (if s.sec.coKey.isSome then .operational else .uncommissioned) else .error) ∧
          (pass = false → t.sec.intStatus.getLsbD 2 = true) ∧ (pass = true → t.sec.drbg = !s.pins.tamperLow ∧ t.sec.postPassed = true) ∧
          (∀ k : Nat, k < 80 → (t.isQuarantined 4 k = true ↔ k ∉ now)) ∧
          (∀ m, s.sec.testMb = some m → m < 16 → (t.mbox m).state = 2 ∧ (t.mbox m).status = Status.success ∧
            (t.mbox m).payload = [byte (b2n (!pass))] ++ zeros 3 ++ leBytes 4 now.length) ∧
          (∀ m, s.sec.testMb ≠ some m → t.mail[m]? = s.mail[m]?) ∧ Only [.sec, .units, .mail, .evq, .jnl] s t))

/-- FW_DOWNLOAD stages in order, FW_COMMIT writes the inactive slot and marks it last, FW_ACTIVATE goes through its steps or falls back
with its detail. Rests on R353, R354, R355, R472, R337, Table 12-13, Table 12-14. -/
def Obligations.FirmwareIsStagedCommittedActivated : Prop :=
  ∀ (r : MbReq) (s : State),
    let p := mbData r
    let off := getLe p 0 4
    let len := getLe p 4 4
    let officer := (s.mbox r.mb).role = 1
    let ended := fun (st : BitVec 16) (d : Nat) (t : State) => t.fw.act = .none ∧ t.fw.actMb = none ∧ ∀ m, s.fw.actMb = some m → m < 16 →
      (t.mbox m).state = 2 ∧ (t.mbox m).status = st ∧ (t.mbox m).detail = BitVec.ofNat 16 d
    let calm := s.fw.heldMb = [] ∧ s.glob.shutdownAfterAct = 0 ∧ s.mail.length = 16
    (Plain r → s.Serves 0x0602 r → r.len = 16 →
      (¬ officer → ∃ t d, exec (.fwDownload r) s = .next t ∧ Answered 0x0602 r Status.roleRequired d [] s t ∧ Only [.mail] s t) ∧
      (officer → (len = 0 ∨ 1048576 < len ∨ (off ≠ 0 ∧ off ≠ s.fw.staged.length) ∨ 4096 + 3145728 < off + len) →
        ∃ t d, exec (.fwDownload r) s = .next t ∧ Answered 0x0602 r Status.invalidField d [] s t ∧ Only [.mail] s t) ∧
      (officer → 0 < len → len ≤ 1048576 → (off = 0 ∨ off = s.fw.staged.length) → off + len ≤ 4096 + 3145728 → r.io.ok = true →
        ∃ t, exec (.fwDownload r) s = .next t ∧ Answered 0x0602 r Status.success 0 [] s t ∧ Only [.mail, .fw] s t ∧
          t.fw = { s.fw with staged := (if off = 0 then [] else s.fw.staged) ++ fit len r.io.data })) ∧
    (Plain r → s.Serves 0x0603 r → r.len = 4 → getLe p 0 4 ≤ 1 → officer → s.fw.commit = [] →
      (s.fw.staged.length < 4096 →
        ∃ t, exec (.fwCommit r) s = .next t ∧ Answered 0x0603 r Status.invalidField 8 [] s t ∧ Only [.mail] s t) ∧
      (s.fw.stagedComplete = true →
        (∀ d, s.fwFault (certOf r) s.fw.staged = some d →
          ∃ t, exec (.fwCommit r) s = .next t ∧ Answered 0x0603 r Status.invalidField d [] s t ∧ Only [.mail] s t) ∧
        (s.fwFault (certOf r) s.fw.staged = none → ∃ t, exec (.fwCommit r) s = .next t ∧ Underway 0x0603 r s t ∧ Only [.mail, .fw] s t ∧
          t.fw = { s.fw with commit := [(r.mb.toNat, bitAt (getLe p 0 4) 0)] }))) ∧
    (∀ m raise, s.fw.commit = [(m, raise)] → m < 16 → s.mail.length = 16 →
      let one := !s.fw.bootSlot
      let floor := if raise then max s.fw.floor (getLe s.fw.staged 16 4) else s.fw.floor
      ∃ t, exec .fwCommitComplete s = .next t ∧ t.fw = { s.fw with
          slot0 := if one then s.fw.slot0 else s.fw.staged, slot1 := if one then s.fw.staged else s.fw.slot1, bootSlot := one,
          bootSeq := s.fw.bootSeq + 1, bootRecB := !s.fw.bootRecB, floor := floor, commit := [] } ∧
        (s.newOut t).take 2 = [Output.flash (if one then 0x500000 else 0x100000) s.fw.staged,
          Output.flash (if s.fw.bootRecB then 0x2000 else 0x3000) (bootRecord (s.fw.bootSeq + 1) one)] ∧
        (t.mbox m).state = 2 ∧ (t.mbox m).status = Status.success ∧ (∀ i : Nat, i ≠ m → t.mail[i]? = s.mail[i]?) ∧ Only [.mail, .fw] s t) ∧
    (Plain r → s.Serves 0x0604 r → r.len = 0 → officer →
      let img := s.fw.slot s.fw.bootSlot
      (fwVersion img = s.fw.running.toNat → ∃ t, exec (.fwActivate r) s = .next t ∧ Answered 0x0604 r Status.sequenceError 1 [] s t ∧ Only [.mail] s t) ∧
      (fwVersion img ≠ s.fw.running.toNat → getLe img 28 4 % 2 = 0 →
        ∃ t, exec (.fwActivate r) s = .next t ∧ Answered 0x0604 r Status.sequenceError 2 [] s t ∧ Only [.mail] s t) ∧
      (fwVersion img ≠ s.fw.running.toNat → getLe img 28 4 % 2 = 1 → (s.longBusy = true ∨ s.glob.shutdown = 1) →
        ∃ t, exec (.fwActivate r) s = .next t ∧ Answered 0x0604 r Status.sequenceError 3 [] s t ∧ Only [.mail] s t) ∧
      (fwVersion img ≠ s.fw.running.toNat → getLe img 28 4 % 2 = 1 → s.longBusy = false → s.glob.shutdown ≠ 1 → s.fw.act = .none →
        (∀ d, s.fwFault (certOf r) img = some d →
          ∃ t, exec (.fwActivate r) s = .next t ∧ Answered 0x0604 r Status.invalidField d [] s t ∧ Only [.mail] s t) ∧
        (s.fwFault (certOf r) img = none → ∃ t, exec (.fwActivate r) s = .next t ∧ Underway 0x0604 r s t ∧
          t.fw = { s.fw with act := .preparing, actMb := some r.mb.toNat, prevSlot := !s.fw.bootSlot } ∧
          ((∀ x, s.units.running = some x → x.kind ≠ 2) → t.units = s.units) ∧
          (∀ x, s.units.running = some x → x.kind = 2 → t.units.running = none ∧ Reported 0x0405 x.id.toNat 4 s t) ∧
          Only [.mail, .fw, .units, .evq] s t))) ∧
    (let go := s.fw.act = .preparing ∧ s.actGuard = true ∧ (s.forge.writing = true → s.param 0x0C070700 ≤ s.blwFill) ∧ s.noImageDue = true
     (go → ∃ t, exec .activationDrain s = .next t ∧ t.fw = { s.fw with act := .draining } ∧ Only [.fw] s t) ∧
     (¬ go → exec .activationDrain s = .next s)) ∧
    (s.fw.act = .draining → s.drained = true →
      (s.actGuard = true → ∃ t, exec .blackoutStart s = .next t ∧ t.fw = { s.fw with act := .blackout } ∧ Only [.fw] s t) ∧
      (s.actGuard = false → s.fw.heldMb = [] →
        ∃ t, exec .blackoutStart s = .next t ∧ t.fw = { s.fw with act := .preparing } ∧ Only [.fw] s t)) ∧
    ((s.fw.act ≠ .draining ∨ s.drained = false) → exec .blackoutStart s = .next s) ∧
    (s.fw.act = .blackout → calm →
      (∃ t, exec .firmwareReady s = .next t ∧ ended Status.success 0 t ∧ t.fw.running = BitVec.ofNat 64 (fwVersion (s.fw.slot s.fw.bootSlot)) ∧
        ((∀ h ∈ s.evq.held, h.code ≠ 0x0503) → Reported 0x0503 (fwVersion (s.fw.slot s.fw.bootSlot)) 0 s t) ∧ t.fw.bootSlot = s.fw.bootSlot ∧
        Only [.fw, .mail, .evq, .motion, .pairs, .recs] s t) ∧
      (∃ t, exec .activationFallback s = .next t ∧ ended Status.sequenceError 5 t ∧ t.fw.running = s.fw.running ∧ t.fw.bootSlot = s.fw.prevSlot ∧
        Only [.fw, .mail, .evq, .motion, .pairs, .recs] s t)) ∧
    (s.fw.act ≠ .blackout → exec .firmwareReady s = .next s ∧ exec .activationFallback s = .next s) ∧
    ((s.fw.act = .preparing ∨ s.fw.act = .draining) → calm →
      ∃ t, exec .actDrainMaxExpiry s = .next t ∧ ended Status.sequenceError 4 t ∧ t.fw.running = s.fw.running ∧ t.fw.bootSlot = s.fw.bootSlot ∧
        Only [.fw, .mail, .evq, .motion, .pairs, .recs] s t) ∧
    (s.fw.act ≠ .preparing → s.fw.act ≠ .draining → exec .actDrainMaxExpiry s = .next s)

/-- POWER_SET and the idle timers enter power states, a wake brings P0 or is kept, each state reached is posted, P3 ends every role. Rests
on R322, R356, R357, R358, R365, R383, R266. -/
def Obligations.PowerStatesAreEnteredAndLeft : Prop :=
  ∀ (r : MbReq) (s : State),
    let p := mbData r
    let n := getLe p 0 1
    (Plain r → s.Serves 0x0701 r → r.len = 4 → n < 4 → zeroAt p 1 3 = true →
      (s.pwr.entering = none → s.pwr.state.toNat = n →
        ∃ t, exec (.powerSet r) s = .next t ∧ Answered 0x0701 r Status.success 0 [] s t ∧ Only [.mail] s t) ∧
      (s.pwr.entering = none → s.pwr.state.toNat ≠ n → n ≠ 0 →
        ∃ t, exec (.powerSet r) s = .next t ∧ Underway 0x0701 r s t ∧
          t.pwr = { s.pwr with entering := some (BitVec.ofNat 2 n), wake := false, mb := some r.mb.toNat } ∧
          t.forge = { s.forge with ending := s.forge.ending || (decide (2 ≤ n) && s.forge.writing) } ∧
          (2 ≤ n → t.units.running = none) ∧ (n = 1 → Only [.mail, .pwr] s t) ∧
          Only [.mail, .pwr, .evq, .forge, .motion, .pairs, .units] s t) ∧
      (s.pwr.entering.isSome → n ≠ 0 →
        ∃ t, exec (.powerSet r) s = .next t ∧ Underway 0x0701 r s t ∧
          t.pwr = { s.pwr with deeper := s.pwr.deeper ++ [(BitVec.ofNat 2 n, r.mb.toNat)] } ∧ Only [.mail, .pwr] s t) ∧
      (s.pwr.entering = none → s.pwr.state ≠ 0 → n = 0 → s.pwr.d3hot = false →
        ∃ t, exec (.powerSet r) s = .next t ∧ (t.mbox r.mb).state = 2 ∧ (t.mbox r.mb).status = Status.success ∧ t.pwr.state = 0 ∧
          Reported 0x0504 0 0 s t ∧ Only [.mail, .pwr, .evq, .hearth] s t)) ∧
    (∀ (c : Instr) (id : Nat) (to' : BitVec 2), (c, id, to') ∈ ([(.pwrIdleP1Expiry, 0x0C070100, 1), (.pwrIdleP2Expiry, 0x0C070200, 2),
        (.pwrIdleP3Expiry, 0x0C070300, 3)] : List (Instr × Nat × BitVec 2)) →
      let due := s.param id ≠ 0 ∧ s.idle = true ∧ s.pwr.entering = none ∧ s.pwr.state + 1 = to'
      (due → ∃ t, exec c s = .next t ∧ t.pwr = { s.pwr with entering := some to', wake := false, mb := none } ∧ Only [.pwr, .forge] s t) ∧
      (¬ due → exec c s = .next s)) ∧
    (s.pwr.entering = none → s.pwr.state = 0 → exec .wakeEvent s = .next s) ∧
    (s.pwr.d3hot = false →
      (s.pwr.entering = none → s.pwr.state ≠ 0 →
        ∃ t, exec .wakeEvent s = .next t ∧ t.pwr = { s.pwr with state := 0 } ∧ t.hearth.selfRefresh = false ∧ Reported 0x0504 0 0 s t ∧
          Only [.pwr, .evq, .hearth, .mail] s t) ∧
      (s.pwr.entering.isSome → s.param 0x0C070400 = 1 →
        ∃ t, exec .wakeEvent s = .next t ∧ t.pwr = { s.pwr with wake := true } ∧ Only [.pwr] s t) ∧
      (s.pwr.entering.isSome → s.param 0x0C070400 ≠ 1 → s.pwr.deeper = [] → s.mail.length = 16 →
        ∃ t, exec .wakeEvent s = .next t ∧ t.pwr = { s.pwr with state := 0, entering := none, mb := none } ∧
          (∀ m, s.pwr.mb = some m → m < 16 → (t.mbox m).state = 2 ∧ (t.mbox m).status = Status.sequenceError ∧ (t.mbox m).detail = 1) ∧
          Reported 0x0504 0 0 s t ∧ Only [.pwr, .evq, .hearth, .mail] s t)) ∧
    (∀ x, s.pwr.entering = some x →
      (s.entryDone x = false → exec .powerEntryComplete s = .next s) ∧
      (s.entryDone x = true → s.pwr.wake = false → s.pwr.deeper = [] → s.pwr.d3hot = false → s.mail.length = 16 →
        ∃ t, exec .powerEntryComplete s = .next t ∧ t.pwr = { s.pwr with state := x, entering := none, mb := none } ∧
          (∀ m, s.pwr.mb = some m → m < 16 → (t.mbox m).state = 2 ∧ (t.mbox m).status = Status.success) ∧
          t.hearth.selfRefresh = decide (2 ≤ x.toNat) ∧ (x = 3 → ∀ b ∈ t.mail, b.role = 0) ∧ Reported 0x0504 x.toNat 0 s t ∧
          Only [.pwr, .evq, .hearth, .mail] s t)) ∧
    (s.pwr.entering = none → exec .powerEntryComplete s = .next s)

/-- ENABLE enables or waits for a shutdown's end; an orderly shutdown ends writing, an abrupt one deletes the pairs; both wait for a hot
activation. Rests on R360, R361, R362, R317, R280. -/
def Obligations.EnableAndShutdown : Prop :=
  ∀ (s : State),
    (∃ t, exec .globalEnable s = .next t ∧ t.glob.enable = true ∧ Only [.glob] s t ∧
      ((s.glob.ready = false ∨ s.glob.fatal = true ∨ s.bench.on = true) → t.glob.enabled = s.glob.enabled ∧ t.glob.shutdown = s.glob.shutdown) ∧
      (s.glob.ready = true → s.glob.fatal = false → s.bench.on = false →
        ((s.glob.shutdown = 1 ∨ s.glob.shutdownAfterAct ≠ 0) → t.glob.enablePending = true ∧ t.glob.enabled = s.glob.enabled) ∧
        (s.glob.shutdown ≠ 1 → s.glob.shutdownAfterAct = 0 → t.glob.enabled = true ∧ t.glob.shutdown = 0))) ∧
    (∀ via : Bool,
      (via = true → s.glob.enablePending = true → ∃ t, exec (.orderlyShutdown via) s = .next t ∧ t.glob.enablePending = false ∧
        t.glob.enable = false ∧ t.glob.shutdown = s.glob.shutdown ∧ Only [.glob] s t) ∧
      ((via = false ∨ s.glob.enablePending = false) →
        (s.fw.act = .none → s.glob.shutdown ≠ 1 → ∃ t, exec (.orderlyShutdown via) s = .next t ∧ t.glob.shutdown = 1 ∧ t.glob.abrupt = false ∧
          t.glob.enable = (s.glob.enable && !via) ∧ t.forge = { s.forge with ending := s.forge.ending || s.forge.writing } ∧
          Only [.glob, .forge] s t) ∧
        (s.fw.act = .none → s.glob.shutdown = 1 → ∃ t, exec (.orderlyShutdown via) s = .next t ∧ t.glob.shutdown = 1 ∧
          t.glob.enable = (s.glob.enable && !via) ∧ Only [.glob] s t) ∧
        (s.fw.act ≠ .none → ∃ t, exec (.orderlyShutdown via) s = .next t ∧ t.glob.shutdown = s.glob.shutdown ∧
          t.glob.shutdownAfterAct ≠ 0 ∧ Only [.glob] s t))) ∧
    (s.fw.act = .none → (s.glob.shutdown ≠ 1 ∨ s.glob.abrupt = false) → ∃ t, exec .abruptShutdown s = .next t ∧ t.glob.shutdown = 1 ∧
      t.glob.abrupt = true ∧ (∀ q < 256, t.pair? q = none) ∧ t.forge.writing = false ∧ t.recsIn .sealed = [] ∧
      (∀ x ∈ t.recs.recs, x.state = .opened → 256 ≤ x.pair ∨ s.pair? x.pair = none) ∧
      Only [.glob, .anvil, .blw, .cart, .evq, .forge, .hearth, .heat, .motion, .pairs, .rd, .recs, .sec] s t) ∧
    (s.fw.act ≠ .none → ∃ t, exec .abruptShutdown s = .next t ∧ t.glob.shutdownAfterAct = 2 ∧ t.glob.shutdown = s.glob.shutdown ∧
      Only [.glob] s t) ∧
    (s.glob.shutdown = 1 → s.shutdownDone = true → ∃ t, exec .shutdownComplete s = .next t ∧ t.glob.enablePending = false ∧
      (s.glob.enablePending = true → t.glob.enabled = true ∧ t.glob.shutdown = 0) ∧
      (s.glob.enablePending = false → t.glob.enabled = false ∧ t.glob.shutdown = 2) ∧ (s.tapeStopped = true → Only [.glob] s t) ∧
      Only [.glob, .motion, .pairs] s t) ∧
    ((s.glob.shutdown ≠ 1 ∨ s.shutdownDone = false) → exec .shutdownComplete s = .next s)

/-- A scrub and a self-test run alone, end with their record and event, and a unit that fails a test or comparison is quarantined and
reported. Rests on R364, R365, R396, R397, R432, R435, R436, R437, Table 12-17, Table 15-2, Table 15-3. -/
def Obligations.ScrubsAndSelfTests : Prop :=
  ∀ (r : MbReq) (s : State),
    let p := mbData r
    let faulty := fun (cls num : Nat) (t : State) => t.isQuarantined cls num = true ∧
      (s.isQuarantined cls num = false → Reported 0x0401 (2 ^ 24 * cls + num) 0 s t)
    (Plain r → s.Serves 0x0401 r → r.len = 24 → getLe p 16 4 ≤ 1 → zeroAt p 20 4 = true →
      (s.hearth.scrub.isSome → ∃ t d, exec (.scrub r) s = .next t ∧ Answered 0x0401 r Status.sequenceError d [] s t ∧ Only [.mail] s t) ∧
      (s.hearth.scrub = none → getLe p 0 8 % 64 = 0 → getLe p 8 8 % 64 = 0 → 0 < getLe p 8 8 → getLe p 0 8 + getLe p 8 8 ≤ s.hearth.limit →
        let sc : Scrub := { mb := r.mb.toNat, start := getLe p 0 8, len := getLe p 8 8, repair := decide (getLe p 16 4 = 1), time := s.now }
        ∃ t, exec (.scrub r) s = .next t ∧ Underway 0x0401 r s t ∧ t.hearth = { s.hearth with scrub := some sc } ∧ Only [.mail, .hearth] s t)) ∧
    (s.hearth.scrub = none → ∀ found, exec (.scrubDone found) s = .next s) ∧
    (∀ sc, s.hearth.scrub = some sc → sc.mb < 16 → s.mail.length = 16 → ∃ t, exec (.scrubDone []) s = .next t ∧
      t.hearth = { s.hearth with scrub := none } ∧ (t.mbox sc.mb).state = 2 ∧ (t.mbox sc.mb).status = Status.success ∧
      (t.mbox sc.mb).payload.length = 64 ∧ slice (t.mbox sc.mb).payload 0 8 = leBytes 8 sc.start ∧
      slice (t.mbox sc.mb).payload 8 8 = leBytes 8 sc.len ∧ (∀ i : Nat, i ≠ sc.mb → t.mail[i]? = s.mail[i]?) ∧
      Reported 0x0404 (s.mbox sc.mb).seq.toNat 0 s t ∧ Only [.mail, .hearth, .evq] s t) ∧
    (Plain r → s.Serves 0x0702 r → r.len = 8 → (getLe p 0 1 = 1 ∨ getLe p 0 1 = 2) → zeroAt p 1 3 = true →
      (s.units.running.isSome → ∃ t d, exec (.selftestStart r) s = .next t ∧ Answered 0x0702 r Status.sequenceError d [] s t ∧ Only [.mail] s t) ∧
      (s.units.running = none →
        let x : TestResult := { id := s.units.nextTest, kind := getLe p 0 1, scope := BitVec.ofNat 32 (getLe p 4 4), start := s.now }
        ∃ t, exec (.selftestStart r) s = .next t ∧ Answered 0x0702 r Status.success 0 (leBytes 4 s.units.nextTest.toNat) s t ∧
          t.units = { s.units with nextTest := s.units.nextTest + 1, running := some x } ∧ Only [.mail, .units] s t)) ∧
    (Plain r → s.Serves 0x0703 r → r.len = 0 →
      (s.units.running = none → ∃ t d, exec (.selftestAbort r) s = .next t ∧ Answered 0x0703 r Status.sequenceError d [] s t ∧ Only [.mail] s t) ∧
      (∀ x, s.units.running = some x → ∃ t, exec (.selftestAbort r) s = .next t ∧ Answered 0x0703 r Status.success 0 [] s t ∧
        t.units.running = none ∧ t.units.underTest = [] ∧ t.units.quarantined = s.units.quarantined ∧
        t.units.results.head? = some { x with outcome := 2, duration := msBetween x.start s.now } ∧ t.units.results.length ≤ 16 ∧
        Reported 0x0405 x.id.toNat 2 s t ∧ Only [.mail, .units, .evq] s t)) ∧
    (s.units.running = none → ∀ bad, exec (.selftestDone bad) s = .next s) ∧
    (∀ x, s.units.running = some x →
      (∃ t y, exec (.selftestDone []) s = .next t ∧ t.units.running = none ∧ t.units.results.head? = some y ∧ y.id = x.id ∧ y.outcome = 0 ∧
        y.failed = 0 ∧ t.units.quarantined = s.units.quarantined ∧ Reported 0x0405 x.id.toNat 0 s t ∧ Only [.units, .evq] s t) ∧
      (∀ n < 52, inScope x.scope.toNat 1 = true → ∃ t y, exec (.selftestDone [(1, n)]) s = .next t ∧ t.units.running = none ∧
        t.units.results.head? = some y ∧ y.outcome = 1 ∧ y.failed = 1 ∧ y.first = unitId 1 n ∧ faulty 1 n t ∧ Only [.units, .evq, .jnl] s t)) ∧
    (∀ cls q, (isSingleton cls = false → exec (.singletonTestSlice cls q) s = .next s) ∧
      (isSingleton cls = true → ∃ t, exec (.singletonTestSlice cls q) s = .next t ∧ Only [.units] s t ∧
        (s.units.running = none → t.units = { s.units with sliceHeld := s.units.sliceHeld + b2n q, slice := some (cls, 0) }) ∧
        (∀ x, s.units.running = some x → x.kind = 2 → q = true → (∀ k, s.units.slice = some (cls, k) → k < 64) →
          t.units.running = some { x with yielded := x.yielded + 1 } ∧ t.units.sliceHeld = s.units.sliceHeld) ∧
        (∀ x, s.units.running = some x → (x.kind ≠ 2 ∨ q = false ∨ ∃ k, 64 ≤ k ∧ s.units.slice = some (cls, k)) →
          t.units = { s.units with sliceHeld := s.units.sliceHeld + b2n q, slice := some (cls, 0) }))) ∧
    (s.param 0x0F0C0100 = 0 → ∀ bad, exec (.bistIntervalTick bad) s = .next s) ∧
    (s.param 0x0F0C0100 ≠ 0 →
      (∃ t, exec (.bistIntervalTick []) s = .next t ∧ t.units = { s.units with nextUnit := t.units.nextUnit } ∧ Only [.units] s t) ∧
      (∀ u, nextInService s 1 52 ((assocGet s.units.nextUnit 1).getD 0) = some u →
        ∃ t, exec (.bistIntervalTick [1]) s = .next t ∧ faulty 1 u t ∧ Only [.units, .evq, .jnl] s t)) ∧
    (let still := s.tapeStopped = true ∧ s.forge.writing = false ∧ s.rd.reading = false
     (still → exec (.dailySingletonTest []) s = .next s) ∧ (¬ still → ∀ bad, exec (.dailySingletonTest bad) s = .next s) ∧
     (∀ k : Fin 3, still → s.armedActive = false → s.recsIn .sealed = [] →
       ∃ t, exec (.dailySingletonTest [k]) s = .next t ∧ faulty (0x11 + k.val) 0 t ∧ Only [.units, .evq, .jnl] s t)) ∧
    (∀ c : Fin 4, (s.armedActive = false → s.forge.writing = false → s.recsIn .sealed = [] → exec (.streamingSingletonFault c) s = .next s) ∧
      (s.armedActive = true → ∃ t, exec (.streamingSingletonFault c) s = .next t ∧ Output.peerFault ∈ s.newOut t ∧ t.twin.role = 2 ∧
        t.twin.faultSent = true ∧ t.forge.writing = false ∧ (∀ x ∈ t.tongs.ports, x.owner = false ∧ x.gate = false) ∧
        Only [.tongs, .twin, .anvil, .forge, .heat, .blw] s t)) ∧
    (∀ c : Fin 4, (s.unitsIn 6 4 ≤ 1 → exec (.smithyLockstepFault c) s = .next s) ∧
      (1 < s.unitsIn 6 4 → ∃ t, exec (.smithyLockstepFault c) s = .next t ∧ faulty 6 c.val t ∧ Only [.units, .evq, .jnl] s t))

/-- UNIT_CONTROL, CAL_WRITE, BENCH_CONTROL, TWIN_PAIR and TWIN_SWAP do what their rules say or answer the status the rules give, changing
nothing. Rests on R420, R425, R431, R438, R439, R445, R452, R453, Table 14-13, Table 15-1. -/
def Obligations.UnitsCalibrationBenchTwinControl : Prop :=
  ∀ (r : MbReq) (s : State), Plain r →
    let p := mbData r
    let a := getLe p 0 1
    let officer := (s.mbox r.mb).role = 1
    (s.Serves 0x0901 r → r.len = 8 → 1 ≤ getLe p 4 1 → getLe p 4 1 ≤ 4 → zeroAt p 5 3 = true → bitsOf (getLe p 0 4) 16 8 = 0 →
      let cls := getLe p 0 4 / 2 ^ 24
      let num := getLe p 0 4 % 2 ^ 16
      (unitExists cls num = false → ∃ t d, exec (.unitControl r) s = .next t ∧ Answered 0x0901 r Status.invalidField d [] s t ∧ Only [.mail] s t) ∧
      (unitExists cls num = true → getLe p 4 1 = 1 →
        (s.neededUnit cls num = true →
          ∃ t, exec (.unitControl r) s = .next t ∧ Answered 0x0901 r Status.sequenceError 1 [] s t ∧ Only [.mail] s t) ∧
        (s.neededUnit cls num = false → cls ≠ 9 → num ∉ s.outUnits cls → ∃ t, exec (.unitControl r) s = .next t ∧
          Answered 0x0901 r Status.success 0 [2] s t ∧ t.isQuarantined cls num = true ∧ Reported 0x0401 (2 ^ 24 * cls + num) 0 s t ∧
          Only [.mail, .units, .evq, .jnl, .sec, .heat, .tongs] s t)) ∧
      (unitExists cls num = true → getLe p 4 1 = 2 → 1 ≤ cls → cls ≤ 6 → (s.testableNow cls num = true ∨ num ∈ s.outUnits cls) →
        (r.aux.headD 0 = 0 → ∃ t, exec (.unitControl r) s = .next t ∧ Answered 0x0901 r Status.success 0 [0] s t ∧
          num ∉ t.outUnits cls ∧ Only [.mail, .units, .sec] s t) ∧
        (r.aux.headD 0 ≠ 0 → ∃ t, exec (.unitControl r) s = .next t ∧ Answered 0x0901 r Status.success 0 [3] s t ∧
          t.isQuarantined cls num = true ∧ Only [.mail, .units, .evq, .jnl, .sec, .heat] s t))) ∧
    (s.Serves 0x0802 r → r.len = 16 → getLe p 8 4 ≤ 1 → zeroAt p 12 4 = true → officer →
      let set := fit 33280 r.io.data
      ((s.forge.writing = true ∨ s.rd.reading = true) →
        ∃ t d, exec (.calWrite r) s = .next t ∧ Answered 0x0802 r Status.sequenceError d [] s t ∧ Only [.mail] s t) ∧
      (s.forge.writing = false → s.rd.reading = false → getLe p 0 8 % 8 = 0 → s.eepromUp = true → r.io.ok = true →
        (∀ d, calFault set s.tongs.eeprom (decide (getLe p 8 4 = 1)) = some d →
          ∃ t, exec (.calWrite r) s = .next t ∧ Answered 0x0802 r Status.invalidField d [] s t ∧ Only [.mail] s t) ∧
        (calFault set s.tongs.eeprom (decide (getLe p 8 4 = 1)) = none →
          (r.aux = [] → ∃ t, exec (.calWrite r) s = .next t ∧ Answered 0x0802 r Status.success 0 [] s t ∧ t.tongs.eeprom = set ∧
            t.tongs.calFailed = false ∧ Output.eeprom set ∈ s.newOut t ∧ Only [.mail, .tongs] s t) ∧
          (r.aux ≠ [] → fit 33280 (r.aux.map (fun x => byte (ofSigned 8 x))) ≠ set → ∃ t d, exec (.calWrite r) s = .next t ∧
            Answered 0x0802 r Status.calibrationDegraded d [] s t ∧ t.tongs.calFailed = true ∧ Only [.mail, .tongs] s t)))) ∧
    (s.Serves 0x0905 r → benchSize r.len.toNat p = true → 1 ≤ a → a ≤ 5 → officer →
      (a = 1 → s.benchReady = true → s.bench.on = false → ∃ t, exec (.benchControl r) s = .next t ∧
        Answered 0x0905 r Status.success 0 [] s t ∧ t.bench = { on := true } ∧ Only [.mail, .bench] s t) ∧
      (((a = 1 ∧ s.benchReady = false) ∨ (a ≠ 1 ∧ s.bench.on = false)) →
        ∃ t d, exec (.benchControl r) s = .next t ∧ Answered 0x0905 r Status.sequenceError d [] s t ∧ Only [.mail] s t) ∧
      (a = 3 → s.bench.on = true → r.io.ok = true → ∃ t, exec (.benchControl r) s = .next t ∧ Answered 0x0905 r Status.success 0 [] s t ∧
        t.bench = { s.bench with supply := s.bench.supply ++ [(getLe p 1 8, fit (getLe p 17 8) r.io.data)] } ∧ Only [.mail, .bench] s t) ∧
      (a = 5 → s.bench.on = true → ∃ t, exec (.benchControl r) s = .next t ∧ t.bench = {} ∧ (∀ x ∈ t.pairs, x = none) ∧ t.recs.cmds = [] ∧
        t.glob.enabled = false ∧ Output.response r.mb ∈ s.newOut t)) ∧
    (s.Serves 0x0902 r → r.len = 24 → getLe p 16 4 ≤ 1 → zeroAt p 20 4 = true → officer →
      let found := (r.aux.headD 0).toNat
      (getLe p 16 4 = 1 → ∃ t, exec (.twinPair r) s = .next t ∧ Answered 0x0902 r Status.success 0 [] s t ∧ t.twin.paired = false ∧
        t.twin.peer = 3 ∧ Output.flash 0x4000 (List.replicate 4096 0xFF) ∈ s.newOut t ∧ Only [.mail, .twin] s t) ∧
      (getLe p 16 4 = 0 → 1 ≤ found → found ≤ 5 →
        ∃ t, exec (.twinPair r) s = .next t ∧ Answered 0x0902 r Status.sequenceError found [] s t ∧ Only [.mail] s t) ∧
      (getLe p 16 4 = 0 → found = 0 → ∃ t, exec (.twinPair r) s = .next t ∧ Answered 0x0902 r Status.success 0 [] s t ∧ t.twin.paired = true ∧
        t.twin.peerSerial = slice p 0 16 ∧ t.twin.peer = 0 ∧ t.twin.die = dieOf s.glob.serial (slice p 0 16) ∧
        Output.flash 0x4000 (fit 16 s.glob.serial ++ slice p 0 16) ∈ s.newOut t ∧ Only [.mail, .twin] s t)) ∧
    (s.Serves 0x0903 r → r.len = 0 → officer →
      (s.armedActive = false → ∃ t d, exec (.twinSwap r) s = .next t ∧ Answered 0x0903 r Status.sequenceError d [] s t ∧ Only [.mail] s t) ∧
      (s.armedActive = true → s.twin.swap = none → s.forge.writing = true → ∃ t, exec (.twinSwap r) s = .next t ∧ Underway 0x0903 r s t ∧
        t.twin = { s.twin with swap := some r.mb.toNat } ∧ Only [.mail, .twin] s t) ∧
      (s.armedActive = true → s.twin.swap = none → s.forge.writing = false → ∃ t, exec (.twinSwap r) s = .next t ∧
        Answered 0x0903 r Status.success 0 [] s t ∧ t.twin.role = 2 ∧ t.twin.swaps = satAdd 32 s.twin.swaps 1 ∧ Output.handover ∈ s.newOut t ∧
        (∀ x ∈ t.tongs.ports, x.owner = false ∧ x.gate = false ∧ x.release = true) ∧ Only [.mail, .twin, .tongs, .anvil, .forge, .heat, .blw] s t))

/-- An access to the Hearth corrects one device, counts and logs it by class, marks an uncorrectable burst until it is written whole, and
changes no content. Rests on R377, R381, R389, R391, R392, R393, R394, Table 13-9, Table 13-10. -/
def Obligations.HearthAccessAndCorrection : Prop :=
  ∀ (req addr : Nat) (kind : Fin 3) (e1 e2 : List (Fin 80 × BitVec 8)) (feed ra : Nat) (s : State),
    let c := Instr.hearthAccess req addr kind e1 e2 feed ra
    let h := { s.hearth with feedFifo := min feed 524288, raFifo := min ra 1048576 }
    let s1 := { s with hearth := h }
    let level := s1.levelOf req ((bucketOf req).elim 0 (fun b => h.refilled b.1 b.2 (s.hns - h.tokenTime)))
    (s.hearth.place addr = none → exec c s = .next s1) ∧
    ∀ x u ch, s.hearth.place addr = some (x, u) → s.hearth.chans[s.hearth.serving x]? = some ch →
      let n := s.hearth.serving x
      let bars := s.hearth.selfRefresh = true ∨ ch.state = 1 ∨ (s1.panic = true ∧ (level = 4 ∨ level = 6))
      let burst := s.hearth.burst addr
      let kept := fun (t : State) (y : HChan) => t.hearth.mem = s.hearth.mem ∧ t.hearth.chans[n]? = some y ∧ y.state = ch.state ∧
        (∀ i, i ≠ n → t.hearth.chans[i]? = s.hearth.chans[i]?) ∧
        (∀ rk, y.ranks[2 * (s.hearth.dram u).sub + (s.hearth.dram u).rank]? = some rk → rk.powerDown = false)
      (bars → exec c s = .next s1) ∧
      (¬ bars →
        (kind = 1 → ∃ t y, exec c s = .next t ∧ kept t y ∧ t.hearth.bad = s.hearth.bad.filter (· ≠ addr / 64) ∧ y.corrD = ch.corrD ∧
          y.corrM = ch.corrM ∧ y.uncorr = ch.uncorr ∧ Only [.hearth] s t) ∧
        (kind ≠ 1 → addr / 64 ∉ s.hearth.bad → (∀ d, readBurst burst e1 = .clean d →
          ∃ t y, exec c s = .next t ∧ kept t y ∧ t.hearth.bad = s.hearth.bad ∧ t.hearth.scale = s.hearth.scale ∧ y.corrD = ch.corrD ∧
            y.corrM = ch.corrM ∧ y.uncorr = ch.uncorr ∧ Only [.hearth] s t)) ∧
        (kind ≠ 1 → addr / 64 ∉ s.hearth.bad → ∀ dev d, readBurst burst e1 = .corrected dev d →
          (classD addr = true → ∃ t y, exec c s = .next t ∧ t.hearth.mem = s.hearth.mem ∧ t.hearth.chans[n]? = some y ∧
            y.corrD = satAdd 64 ch.corrD 1 ∧ y.corrM = ch.corrM ∧ t.hearth.scale = s.hearth.scale ∧ t.hearth.bad = s.hearth.bad ∧
            Only [.hearth] s t) ∧
          (classD addr = false → s.hearth.scale = [] → ∃ t y z, exec c s = .next t ∧ t.hearth.mem = s.hearth.mem ∧
            t.hearth.chans[n]? = some y ∧ y.corrM = satAdd 64 ch.corrM 1 ∧ y.corrD = ch.corrD ∧ t.hearth.scale = [z] ∧
            z.addr = addr / 64 * 64 ∧ z.chan = n ∧ z.device = dev ∧ z.row = (s.hearth.dram u).row ∧ z.count = 1 ∧ z.requester = req ∧
            z.repaired = true ∧ z.time = s.now ∧ Only [.hearth] s t)) ∧
        (kind ≠ 1 → req = 3 → poolBase ≤ addr / 64 * 64 → s.hearth.mirror = false → (addr / 64 ∈ s.hearth.bad ∨ readBurst burst e1 = .bad) →
          ∃ t y, exec c s = .next t ∧ t.hearth.mem = s.hearth.mem ∧ t.hearth.chans[n]? = some y ∧ y.uncorr = satAdd 32 ch.uncorr 1 ∧
            addr / 64 ∈ t.hearth.bad ∧ (∀ b, b ≠ addr / 64 → (b ∈ t.hearth.bad ↔ b ∈ s.hearth.bad)) ∧
            Reported 0x0402 (addr / 64 * 64) req s t ∧ Only [.hearth, .evq, .jnl] s t))

/-- Refresh debts, the doubled rate, power-down, drift and full retraining move as their rules say; markers and the end of SNAP_POST touch
the journal only. Rests on R378, R379, R382, R383, R385, R386, R387, R447, R450, Table 15-9. -/
def Obligations.HearthRefreshTrainingAndJournal : Prop :=
  ∀ (s : State) (n : Fin 8) (k : Fin 4) (ch : HChan) (rk : Rank), s.hearth.chans[n.val]? = some ch → ch.ranks[k.val]? = some rk →
    let others := fun (t : State) => t.hearth = { s.hearth with chans := t.hearth.chans } ∧ ∀ i : Nat, i ≠ n.val → t.hearth.chans[i]? = s.hearth.chans[i]?
    let rank := fun (t : State) (x : Rank) => others t ∧ t.hearth.chans[n.val]? = some { ch with ranks := modAt ch.ranks k (fun _ => x) } ∧
      Only [.hearth] s t
    (s.hearth.selfRefresh = true → exec (.refreshDue n k) s = .next s) ∧
    (s.hearth.selfRefresh = false →
      (s.panic = true → rk.debt < 4 → ∃ t, exec (.refreshDue n k) s = .next t ∧ rank t { rk with debt := rk.debt + 1, powerDown := false }) ∧
      (s.panic = true → 4 ≤ rk.debt → ∃ t, exec (.refreshDue n k) s = .next t ∧ others t ∧ Only [.hearth] s t ∧
        t.hearth.chans[n.val]? = some { ch with
          ranks := modAt ch.ranks k (fun _ => { rk with powerDown := false }), forced := satAdd 32 ch.forced 1 }) ∧
      (s.panic = false → ∃ t, exec (.refreshDue n k) s = .next t ∧ rank t { rk with debt := rk.debt - 1, powerDown := false })) ∧
    (∀ doubled above, ∃ t y, exec (.refreshRateIndicatorRead doubled above) s = .next t ∧ t.hearth.doubled = (doubled || above) ∧
      t.hearth.mem = s.hearth.mem ∧ t.hearth.chans[n.val]? = some y ∧ y.state = ch.state ∧
      ((doubled || above) = true → s.hearth.doubled = false → ch.state ≠ 3 → ch.state ≠ 4 →
        y.conversions = satAdd 32 ch.conversions 1 ∧ ∀ x ∈ y.ranks, x.debt = 0) ∧
      ((doubled || above) = false → s.hearth.doubled = true → (y.ranks[k.val]?).map (·.debt) = some ((rk.debt + 1) / 2)) ∧
      ((doubled || above) = s.hearth.doubled → y = ch) ∧ (above = true → Reported 0x0409 (ofSigned 64 s.pvt.temp) 0 s t) ∧
      (above = false → Only [.hearth] s t) ∧ Only [.hearth, .evq] s t) ∧
    (∀ sub : Fin 2, ∃ t y, exec (.hotRowWindowClear n sub) s = .next t ∧ others t ∧ t.hearth.chans[n.val]? = some y ∧
      (∀ e ∈ y.hot, e.1 ≠ sub.val) ∧ (∀ e ∈ ch.hot, e.1 ≠ sub.val → e ∈ y.hot) ∧ y.ranks = ch.ranks ∧ Only [.hearth] s t) ∧
    ((s.param 0x0D0F0300 = 0 ∨ s.panic = true ∨ s.hearth.selfRefresh = true) → exec (.rankPowerDown n k) s = .next s) ∧
    (s.param 0x0D0F0300 ≠ 0 → s.panic = false → s.hearth.selfRefresh = false →
      ∃ t, exec (.rankPowerDown n k) s = .next t ∧ rank t { rk with powerDown := rk.powerDown || decide (rk.debt = 0) }) ∧
    (∀ d : Int,
      ((ch.state = 3 ∨ ch.state = 4) → ∃ t, exec (.dqsOscillator n k d) s = .next t ∧ t.hearth = s.hearth ∧ Only [] s t) ∧
      (ch.state ≠ 3 → ch.state ≠ 4 →
        (2 ≤ d.natAbs → rk.debt = 0 → s.panic = false → ∃ t y, exec (.dqsOscillator n k d) s = .next t ∧ others t ∧
          t.hearth.chans[n.val]? = some y ∧ y.microSlots = satAdd 32 ch.microSlots 1 ∧ y.drift = ch.drift + d ∧
          (ch.wEye.toNat < 2 * (ch.drift + d).natAbs → ch.state = 0 → y.state = 2) ∧ Only [.hearth] s t) ∧
        ((d.natAbs < 2 ∨ rk.debt ≠ 0 ∨ s.panic = true) → ∃ t, exec (.dqsOscillator n k d) s = .next t ∧ rank t { rk with drift := d }))) ∧
    ((ch.state ≠ 2 ∨ ∃ x ∈ s.hearth.chans, x.state = 1) → exec (.fullRetrainingStart n) s = .next s) ∧
    (ch.state = 2 → (∀ x ∈ s.hearth.chans, x.state ≠ 1) → ∃ t, exec (.fullRetrainingStart n) s = .next t ∧ others t ∧
      t.hearth.chans[n.val]? = some { ch with state := 1 } ∧ Only [.hearth] s t) ∧
    (∀ eyes : Eyes, (ch.state ≠ 1 → ∀ ok, exec (.fullRetrainingEnd n ok eyes) s = .next s) ∧
      (ch.state = 1 → ∃ t y, exec (.fullRetrainingEnd n true eyes) s = .next t ∧ others t ∧ t.hearth.chans[n.val]? = some y ∧
        y.state = s.hearth.serviceState n ∧ y.retrainings = satAdd 16 ch.retrainings 1 ∧ y.wEye = eyes.write ∧ y.rEye = eyes.read ∧
        y.vref = eyes.vref ∧ y.drift = 0 ∧ y.trainedAt = s.nowSec ∧ Only [.hearth] s t) ∧
      (ch.state = 1 → s.hearth.mirror = false → s.recs.recs = [] → ∃ t y, exec (.fullRetrainingEnd n false eyes) s = .next t ∧
        t.hearth.chans[n.val]? = some y ∧ y.state = 3 ∧ t.hearth.rot = s.hearth.rot.map (fun e => if e = some n.val then none else e) ∧
        Reported 0x0403 n.val 0 s t ∧ Only [.hearth, .rd, .evq] s t)) ∧
    (s.jnlOn = false → ∃ t, exec .journalMarker s = .next t ∧ t.jnl = s.jnl ∧ Only [] s t) ∧
    (s.jnlOn = true → s.jnl.head + 48 ≤ journalBytes → (s.hearth.place (journalBase + s.jnl.head)).isSome →
      ∃ t e, exec .journalMarker s = .next t ∧ t.jnl.entries.head? = some e ∧ e.type = 0 ∧ e.off = s.jnl.head ∧ e.time = s.now ∧
        e.payload = leBytes 6 s.time.sec.toNat ++ leBytes 8 s.fw.running.toNat ++ leBytes 4 s.paramCrc.toNat ∧ Only [] s t) ∧
    (s.jnl.post = false → exec .snapPostEnd s = .next s) ∧
    (s.jnl.post = true → ∃ t, exec .snapPostEnd s = .next t ∧ t.jnl = { s.jnl with post := false, frozen := s.jnl.control.getLsbD 1 } ∧
      Only [.jnl] s t)

/-- The next CU is compressed, sealed and packed into billet heats with rising serials; a mismatch costs its engine or pair; starvation
ends writing. Rests on R60, R61, R62, R114, R116, R117, R121, R145, R234, R236, R246, R248. -/
def Obligations.FormingCompressesSealsAndPacks : Prop :=
  ∀ (s : State),
    (∀ (e : Fin 24) (bad : Bool) (io : Io),
      ((s.firstCu (fun c => c.comp.isNone && c.item.isNone) = none ∨ s.forge.writing = false) →
        ∃ t, exec (.cuCompress e bad io) s = .next t ∧ Only [] s t) ∧
      (∀ x i raw, s.forge.writing = true → s.firstCu (fun c => c.comp.isNone && c.item.isNone) = some (x, i) → e.val ∉ s.outUnits 3 →
        s.buffersUsed < 32 → s.hearth.rawCu x i = .ok raw →
        (bad = true → ∃ t, exec (.cuCompress e bad io) s = .next t ∧ t.recs.recs = s.recs.recs ∧ Reported 0x0400 e.val x.num s t ∧
          t.isQuarantined 3 e.val = true ∧ t.comp = { s.comp with mismatches := satAdd 32 s.comp.mismatches 1 } ∧
          Only [.comp, .units, .evq, .jnl] s t) ∧
        (bad = false → x.digestAddr = 0 → ∃ (t : State) (y : Rec), exec (.cuCompress e bad io) s = .next t ∧ t.rec? x.num = some y ∧
          (y.cu i).comp = some (deflate x.setting.toNat raw).out ∧ (y.cu i).c = (deflate x.setting.toNat raw).out.length ∧
          (y.cu i).crc = crc32c (deflate x.setting.toNat raw).out ∧ (y.cu i).rawCrc = crc32c raw ∧ (y.cu i).engine = e.val ∧
          (∀ k, k ≠ i → y.cu k = x.cu k) ∧ y.state = x.state ∧ y.extents = x.extents ∧ (∀ m, m ≠ x.num → t.rec? m = s.rec? m) ∧
          Only [.recs, .comp] s t))) ∧
    (∀ (q : Fin 80) (bad : Bool),
      ((s.firstCu (fun c => c.comp.isSome) = none ∨ s.forge.writing = false ∨ q.val ∉ s.sec.pairs) → exec (.cuSeal q bad) s = .next s) ∧
      (∀ x i, s.forge.writing = true → s.firstCu (fun c => c.comp.isSome) = some (x, i) → q.val ∈ s.sec.pairs →
        (bad = true → ∃ t, exec (.cuSeal q bad) s = .next t ∧ t.recs.recs = s.recs.recs ∧ t.sec.lockstep = satAdd 32 s.sec.lockstep 1 ∧
          t.sec.intStatus.getLsbD 4 = true ∧ q.val ∉ t.sec.pairs ∧ t.isQuarantined 4 q.val = true ∧ Only [.sec, .units, .evq, .jnl] s t) ∧
        (bad = false → ∃ (t : State) (y : Rec), exec (.cuSeal q bad) s = .next t ∧ t.rec? x.num = some y ∧ (y.cu i).comp = none ∧
          (∀ c, (x.cu i).comp = some c → x.encrypted = false →
            let l := 16 * cdiv c.length 16
            (y.cu i).item = some (cuHeader (decide (i + 1 = cuCount x.len)) i l (cuRaw x.len i) c.length ++ fit l c ++
              beBytes 4 (crc32c (fit l c)).toNat ++ zeros 12)) ∧
          (∀ k, k ≠ i → y.cu k = x.cu k) ∧ (∀ m, m ≠ x.num → t.rec? m = s.rec? m) ∧
          ((x.cu i).stored = true → t.comp.stored = satAdd 64 s.comp.stored 1 ∧ t.comp.compressed = s.comp.compressed) ∧
          ((x.cu i).stored = false → t.comp.compressed = satAdd 64 s.comp.compressed 1 ∧ t.comp.stored = s.comp.stored) ∧
          t.comp.rawBytes = satAdd 64 s.comp.rawBytes (cuRaw x.len i) ∧ Only [.recs, .comp] s t))) ∧
    ((s.forge.writing = false ∨ s.forge.rebuild = true ∨ s.paramN 0x04070700 ≤ s.forge.formed.length) → exec .formBilletHeat s = .next s) ∧
    (s.forge.writing = true → s.forge.rebuild = false → s.forge.formed.length < s.paramN 0x04070700 →
      let n := fmtGroups s.fmt
      let heat := fun (parity : Bool) (t : State) => exec .formBilletHeat s = .next t ∧
        t.forge.formed = s.forge.formed ++ [{ train := s.forge.train, t := s.forge.t, serials := (List.range n).map (s.forge.nextSerial + ·), parity := parity }] ∧
        t.forge.nextSerial = (s.forge.nextSerial + n) % 2 ^ 32 ∧
        t.forge.billets.map (·.serial) = s.forge.billets.map (·.serial) ++ (List.range n).map (s.forge.nextSerial + ·)
      (s.windowOpen = false → ∃ t, exec .formBilletHeat s = .next t ∧ t.forge = { s.forge with paused := true } ∧
        (s.forge.paused = false → t.blw.intStatus.getLsbD 2 = true) ∧ Only [.forge, .blw, .evq] s t) ∧
      (∀ c, s.windowOpen = true → s.forge.tc = some c → ∃ t, heat true t ∧
        (s.forge.t + 1 = c + 16 → t.forge.train = s.forge.train + 1 ∧ t.forge.t = 0 ∧ t.forge.tc = none ∧ t.forge.acc = []) ∧
        (s.forge.t + 1 ≠ c + 16 → t.forge.train = s.forge.train ∧ t.forge.t = s.forge.t + 1 ∧ t.forge.tc = some c) ∧
        Only [.anvil, .blw, .evq, .forge] s t) ∧
      (∀ bs closing, s.windowOpen = true → s.forge.tc = none → s.forge.closing = false → s.forge.ending = false → s.heat.drain = false →
        dropMarks s.recs.sealQ = s.recs.sealQ → 86 ≤ s.positionsFree → (s.formable = true ∨ s.forge.pos.isSome) →
        packHeat s.packCtx { ending := false, last := false, closing := false } n { pos := s.forge.pos, queue := s.recs.sealQ }
          ((s.forge.lastPacked.map (· + 1)).getD 0) = some (bs, closing) →
        ∃ t, heat false t ∧ t.forge.t = s.forge.t + 1 ∧ t.forge.closing = closing ∧ t.forge.train = s.forge.train ∧
          (∀ b, bs.getLast? = some b → t.forge.pos = b.st.pos ∧ t.recs.sealQ = b.st.queue) ∧ Only [.anvil, .blw, .evq, .forge, .recs] s t)) ∧
    (let stop := s.starved = true ∧ s.forge.ending = false ∧ s.paramN 0x04071B00 = 1
     (stop → ∃ t, exec .starveStop s = .next t ∧ t.forge = { s.forge with ending := true, starveEnd := true } ∧ Only [.forge] s t) ∧
     (¬ stop → exec .starveStop s = .next s)) ∧
    (let due := s.blw.starveStopped = true ∧ (s.paramN 0x04071400 ≤ s.actingFill ∨ s.recs.syncs ≠ [])
     let free := { s with blw := { s.blw with starveStopped := false } }
     (¬ due → exec .starveResume s = .next s) ∧
     (due → s.formable = false → exec .starveResume s = .next free) ∧
     (due → free.tapeFree = true → s.formable = true → s.cart.searchPending = false → s.cart.waitStored = none → s.needsSession = false →
       ∃ t, exec .starveResume s = .next t ∧ t.forge.writing = true ∧ t.forge.ending = false ∧ t.blw.starveStopped = false ∧
         Only [.blw, .anvil, .cart, .forge, .heat, .motion, .pairs, .rd] s t))

/-- Cells enter and leave the Anvil one by one; an underrun cuts, poison re-forms, PASS frees, a failed verify rewrites up to attempt 3,
then the frame is exhausted. Rests on R119, R123, R124, R125, R126, R129, R130, R131, R132, R133, R135, R136. -/
def Obligations.AnvilMovesVerifiesRewrites : Prop :=
  ∀ (s : State) (n : Fin 1024) (c : Chan), s.anvil.chans[n.val]? = some c →
    let others := fun (t : State) => ∀ i : Nat, i ≠ n.val → t.anvil.chans[i]? = s.anvil.chans[i]?
    ((c.enc = [] ∨ s.anvil.free = 0 ∨ s.paramN 0x04070300 ≤ c.cells) → exec (.anvilPush n) s = .next s) ∧
    (∀ x rest, c.enc = x :: rest → 0 < s.anvil.free → c.cells < s.paramN 0x04070300 →
      ∃ (t : State) (d : Chan), exec (.anvilPush n) s = .next t ∧ t.anvil.chans[n.val]? = some d ∧ others t ∧ t.anvil.free = s.anvil.free - 1 ∧
        d.enc = (if x.present + 1 = 16 then rest else { x with present := x.present + 1 } :: rest) ∧ d.hold = c.hold ∧ d.bits = c.bits ∧
        (x.present = 0 → d.wlist = c.wlist ++ [{ x with present := 1 }]) ∧ (x.present ≠ 0 → d.wlist.length = c.wlist.length) ∧
        Only [.anvil, .blw, .evq] s t) ∧
    (∀ (w : Fin 8) (err : BitVec 64), c.inFrame = false → exec (.anvilPop n w err) s = .next s) ∧
    (∀ (w : Fin 8) x rest, c.inFrame = true → c.wlist = x :: rest →
      (∀ err, x.present ≤ x.sent → ∃ (t : State) (d : Chan), exec (.anvilPop n w err) s = .next t ∧ t.anvil.chans[n.val]? = some d ∧ others t ∧
        d.inFrame = false ∧ d.slag = true ∧ d.wlist = { x with sent := 0 } :: rest ∧ d.hold = c.hold ∧
        t.blw = { s.blw with slagFrames := satAdd 64 s.blw.slagFrames 1 } ∧ Only [.anvil, .blw] s t) ∧
      (x.sent < x.present → x.sent < 15 → ∃ (t : State) (d : Chan), exec (.anvilPop n w 0) s = .next t ∧ t.anvil.chans[n.val]? = some d ∧ others t ∧
        d.bits = c.bits ++ cellBits x.patched s.heat.wrap n x.sent ∧ d.wlist = { x with sent := x.sent + 1 } :: rest ∧ d.inFrame = true ∧
        t.anvil.free = s.anvil.free ∧ Only [.anvil] s t) ∧
      (x.sent < x.present → x.sent = 15 → ∃ (t : State) (d : Chan), exec (.anvilPop n w 0) s = .next t ∧ t.anvil.chans[n.val]? = some d ∧ others t ∧
        d.wlist = rest ∧ d.inFrame = false ∧ d.hold = c.hold ++ [{ x with sent := 0, own := none, standby := none }] ∧
        (x.attempt = 0 → t.blw = { s.blw with framesFirst := satAdd 64 s.blw.framesFirst 1 }) ∧
        (x.attempt ≠ 0 → t.blw = { s.blw with framesRewritten := satAdd 64 s.blw.framesRewritten 1 }) ∧ Only [.anvil, .blw] s t) ∧
      (∀ err : BitVec 64, x.sent < x.present → s.anvil.secded = true → 2 ≤ weight 64 err.toNat →
        ∃ (t : State) (d : Chan) (y : Frame), exec (.anvilPop n w err) s = .next t ∧ t.anvil.chans[n.val]? = some d ∧ others t ∧
          (∀ z ∈ d.wlist, z.same x = false) ∧ t.blw.poisonedWords = satAdd 64 s.blw.poisonedWords 1 ∧
          t.blw.slagFrames = satAdd 64 s.blw.slagFrames 1 ∧ t.blw.intStatus.getLsbD 9 = true ∧ t.forge.reforms = s.forge.reforms ++ [y] ∧
          y.same x = true ∧ y.present = 0 ∧ t.anvil.free = s.anvil.free + x.present ∧ Only [.anvil, .blw, .forge, .evq] s t)) ∧
    (∀ (cell : Fin 16) (w : Fin 8) (err : BitVec 64), (∀ r ∈ s.rd.vresults, r.chan ≠ n.val) → exec (.verifyVerdict n cell w err) s = .next s) ∧
    (∀ (cell : Fin 16) (w : Fin 8) r x, s.rd.vresults.find? (fun q => q.chan = n.val) = some r → s.twin.role ≠ 2 → s.armedActive = false →
      c.hold.find? (fun q => q.own.isNone && r.mayBe q) = some x → s.anvil.chans.length = 1024 → s.heat.element x.l < 1024 →
      let v := verdictOf s x r
      (v = 0 → ∃ (t : State) (d : Chan), exec (.verifyVerdict n cell w 0) s = .next t ∧ t.anvil.chans[n.val]? = some d ∧ others t ∧
        (∀ z ∈ d.hold, z.same x = false) ∧ d.wlist = c.wlist ∧ t.anvil.free = s.anvil.free + 16 ∧
        Only [.anvil, .forge, .rd, .heat, .recs, .hearth, .cart, .sec] s t) ∧
      ((v = 1 ∨ v = 2 ∨ (v = 3 ∧ c1Valid x.patched = true)) → x.attempt ≠ 3 →
        ∃ (t : State) (y : Frame), exec (.verifyVerdict n cell w 0) s = .next t ∧ y ∈ (t.chan (s.heat.element x.l)).wlist ∧ y.same x = true ∧
          y.attempt = x.attempt + 1 ∧ (∀ z ∈ (t.chan n).hold, z.same x = false) ∧ t.anvil.free = s.anvil.free ∧
          Only [.anvil, .rd, .heat, .jnl, .evq] s t) ∧
      ((v = 1 ∨ v = 2 ∨ (v = 3 ∧ c1Valid x.patched = true)) → x.attempt = 3 →
        ∃ t, exec (.verifyVerdict n cell w 0) s = .next t ∧ (∀ z ∈ (t.chan n).hold, z.same x = false) ∧
          t.blw.exhaustedFrames = satAdd 64 s.blw.exhaustedFrames 1 ∧ t.blw.intStatus.getLsbD 8 = true ∧ t.anvil.free = s.anvil.free + 16 ∧
          x.l ∈ t.heat.retireDue ∧ Only [.anvil, .rd, .heat, .jnl, .evq, .blw, .forge, .recs, .cart, .hearth, .sec] s t)) ∧
    (c.hold = [] → exec (.verifyTimeout n) s = .next s) ∧
    (∀ x rest, c.hold = x :: rest →
      (s.heat.h < x.written + 1 + s.paramN 0x04070D00 → exec (.verifyTimeout n) s = .next s) ∧
      (x.written + 1 + s.paramN 0x04070D00 ≤ s.heat.h → ∃ (t : State) (d : Chan) (y : Frame), exec (.verifyTimeout n) s = .next t ∧
        t.anvil.chans[n.val]? = some d ∧ others t ∧ (∀ z ∈ d.hold, z.same x = false) ∧ t.anvil.timeouts = s.anvil.timeouts + 1 ∧
        t.forge.reforms = s.forge.reforms ++ [y] ∧ y.same x = true ∧ t.anvil.free = s.anvil.free + x.present ∧ Only [.anvil, .forge] s t)) ∧
    (s.forge.reforms = [] → s.forge.rebuild = false → ∀ wrong bad, exec (.reform wrong bad) s = .next s) ∧
    (∀ x rest, s.forge.reforms = x :: rest →
      (s.forge.billets.find? (fun b => b.serial = x.serial && b.cls = x.cls) = none → ∀ wrong bad, ∃ t, exec (.reform wrong bad) s = .next t ∧
        t.forge = { s.forge with reforms := rest } ∧ Only [.forge] s t) ∧
      (∀ b, s.forge.billets.find? (fun q => q.serial = x.serial && q.cls = x.cls) = some b → (∀ h, x.home = some h → s.heat.h ≤ h + 500) →
        (s.anvil.free < 16 → ∀ wrong bad, exec (.reform wrong bad) s = .next s) ∧
        (∀ p bytes, 16 ≤ s.anvil.free → s.reformPayload b = some p → (billetFrames p)[x.j]? = some bytes → s.anvil.chans.length = 1024 →
          s.heat.element (frameAt s.fmt b x.short x.j bytes).l < 1024 →
          ∃ (t : State) (y : Frame), exec (.reform [] false) s = .next t ∧ t.forge = { s.forge with reforms := rest } ∧
            t.anvil.free = s.anvil.free - 16 ∧ y ∈ (t.chan (s.heat.element (frameAt s.fmt b x.short x.j bytes).l)).wlist ∧
            y.attempt = x.attempt ∧ y.home = x.home ∧ y.word = (frameAt s.fmt b x.short x.j bytes).word ∧ Only [.anvil, .forge, .comp] s t)))

/-- A home heat begins only when ready and the gate free; a wrap change exhausts what is left and issues an image; Quench ends only within
the limits. Rests on R118, R119, R128, R133, R141, R190, R445, R68, R76. -/
def Obligations.HeatsWrapsAndQuench : Prop :=
  ∀ (s : State),
    let left := positionsLeft s.fmt s.heat.wrap s.servo.lpos
    let runs := s.forge.writing = true ∧ (s.motion.state = 3 ∨ s.motion.state = 4)
    let calm := s.twin.swap = none ∧ s.params.inForce = [] ∧ s.poolEmpty = false ∧ s.overdue = [] ∧ s.heat.drain = false ∧ s.forge.ending = false
    let moved := fun (t : State) => t.heat.h = s.heat.h + 1 ∧ t.heat.left = left - 1 ∧ t.heat.wrap = s.heat.wrap
    let starts := fun (t : State) (p : Nat) (c : Chan) => ∃ d, t.anvil.chans[p]? = some d ∧ d.started = true ∧
      d.bits = c.bits ++ (if d.slag then slagItem else frameHead) ∧ d.hold = c.hold ∧ d.wlist.length = c.wlist.length ∧
      (d.slag = false ↔ ∃ x rest, c.wlist = x :: rest ∧ x.home.isSome ∧ s.paramN 0x04070100 ≤ x.present)
    (¬ runs → exec .heatBoundary s = .next s) ∧
    (∀ m, runs → s.twin.swap = some m → m < 16 → s.mail.length = 16 → ∃ t, exec .heatBoundary s = .next t ∧ t.twin.role = 2 ∧ t.twin.swap = none ∧
      Output.handover ∈ s.newOut t ∧ (t.mbox m).state = 2 ∧ (t.mbox m).status = Status.success ∧ t.forge.writing = false ∧
      Only [.twin, .mail, .tongs, .anvil, .forge, .heat, .blw] s t) ∧
    (runs → calm → left = 0 → ∃ t, exec .heatBoundary s = .next t ∧ moved t ∧ t.heat.wrapEnd = true ∧ t.heat.gate = false ∧
      t.heat.kind = .none ∧ Only [.heat] s t) ∧
    (runs → calm → 0 < left → s.gateHeld = true → ∃ t, exec .heatBoundary s = .next t ∧ moved t ∧ t.heat.gate = false ∧ t.heat.kind = .none ∧
      Only [.heat] s t) ∧
    (runs → calm → 0 < left → s.gateHeld = false → s.heat.splice = false →
      (s.forge.formed = [] → ∃ t, exec .heatBoundary s = .next t ∧ moved t ∧ t.heat.gate = true ∧ t.heat.kind = .rewrite ∧
        t.blw.rewriteHeats = satAdd 64 s.blw.rewriteHeats 1 ∧
        (∀ p c, s.anvil.chans[p]? = some c → p % 256 % fmtStride s.fmt = 0 → c.inFrame = false → starts t p c) ∧
        Only [.heat, .anvil, .blw, .cart] s t) ∧
      (∀ x rest, s.forge.formed = x :: rest → x.cls = 0 → x.parity = false → s.rewriteDue left = false → s.heatReady x = true → s.forge.rebuild = false →
        s.heat.retireDue = [] → s.heat.first = false → ∃ t, exec .heatBoundary s = .next t ∧ moved t ∧ t.heat.gate = true ∧ t.heat.kind = .billet ∧
          t.forge.formed = rest ∧ (∀ c ∈ t.anvil.chans, ∀ y ∈ c.wlist, x.owns y = true → y.home = some s.heat.h) ∧
          (∀ b ∈ t.forge.billets, b.cls = x.cls → b.serial ∈ x.serials → b.home = some s.heat.h) ∧
          Only [.heat, .anvil, .blw, .cart, .forge] s t)) ∧
    (s.forge.writing = true → (s.heat.drain = true ∨ s.heat.wrapEnd = true) → s.heat.wrap + 1 < fmtWraps s.fmt → s.forge.eodAt = none →
      ∃ t, exec .wrapChange s = .next t ∧ t.heat.wrap = s.heat.wrap + 1 ∧ t.heat.h = 0 ∧ t.heat.drain = false ∧ t.heat.wrapEnd = false ∧
        t.heat.gate = false ∧ t.forge.reforms = [] ∧ (∀ c ∈ t.anvil.chans, c.wlist = [] ∧ c.hold = []) ∧ t.forge.writing = true ∧
        (∃ q, t.cart.lastIssued = some q ∧ Reported 0x0303 q (q % 8) s t) ∧
        Only [.anvil, .blw, .cart, .evq, .forge, .hearth, .heat, .motion, .pairs, .rd, .recs, .sec] s t) ∧
    (s.forge.writing = true → ((s.heat.drain = false ∧ s.heat.wrapEnd = false) ∨ fmtWraps s.fmt ≤ s.heat.wrap + 1) → exec .wrapChange s = .next s) ∧
    (s.forge.writing = false → s.rd.reading = false → exec .wrapChange s = .next s) ∧
    (let may := s.heat.quench = true ∧ s.servo.worst ≤ s.nmLimit 0x06050200 ∧ s.servo.fastWorst ≤ s.nmLimit 0x06050200 ∧ s.servoUnsure = false
     (may → ∃ t, exec .quenchRelease s = .next t ∧ t.heat = { s.heat with quench := false } ∧
       (∀ (p : Nat) (l : Lane), t.rd.lanes[p]? = some l → fmtUses s.fmt p = true → l.track = false) ∧ Only [.heat, .rd] s t) ∧
     (¬ may → exec .quenchRelease s = .next s))

/-- An estimate sets mode, errors, steering and commands within their ranges and asserts Quench on its conditions; tilt, hint and flits do
no more than their rules. Rests on R185, R187, R190, R191, R194, R196, R197, R198, R199, R416. -/
def Obligations.ServoEstimatesAndLoops : Prop :=
  ∀ (s : State),
    (s.bench.on = true → exec .servoEstimate s = .next s) ∧
    (s.bench.on = false → s.rd.reading = false → ∃ t, exec .servoEstimate s = .next t ∧ t.servo.time = s.now ∧ t.servo.velPrev = s.servo.vel ∧
      (t.servo.mode = 2 ↔ t.servo.valid = 0) ∧ t.servo.mode ≤ 2 ∧ (t.servo.mode = 2 → t.servo.wrap = none) ∧
      t.servo.worst = worstError t.servo.o t.servo.m ∧ t.servo.offtrack = false ∧ t.servo.tiltCmd = s.servo.tiltCmd ∧
      (t.param 0x06050800 = 0 → t.servo.fineCmd = s.servo.fineCmd) ∧
      (t.param 0x06050800 ≠ 0 → -32768 ≤ t.servo.fineCmd ∧ t.servo.fineCmd ≤ 32767) ∧
      t.servo.f = steerWord s.fmt (2 * t.servo.vel - s.servo.vel) ∧
      (∀ i p, s.tongs.ports[i]? = some p → (i < 16 → p.up = true → ∃ q, t.tongs.ports[i]? = some q ∧ q.fNext = some (t.servo.f, p.superframe + 16)) ∧
        (16 ≤ i → ∃ q, t.tongs.ports[i]? = some q ∧ q.actDue = true)) ∧
      (s.forge.writing = true → s.heat.quench = false → (t.nmLimit 0x06050100 < t.servo.worst ∨ t.servo.mode = 2) →
        t.heat = { s.heat with quench := true, gate := false } ∧ t.blw.quenchCount = satAdd 64 s.blw.quenchCount 1 ∧
        t.blw.intStatus.getLsbD 5 = true ∧ (∀ (p : Nat) (c : Chan), t.anvil.chans[p]? = some c → p < 1024 → c.inFrame = false)) ∧
      ((s.forge.writing = false ∨ s.heat.quench = true ∨ (t.servo.worst ≤ t.nmLimit 0x06050100 ∧ t.servo.fastWorst ≤ t.nmLimit 0x06050100 ∧
        t.servoUnsure = false)) → t.heat = s.heat ∧ t.anvil = s.anvil ∧ t.blw = s.blw) ∧
      Only [.params, .servo, .tongs, .heat, .blw, .anvil, .evq, .jnl, .rd] s t) ∧
    (let e := s.errorsOf 500 ((List.range 10).filter (fun i => s.servo.valid.getLsbD i))
     (e = [] → exec .fastPathEstimate s = .next s) ∧
     (e ≠ [] → ∃ t, exec .fastPathEstimate s = .next t ∧
       t.servo = { s.servo with fastWorst := worstError (offsetOnly s.servo.m e) s.servo.m } ∧
       (s.forge.writing = true → s.nmLimit 0x06050100 < t.servo.fastWorst → t.heat.quench = true ∧ (s.heat.quench = false → t.heat.gate = false)) ∧
       (s.forge.writing = false → t.heat = s.heat) ∧ Only [.servo, .heat, .blw, .anvil, .evq, .jnl] s t)) ∧
    ((s.servo.mode ≠ 0 ∨ s.servo.tiltDiv < s.paramN 0x06050C00) → exec .tiltUpdate s = .next s) ∧
    (s.servo.mode = 0 → s.paramN 0x06050C00 ≤ s.servo.tiltDiv → ∃ t, exec .tiltUpdate s = .next t ∧ t.servo.tiltDiv = 0 ∧ t.servo.tiltCmd ≤ 52360 ∧
      t.servo = { s.servo with tl := t.servo.tl, tiltDiv := 0, tiltCmd := t.servo.tiltCmd } ∧ Only [.servo] s t) ∧
    (s.nearEnd = true → ∃ t, exec .tensionHint s = .next t ∧ t.servo = { s.servo with hint := true } ∧ Only [.servo, .motion, .pairs] s t) ∧
    (s.nearEnd = false → s.servo.hint = true → ∃ t, exec .tensionHint s = .next t ∧ t.servo = { s.servo with hint := false } ∧
      Only [.servo, .motion, .pairs] s t) ∧
    (s.nearEnd = false → s.servo.hint = false → exec .tensionHint s = .next s) ∧
    (∀ (sp : Fin 2) (a b : Bytes) (p : Port), s.tongs.ports[16 + sp.val]? = some p →
      (p.up = false → exec (.servoFlit sp a b) s = .next s) ∧
      (∀ f, p.up = true → f = (if flitOk 336 a then a else b) → flitOk 336 f = true → ∃ t, exec (.servoFlit sp a b) s = .next t ∧
        t.servo.tiltSense = (fieldAt f 2624 16 : Nat) ∧ t.servo.mode = s.servo.mode ∧ t.servo.o = s.servo.o ∧ t.servo.lpos = s.servo.lpos ∧
        (∀ i x, s.servo.readers[i]? = some x → (i % 2 = sp.val → t.servo.readers[i]? = some (x.feed ((servoSamples f (i / 2)).map some))) ∧
          (i % 2 ≠ sp.val → t.servo.readers[i]? = some x)) ∧ Only [.servo, .tongs] s t) ∧
      (p.up = true → flitOk 336 a = false → flitOk 336 b = false → ∃ t q, exec (.servoFlit sp a b) s = .next t ∧
        t.tongs.ports[16 + sp.val]? = some q ∧ q.flitsLost = satAdd 32 p.flitsLost 1 ∧ t.servo = { s.servo with readers := t.servo.readers } ∧
        Only [.servo, .tongs] s t))

/-- Flits, status words, superframes, the management channel, lane swaps, ports that go DOWN, training and the retrain limit act on their
port as the link rules say. Rests on R406, R407, R408, R409, R411, R412, R416, R418, R419, R420, R421. -/
def Obligations.LinkPortsCarrySwapAndRetrain : Prop :=
  ∀ (s : State) (i : Fin 18) (p : Port), s.tongs.ports[i.val]? = some p →
    let one := fun (t : State) => t.tongs = { s.tongs with ports := t.tongs.ports } ∧ ∀ j, j ≠ i.val → t.tongs.ports[j]? = s.tongs.ports[j]?
    let down := fun (t : State) => one t ∧ (∃ q : Port, t.tongs.ports[i.val]? = some q ∧ q.state = 1 ∧ q.retrains = satAdd 32 p.retrains 1 ∧
        q.lastRetrain = s.nowSec ∧ q.gate = false ∧ q.owner = false ∧ q.swap = none ∧ q.mgmt = none ∧ q.mgmtQ = [] ∧ q.fNext = none) ∧
      (i.val < 16 → s.forge.writing = true → t.heat = { s.heat with gate := false, kind := .none } ∧
        (∀ (n : Nat) (c : Chan), t.anvil.chans[n]? = some c → n < 1024 → c.inFrame = false)) ∧
      ((16 ≤ i.val ∨ s.forge.writing = false) → t.heat = s.heat ∧ t.anvil = s.anvil ∧ t.blw = s.blw) ∧ Only [.tongs, .anvil, .heat, .blw] s t
    let swaps := fun (l : Nat) (t : State) => one t ∧ (∃ q : Port, t.tongs.ports[i.val]? = some q ∧ q.state = p.state ∧ q.map = p.map ∧
        q.swap = some { logical := l, transmit := decide (9 ≤ l), start := p.superframe.toNat } ∧ q.mgmtQ.length = p.mgmtQ.length + 1) ∧
      Only [.tongs] s t
    (∀ (k : Fin 16) (flit : Bytes) (aligned : Bool), k.val = i.val →
      (p.up = false → exec (.sampleFlit k flit aligned) s = .next s) ∧
      (p.up = true → ∃ (t : State) (q : Port), exec (.sampleFlit k flit aligned) s = .next t ∧ t.tongs.ports[i.val]? = some q ∧
        q = { p with rxSuper := q.rxSuper, rxFlit := q.rxFlit,
                     flitsLost := if aligned && flitOk 396 flit then p.flitsLost else satAdd 32 p.flitsLost 1 } ∧
        (s.lanesOn = false → t.rd = s.rd) ∧ one t ∧ Only [.tongs, .jnl, .rd] s t)) ∧
    (∀ (l : Fin 9) (w : BitVec 64),
      ((p.up = false ∨ statusWordOk w = false ∨ 2 ≤ l.val) → exec (.laneStatusWord i l w) s = .next s) ∧
      ((p.up = false ∨ statusWordOk w = false) → exec (.managementResponse i w) s = .next s) ∧
      (p.up = true → statusWordOk w = true → l.val = 0 → ∃ (t : State) (q : Port), exec (.laneStatusWord i l w) s = .next t ∧
        t.tongs.ports[i.val]? = some q ∧ q.feStatus = BitVec.ofNat 48 (w.toNat / 65536) ∧
        q.framesLost = satAdd 32 p.framesLost ((bitsOf w.toNat 48 6 + 64 - p.feLost.toNat) % 64) ∧ one t ∧ Only [.tongs] s t) ∧
      (p.up = true → statusWordOk w = true → l.val = 1 → ∀ c ∈ [Instr.laneStatusWord i l w, Instr.managementResponse i w],
        ∃ t, exec c s = .next t ∧ one t ∧ Only [.tongs] s t ∧
          (∀ r a, p.mgmt = some (r, a) → r.tag.toNat = bitsOf w.toNat 56 8 → t.tongs.ports[i.val]? = some { p with mgmt := none }) ∧
          ((∀ r a, p.mgmt = some (r, a) → r.tag.toNat ≠ bitsOf w.toNat 56 8) → t.tongs = s.tongs))) ∧
    (∃ t, exec (.managementTimeout i) s = .next t ∧ one t ∧ Only [.tongs] s t ∧
      (∀ r a, p.mgmt = some (r, a) → t.tongs.ports[i.val]? = some { p with mgmt := some (r, if 64 ≤ a then 0 else a) }) ∧
      (p.mgmt = none → t.tongs = s.tongs)) ∧
    ((p.up = false ∨ s.pins.refs = false ∨ 2 ≤ s.pwr.state.toNat) → exec (.transmitSuperframe i) s = .next s) ∧
    (p.up = true → s.pins.refs = true → s.pwr.state.toNat < 2 → ∃ (t : State) (q : Port) (ws : List Nat),
      exec (.transmitSuperframe i) s = .next t ∧ t.tongs.ports[i.val]? = some q ∧ Output.superframe i.val (withCrc ws) ∈ s.newOut t ∧
      ws.length = (if i.val < 16 then 67 else 33) ∧ q.superframe = p.superframe + 1 ∧ q.actDue = false ∧ q.release = false ∧
      (∀ f a, p.fNext = some (f, a) → (a = p.superframe → q.f = f ∧ q.apply = a ∧ q.fNext = none) ∧
        (a ≠ p.superframe → q.f = p.f ∧ q.fNext = p.fNext)) ∧ (p.fNext = none → q.f = p.f ∧ q.fNext = none) ∧
      (p.claim = false → p.release = false → q.acc.toNat = (p.acc.toNat + 4 * q.f.toNat) % 2 ^ 24 ∧ q.owner = p.owner) ∧
      (p.release = true → q.owner = false) ∧ (p.claim = true → p.release = false → s.twin.claiming = false → q.owner = true ∧ q.claim = false) ∧
      q.gate = (decide (i.val < 16) && (s.heat.gate && p.owner && !s.bench.on && !s.pins.gateLocked)) ∧
      (∀ (n : Nat) (c : Chan), s.anvil.chans[n]? = some c →
        t.anvil.chans[n]? = some { c with bits := if n / 64 = i.val ∧ i.val < 16 then c.bits.drop ((p.acc.toNat + 4 * q.f.toNat) / 2 ^ 24) else c.bits }) ∧
      one t ∧ Only [.tongs, .anvil] s t) ∧
    (∀ (n : Fin 13),
      ((p.up = false ∨ n.val ∉ p.aligned) → exec (.laneAlignmentLoss i n) s = .next s) ∧
      (p.up = true → n.val ∈ p.aligned → (∀ l, p.map.findIdx? (· = n.val) = some l →
          (((p.spareOf l).isNone = true ∨ p.swap.isSome = true) → ∃ t, exec (.laneAlignmentLoss i n) s = .next t ∧ down t) ∧
          ((p.spareOf l).isSome = true → p.swap = none → ∃ t, exec (.laneAlignmentLoss i n) s = .next t ∧ swaps l t)) ∧
        (p.map.findIdx? (· = n.val) = none → ∃ (t : State) (q : Port), exec (.laneAlignmentLoss i n) s = .next t ∧ t.tongs.ports[i.val]? = some q ∧
          q.up = true ∧ n.val ∉ q.aligned ∧ q.rxSpare ≠ some n.val ∧ q.txSpare ≠ some n.val ∧ q.map = p.map ∧ one t ∧ Only [.tongs] s t))) ∧
    (∀ (l : Fin 11) (b : BitVec 16),
      ((p.up = false ∨ ∀ n, p.map[l.val]? = some n → 13 ≤ n) → exec (.laneSwap i l b) s = .next s) ∧
      (∀ n, p.up = true → p.map[l.val]? = some n → n < 13 →
        let due := n ∉ p.aligned ∨ (s.paramN 0x0E0F0100 = 1 ∧ s.paramN 0x0E0F0200 ≤ b.toNat)
        (p.swap = none → due → (p.spareOf l.val).isNone = true → ∃ t, exec (.laneSwap i l b) s = .next t ∧ down t) ∧
        (p.swap = none → due → (p.spareOf l.val).isSome = true → ∃ t, exec (.laneSwap i l b) s = .next t ∧ swaps l.val t) ∧
        ((p.swap.isSome = true ∨ ¬ due) → ∃ (t : State) (q : Port), exec (.laneSwap i l b) s = .next t ∧ t.tongs.ports[i.val]? = some q ∧
          q = { p with bip := q.bip } ∧ (∀ x, p.bip[n]? = some x → q.bip[n]? = some (satAdd 16 x b.toNat)) ∧ one t ∧ Only [.tongs] s t))) ∧
    (∀ (e : Bool), (p.swap = none → exec (.laneSwapComplete i e) s = .next s) ∧
      (∀ w, p.swap = some w →
        (e = true → p.up = true → ∃ t, exec (.laneSwapComplete i e) s = .next t ∧ down t) ∧
        (e = false → (∀ x, p.spareOf w.logical = some x → ∃ (t : State) (q : Port), exec (.laneSwapComplete i e) s = .next t ∧
            t.tongs.ports[i.val]? = some q ∧ q.swap = none ∧ q.swaps = satAdd 32 p.swaps 1 ∧
            (w.logical < p.map.length → q.map[w.logical]? = some x) ∧ one t ∧ Only [.tongs] s t) ∧
          (p.spareOf w.logical = none → ∃ t, exec (.laneSwapComplete i e) s = .next t ∧
            t.tongs.ports[i.val]? = some { p with swap := none } ∧ one t ∧ Only [.tongs] s t)))) ∧
    (p.up = false → exec (.portDown i) s = .next s) ∧
    (p.up = true → ∃ t, exec (.portDown i) s = .next t ∧ down t) ∧
    (∀ (aligned failed : List (Fin 13)) (ee : Bytes),
      let good := (List.range 13).filter (fun n => (aligned.map Fin.val).contains n && !(failed.map Fin.val).contains n
        && !s.isQuarantined 8 (16 * i.val + n))
      let rx := good.filter (· < 10)
      let tx := good.filter (10 ≤ ·)
      let enough := (if i.val < 16 then 9 else 2) ≤ rx.length ∧ (if i.val < 16 then 2 else 1) ≤ tx.length
      (p.state ≠ 1 → exec (.portTrainingComplete i aligned failed ee) s = .next s) ∧
      (p.state = 1 → enough → ∃ (t : State) (q : Port), exec (.portTrainingComplete i aligned failed ee) s = .next t ∧
        t.tongs.ports[i.val]? = some q ∧ q.up = true ∧ q.acc = 0 ∧ q.claim = decide (s.twin.role ≠ 2) ∧ q.failedRetrains = 0 ∧
        q.map.take 9 = rx.take (if i.val < 16 then 9 else 2) ++ List.replicate (if i.val < 16 then 0 else 7) 15 ∧
        q.map.drop 9 = tx.take (if i.val < 16 then 2 else 1) ∧ (i.val < 16 → q.rxSpare = rx[9]? ∧ q.txSpare = tx[2]?) ∧ Only [.tongs] s t) ∧
      (p.state = 1 → ¬ enough → p.failedRetrains < 2 → ∃ (t : State) (q : Port), exec (.portTrainingComplete i aligned failed ee) s = .next t ∧
        t.tongs.ports[i.val]? = some q ∧ q.state = 1 ∧ q.failedRetrains = p.failedRetrains + 1 ∧ q.retrains = satAdd 32 p.retrains 1 ∧
        one t ∧ Only [.tongs] s t) ∧
      (p.state = 1 → ¬ enough → 2 ≤ p.failedRetrains → s.armedActive = false → ∃ (t : State) (q : Port),
        exec (.portTrainingComplete i aligned failed ee) s = .next t ∧ t.tongs.ports[i.val]? = some q ∧ q.state = 4 ∧
        t.isQuarantined 7 i.val = true ∧ one t ∧ Only [.tongs, .units, .evq, .jnl] s t)) ∧
    ((16 ≤ i.val ∨ s.forge.writing = false ∨ p.up = true) → exec (.retrainMaxExpiry i) s = .next s) ∧
    (i.val < 16 → s.forge.writing = true → p.up = false → s.rd.jobs = [] → s.recs.cmds = [] → s.cart.searchMb = [] → s.unloadMb = none →
      ∃ t, exec (.retrainMaxExpiry i) s = .next t ∧ t.forge.writing = false ∧ t.heat.gate = false ∧ (∀ x ∈ t.recs.recs, x.state ≠ .sealed) ∧
        t.cart.image.sessionOpen = true ∧ t.cart.image.eodValid = false ∧ t.cart.searchPending = true ∧
        Only [.anvil, .blw, .cart, .evq, .forge, .hearth, .heat, .motion, .pairs, .rd, .recs, .sec] s t)

/-- Marks, captures, C1, second look, C2, final erased sets, C3, temper segments, rereads, RA_IDLE and delivery do to the read side what
their rules say. Rests on R95, R97, R105, R165, R167, R168, R173, R174, R206, R207, R208, R210. -/
def Obligations.ReadPathAcquiresDecodesDelivers : Prop :=
  ∀ (s : State),
    let missed := fun (n : Nat) (l : Lane) (c : ChanStats) (t : State) => t.rd.c1q = s.rd.c1q ∧ (∃ x, t.rd.stats[n]? = some x ∧
      x.syncMissed = satAdd 32 c.syncMissed 1 ∧ x.frames = c.frames) ∧
      (s.verifying = true → ∃ v, t.rd.vresults = s.rd.vresults ++ [v] ∧ v.chan = n ∧ v.ok = false ∧ v.syncOk = false) ∧
      (∃ x, t.rd.lanes[n]? = some x ∧ x.track = decide (l.misses + 1 < (s.laneParam l 0x05070A00).toNat)) ∧ Only [.rd] s t
    let taken := fun (n : Nat) (l : Lane) (c : ChanStats) (m : Mark) (t : State) => (∃ x, t.rd.lanes[n]? = some x ∧ x.track = true ∧ x.misses = 0 ∧
        x.toMark = 108 ∧ x.bits = l.bits.drop (m.pos + 8500)) ∧
      (m.data = true → (∃ j : C1Job, t.rd.c1q = s.rd.c1q ++ [j] ∧ j.lane = n ∧ j.verify = s.verifying ∧
          j.lam = lambdaOf s.heat.wrap n (softBits s.fmt ((l.bits.drop (m.pos + 48)).take 8448))) ∧
        (∃ x, t.rd.stats[n]? = some x ∧ x.frames = satAdd 32 c.frames 1 ∧ x.syncMissed = c.syncMissed)) ∧
      (m.data = false → t.rd.c1q = s.rd.c1q ∧ t.rd.captures = s.rd.captures) ∧ Only [.rd] s t
    let same := fun (x y : RBillet) => x.serial = y.serial ∧ x.wrap = y.wrap ∧ x.cls = y.cls
    (∀ (lane : Fin 1024) (l : Lane) (c : ChanStats), s.rd.lanes[lane.val]? = some l → s.rd.stats[lane.val]? = some c →
      let at_ := ((List.range 49).map (fun i => l.toMark + i)).filterMap (fun x => if 24 ≤ x then some (x - 24) else none)
      let found := firstMark (s.laneParam l 0x05070800).toNat l.bits at_
      ((l.track = false ∨ s.lanesOn = false ∨ l.bits.length < l.toMark + 8524) → exec (.syncMarkWindow lane) s = .next s) ∧
      (l.track = true → s.lanesOn = true → l.toMark + 8524 ≤ l.bits.length →
        (found = none → ∃ t, exec (.syncMarkWindow lane) s = .next t ∧ missed lane.val l c t) ∧
        (∀ m, found = some m → ∃ t, exec (.syncMarkWindow lane) s = .next t ∧ taken lane.val l c m t)) ∧
      ((l.track = true ∨ s.lanesOn = false ∨ ∀ i ∈ List.range l.bits.length, preambleAt l.bits i = false) →
        exec (.acquireMarkAccepted lane) s = .next s) ∧
      (∀ i m, l.track = false → s.lanesOn = true → (List.range l.bits.length).find? (preambleAt l.bits) = some i →
        firstMark (s.laneParam l 0x05070900).toNat l.bits ((List.range (l.bits.length - i)).map (fun k => i + 64 + k)) = some m →
        m.pos + 8500 ≤ l.bits.length → ∃ t, exec (.acquireMarkAccepted lane) s = .next t ∧ taken lane.val l c m t)) ∧
    (s.rd.c1q = [] → exec .c1DecodeDone s = .next s) ∧
    (∀ j rest, s.rd.c1q = j :: rest →
      (j.verify = true → ∃ (t : State) (v : VerifyResult), exec .c1DecodeDone s = .next t ∧
        t.rd = { s.rd with c1q := rest, vresults := s.rd.vresults ++ [v] } ∧ v.chan = j.lane ∧ v.syncOk = j.syncOk ∧ v.heat = j.heat ∧
        v.word = (t.decodeWord (t.paramN 0x04070900) j.lam).word ∧ Only [.rd, .params] s t) ∧
      (j.verify = false → let u := (s.applyParams .frame).applyParams .gk2Frame
        let r := u.decodeWord (u.readLimit u.backlogged) j.lam
        ((r.ok && headerOk s.fmt r.word) = false → ∃ t, exec .c1DecodeDone s = .next t ∧ t.rd.c1q = rest ∧ t.rd.billets = s.rd.billets ∧
          (∀ c, s.rd.stats[j.lane]? = some c → t.rd.stats[j.lane]? = some { c with c1Fail := satAdd 32 c.c1Fail 1 }) ∧
          Only [.rd, .params, .jnl, .evq] s t) ∧
        ((r.ok && headerOk s.fmt r.word) = true → s.rd.locate = none →
          let h := parseHdr r.word
          (∀ b ∈ s.rd.billets, ¬ (b.serial = h.serial ∧ b.wrap = h.wrap ∧ b.cls = h.cls)) →
          ∃ t, exec .c1DecodeDone s = .next t ∧ t.rd.c1q = rest ∧ (∃ b ∈ t.rd.billets, b.serial = h.serial ∧ b.wrap = h.wrap ∧ b.cls = h.cls ∧
            b.home = h.written - h.offset ∧ b.frames = [(frameOf s.fmt h.l, slice r.word 16 944)] ∧ b.state = .waiting) ∧
            t.rd.stats = s.rd.stats ∧ Only [.rd, .params, .motion, .pairs] s t))) ∧
    (∀ (lane : Fin 1024),
      let look := s.rd.captures.find? (fun (x : Capture) => x.lane = lane.val && x.begun && x.tries ≠ [])
      ((look = none ∨ s.backlogged = true) → exec (.secondLookTry lane) s = .next s) ∧
      (∀ x k rest, look = some x → x.tries = k :: rest → s.backlogged = false →
        let r := s.decodeWord (s.readLimit false) (lambdaOf x.wrap x.lane (shifted x k))
        ((r.ok && headerOk s.fmt r.word) = false → ∃ t, exec (.secondLookTry lane) s = .next t ∧ t.rd = { s.rd with captures := t.rd.captures } ∧
          t.rd.captures = s.rd.captures.map (fun y => if y = x then { y with tries := rest } else y) ∧ Only [.rd] s t) ∧
        ((r.ok && headerOk s.fmt r.word) = true → s.rd.locate = none → ∃ t, exec (.secondLookTry lane) s = .next t ∧
          t.rd.captures = s.rd.captures.erase x ∧ (∀ c, s.rd.stats[lane.val]? = some c →
            t.rd.stats[lane.val]? = some { c with slRecovered := satAdd 16 c.slRecovered 1 }) ∧
          Only [.rd, .cart, .jnl, .evq, .motion, .pairs] s t)) ∧
      (s.rd.captures.find? (fun x => x.lane = lane.val) = none → exec (.captureExpiry lane) s = .next s) ∧
      (∀ x, s.rd.captures.find? (fun x => x.lane = lane.val) = some x → ∃ t, exec (.captureExpiry lane) s = .next t ∧
        t.rd = { s.rd with captures := s.rd.captures.erase x } ∧ Only [.rd] s t)) ∧
    (∀ (h : BitVec 24),
      (s.rd.reading = false → exec (.c2Attempt h) s = .next s ∧ exec (.billetFinal h) s = .next s) ∧
      (s.rd.reading = true → s.rd.locate = none →
        (∃ t, exec (.c2Attempt h) s = .next t ∧ t.rd.heatNow = max s.rd.heatNow h.toNat ∧
          (∀ b ∈ s.rd.billets, b.wrap = s.heat.wrap → b.state = .waiting → b.parked = false → b.home + t.paramN 0x03040700 ≤ h.toNat →
            ∃ x ∈ t.rd.billets, same x b ∧ ∃ y ∈ s.rd.billets, same y b ∧ x = y.tryC2 (t.paramN 0x03040600) s.attempt) ∧
          Only [.rd, .params, .cart, .jnl, .evq, .motion, .pairs] s t) ∧
        (∃ t, exec (.billetFinal h) s = .next t ∧ t.rd.heatNow = max s.rd.heatNow h.toNat ∧
          (∀ b ∈ s.rd.billets, b.wrap = s.heat.wrap → b.final = false → b.home + 511 ≤ h.toNat →
            ∃ x ∈ t.rd.billets, same x b ∧ x.final = true ∧ x.state ≠ .waiting) ∧
          Only [.rd, .cart, .jnl, .evq, .motion, .pairs] s t))) ∧
    (s.nextC3 = none → exec .c3Decode s = .next s) ∧
    (∀ w x i, s.nextC3 = some (w, x, i) → s.rd.locate = none → ∃ t, exec .c3Decode s = .next t ∧
      (∀ b ∈ c3Ingot s.fmt w s.rd.billets x i s.attempt, ∃ y ∈ t.rd.billets, same y b ∧ (y.state = .complete ∨ y.state = .unrecovered)) ∧
      Only [.rd, .cart, .jnl, .evq, .motion, .pairs] s t) ∧
    (∃ t, exec .temperSegmentEnd s = .next t ∧ (∀ n l, s.rd.lanes[n]? = some l → n < 1024 →
        (s.leftSegment n = false → t.rd.lanes[n]? = some l) ∧
        (s.leftSegment n = true → t.rd.lanes[n]? = some { l with meas := {}, seg := s.laneSeg n } ∧
          (s.verifying = true → ∃ e ∈ t.rd.temper, e.1 = s.heat.wrap ∧ e.2.1 = l.seg ∧ e.2.2.1 = n) ∧
          (s.verifying = false → s.attempt = 0 → ∃ e ∈ t.rd.recovery, e.1 = s.heat.wrap ∧ e.2.1 = l.seg ∧ e.2.2.1 = n))) ∧
      (s.verifying = false → t.rd.temper = s.rd.temper) ∧ ((s.verifying = true ∨ s.attempt ≠ 0) → t.rd.recovery = s.rd.recovery) ∧
      ((s.verifying = false ∨ s.fmt ≠ 4) → t.cart = s.cart) ∧ Only [.rd, .cart] s t) ∧
    (let idle := s.rd.jobs = [] ∧ s.rd.locate = none ∧ s.cart.searching = false ∧ s.cart.eodChecking = false ∧ s.rd.reading = true
     (¬ idle → exec .raIdleExpiry s = .next s) ∧
     (idle → s.recs.cmds = [] → s.cart.searchMb = [] → s.formable = false → s.unloadMb = none → ∃ t, exec .raIdleExpiry s = .next t ∧
       t.rd = { s.rd with reading := false, streaming := false, raStopped := false, nextHeat := t.rd.nextHeat } ∧
       (s.tapeStopped = true → t.motion = s.motion) ∧ Only [.rd, .blw, .motion, .pairs] s t)) ∧
    (((s.rd.reading = false ∧ s.rd.jobs = []) ∨ s.rd.reread.isSome = true ∨ s.nextC3.isSome = true ∨ s.blocked = none) →
      exec .rereadStart s = .next s) ∧
    (∀ b, (s.rd.reading = true ∨ s.rd.jobs ≠ []) → s.rd.reread = none → s.nextC3 = none → s.blocked = some b →
      (s.paramN 0x07080200 = 0 → s.rd.locate = none → ∃ t, exec .rereadStart s = .next t ∧
        (∀ x ∈ t.rd.billets, x.cls = 0 → x.serial = b.serial → x.wrap = b.wrap → x.lost = true ∧ x.state = .unrecovered) ∧
        t.rd.reread = none ∧ Only [.rd, .motion, .pairs] s t) ∧
      (s.paramN 0x07080200 ≠ 0 → ∃ (t : State) (r : Reread), exec .rereadStart s = .next t ∧ t.rd.reread = some r ∧ r.serial = b.serial ∧
        r.wrap = b.wrap ∧ r.k = 1 ∧ r.first ≤ b.home ∧ b.home + 511 ≤ r.last ∧ t.rd.reading = true ∧ t.rd.heatNow = r.first ∧
        t.rd.forced = s.failedElements b ∧ Only [.rd, .heat, .motion, .pairs, .params] s t)) ∧
    ((s.rd.reread = none ∨ ∃ r, s.rd.reread = some r ∧ s.passDone r = false) → exec .rereadPassEnd s = .next s) ∧
    (∀ r b, s.rd.reread = some r → s.passDone r = true →
      s.rd.billets.find? (fun (b : RBillet) => b.cls = 0 && b.serial = r.serial && b.wrap = r.wrap) = some b →
      let bad := (trainBillets s.fmt s.rd.billets b).filter (fun (x : RBillet) => !x.parity && x.state ≠ .complete)
      (bad ≠ [] → r.k < s.paramN 0x07080200 → ∃ (t : State) (x : Reread), exec .rereadPassEnd s = .next t ∧ t.rd.reread = some x ∧
        x.k = r.k + 1 ∧ x.first = r.first ∧ x.last = r.last ∧ x.resume = r.resume ∧ t.rd.reading = true ∧ t.rd.heatNow = r.first ∧
        Only [.rd, .heat, .motion, .pairs, .params] s t) ∧
      ((bad = [] ∨ s.paramN 0x07080200 ≤ r.k) → s.rd.locate = none → ∃ t, exec .rereadPassEnd s = .next t ∧ t.rd.reread = none ∧ t.rd.forced = [] ∧
        (∀ x ∈ t.rd.billets, x.cls = 0 → x.wrap = r.wrap → (∃ y ∈ bad, y.serial = x.serial) → x.lost = true ∧ x.state = .unrecovered) ∧
        t.rd.reading = true ∧ Only [.rd, .heat, .motion, .pairs, .params] s t)) ∧
    (∀ (io : Io),
      (s.rd.jobs = [] → exec (.cuDelivery io) s = .next s) ∧
      (∀ j rest, s.rd.jobs = j :: rest → s.pairError j.pair = true → ∃ t, exec (.cuDelivery io) s = .next t ∧ Only [] s t) ∧
      (∀ j rest p d, s.rd.jobs = j :: rest → s.pairError j.pair = false → j.desc = some p → itemAt s.rd.billets p = .ok d →
        (j.parsed = false → j.reports = true → bitAt (getBe d.head 1 1) 0 = false →
          let cus := getBe d.head 16 2
          let n := if j.count = 0 then cus - j.first else j.count
          j.first < cus → j.first + j.count ≤ cus → cuSpan (getBe d.head 12 4) j.first n ≤ j.len →
          ∃ (t : State) (x : ReadJob), exec (.cuDelivery io) s = .next t ∧ t.rd.jobs.head? = some x ∧ x.parsed = true ∧ x.encrypted = false ∧
            x.rawLen = getBe d.head 12 4 ∧ x.cuCount = cus ∧ x.count = n ∧ x.nextCu = j.first ∧ x.delivered = j.delivered ∧ Only [.rd] s t) ∧
        (j.parsed = true →
          let r := s.rd.recordOf d
          let k := if j.delivered < j.count then some j.nextCu else none
          (s.nextCu r k = .wait → ∃ t, exec (.cuDelivery io) s = .next t ∧ Only [] s t) ∧
          (∀ i, k = some j.nextCu → s.nextCu r k = .here i → io.ok = true → (s.openCu j d i).tagOk = true → (s.openCu j d i).streamOk = true →
            ∃ (t : State) (x : ReadJob), exec (.cuDelivery io) s = .next t ∧ t.rd.jobs.head? = some x ∧ x.nextCu = j.nextCu + 1 ∧
              x.delivered = j.delivered + 1 ∧ t.rd.jobs.length = s.rd.jobs.length ∧
              (∀ c, s.cmd? j.pair j.tag = some c → c.isSgl = false →
                Output.dma (j.addr + BitVec.ofNat 64 (262144 * (i.cu - j.first))) (s.openCu j d i).raw ∈ s.newOut t) ∧
              Only [.rd, .heat, .motion, .pairs, .params] s t) ∧
          (∀ c x, rest = [] → s.recs.cmds = [c] → c.pair = j.pair → c.tag = j.tag → s.pair? j.pair = some x → io.cqFail = false →
            s.rd.raStopped = false → s.cart.searchMb = [] → s.formable = false → s.unloadMb = none →
            let ends := fun (st : BitVec 16) (y : ReadJob) => ∃ t, exec (.cuDelivery io) s = .next t ∧ Completed j.pair j.tag st y.result j.rawLen s t ∧
              t.rd.jobs = [] ∧ Only [.rd, .recs, .pairs, .sec, .evq, .comp, .jnl] s t
            (s.nextCu r k = .lost → ends Status.unrecoveredRecord j) ∧ (s.nextCu r k = .absent → ends Status.recordAbsent j) ∧
            (∀ i, s.nextCu r k = .here i → k = none → ends (if r.matches s.rd.billets d then Status.success else Status.unrecoveredRecord) j) ∧
            (∀ i, s.nextCu r k = .here i → k.isSome = true → (io.ok = false → ends Status.dataTransferError j) ∧
              (let y := { j with partBytes := if j.cut then (s.openCu j d i).raw.length else 0 }
               io.ok = true → ((s.openCu j d i).tagOk = false → ends Status.authFailed y) ∧
                 ((s.openCu j d i).tagOk = true → (s.openCu j d i).streamOk = false → ends Status.decompressError y)))))))

/-- Motion reports and faults, M2 training, heartbeats, mirror items, verdicts, silence, faults, handover and takeover move motion and
twin state as their rules say. Rests on R142, R294, R296, R333, R417, R439, R440, R441, R442, R443, R444, R445. -/
def Obligations.MotionReportsAndTwinRoles : Prop :=
  ∀ (s : State),
    let quiet := s.cart.searchMb = [] ∧ s.formable = false ∧ s.unloadMb = none ∧ s.rd.locate = none
    let claims := fun (t : State) => t.tongs = { s.tongs with ports := s.tongs.ports.map (fun p => { p with claim := true, release := false }) }
    (∀ (e : Bytes), (s.motionPair = none → exec (.motionReport e) s = .next s) ∧
      ∀ q p, s.motionPair = some q → s.pair? q = some p →
        ((p.sqFetch = p.sqTail ∨ p.error = true) → exec (.motionReport e) s = .next s) ∧
        (p.sqFetch ≠ p.sqTail → p.error = false → 2 * (s.motion.consumed + 1) < 2 ^ p.sqLog →
          let m := { s.motion with consumed := s.motion.consumed + 1 }
          let st := getLe (fit 32 e) 2 1
          (reportOk (fit 32 e) = false → ∃ t, exec (.motionReport e) s = .next t ∧ t.motion = m ∧
            t.pair? q = some { p with sqFetch := (p.sqFetch + 1) % 2 ^ p.sqLog } ∧
            t.glob.doorbellErrors = satAdd 32 s.glob.doorbellErrors 1 ∧ Only [.motion, .pairs, .glob] s t) ∧
          (reportOk (fit 32 e) = true → st ≠ 6 → st ≠ 2 → ∃ t, exec (.motionReport e) s = .next t ∧
            t.pair? q = some { p with sqFetch := (p.sqFetch + 1) % 2 ^ p.sqLog } ∧ t.motion = { m.take (fit 32 e) with runLevel := t.motion.runLevel } ∧
            t.motion.state = st ∧ t.motion.fault = false ∧
            (s.motion.runLevel = none → t.motion.runLevel = none ∧ t.blw = s.blw ∧
              t.rd = { s.rd with streaming := s.rd.streaming && (st = 3 || st = 4 || st = 5) }) ∧
            (∀ n v, s.motion.runLevel = some (n, v) → st = 4 → n ∉ t.motion.owed → t.motion.runLevel = none ∧ t.blw = { s.blw with speedCur := v } ∧
              (s.rd.reading = true → s.forge.writing = false → t.rd.streaming = true)) ∧
            Only [.motion, .pairs, .rd, .blw] s t) ∧
          (reportOk (fit 32 e) = true → st = 6 → quiet → s.recs.cmds = [] → s.rd.jobs = [] → ∃ t, exec (.motionReport e) s = .next t ∧
            t.motion.fault = true ∧ t.motion.owed = [] ∧ t.motion.state = 6 ∧ t.rd.reading = false ∧ t.rd.streaming = false ∧
            t.cart.searching = false ∧ Reported 0x0304 (((m.take (fit 32 e)).owed.headD (s.motion.nextSeq - 1)).toNat) 6 s t ∧
            Only [.motion, .pairs, .rd, .cart, .evq] s t))) ∧
    (s.motion.owed = [] → (s.motion.moving = false ∨ s.motion.fault = true) → exec .motionFault s = .next s) ∧
    (let fault := s.motion.owed ≠ [] ∨ (s.motion.moving = true ∧ s.motion.fault = false)
     let faulted := fun (t : State) => t.motion = { s.motion with owed := [], fault := true } ∧ t.rd.reading = false ∧ t.rd.streaming = false ∧
       t.rd.jobs = [] ∧ t.cart.searching = false ∧ t.cart.eodChecking = false
     (fault → quiet → s.recs.cmds = [] → s.rd.jobs = [] → ∃ t, exec .motionFault s = .next t ∧ faulted t ∧
       Reported 0x0304 ((s.motion.owed.headD (s.motion.nextSeq - 1)).toNat) s.motion.state s t ∧ Only [.motion, .rd, .cart, .evq] s t) ∧
     (∀ j c p, fault → quiet → s.rd.jobs = [j] → s.recs.cmds = [c] → c.pair = j.pair → c.tag = j.tag → s.pair? j.pair = some p → p.error = false →
       j.pair ∉ s.env.cqFail → ∃ t, exec .motionFault s = .next t ∧ faulted t ∧ Completed j.pair j.tag Status.motionFault j.result j.rawLen s t ∧
         Only [.motion, .rd, .cart, .evq, .pairs, .recs, .sec] s t)) ∧
    ((s.twin.paired && s.twin.m2Up && s.pwr.state ≠ 3) = false → exec .heartbeat s = .next s) ∧
    (s.twin.paired = true → s.twin.m2Up = true → s.pwr.state ≠ 3 → ∃ t, exec .heartbeat s = .next t ∧
      t.twin = { s.twin with beats := s.twin.beats + 1 } ∧ Output.heartbeat ∈ s.newOut t ∧ Only [.twin] s t) ∧
    (∀ (rate : Nat) (owned : Bool) (mib : BitVec 32),
      ((s.twin.paired = false ∨ s.glob.ready = false ∨ s.twin.m2Up = true) → exec (.m2TrainingComplete rate owned mib) s = .next s) ∧
      (s.twin.paired = true → s.glob.ready = true → s.twin.m2Up = false → ∃ t, exec (.m2TrainingComplete rate owned mib) s = .next t ∧
        t.twin = { s.twin with m2Up := true, m2Rate := rate, peer := 1, toCopy := mib.toNat, slotsMatch := false,
                               role := if owned then 2 else if s.twin.role = 0 then 1 else s.twin.role } ∧
        (t.twin.role = 1 → ∀ m ∈ s.syncCopy, Output.peer m ∈ s.newOut t) ∧ Only [.twin] s t)) ∧
    (∀ (ok : Bool), ((s.twin.m2Up = false ∨ s.twin.peer ≠ 1) → exec (.twinArmed ok) s = .next s) ∧
      (s.twin.m2Up = true → s.twin.peer = 1 → ∃ t, exec (.twinArmed ok) s = .next t ∧
        t.twin = { s.twin with slotsMatch := ok, toCopy := 0, peer := if ok then 2 else 1 } ∧ Only [.twin] s t)) ∧
    (∀ (m : MirrorItem), let takes := s.twin.role = 2 ∧ s.twin.m2Up = true ∧ (s.twin.peer = 1 ∨ s.twin.peer = 2)
      (¬ takes → exec (.mirrorItem m) s = .next s) ∧
      (takes → ∃ t, exec (.mirrorItem m) s = .next t ∧ Output.confirm ∈ s.newOut t ∧
        (∀ q tag st res ext, m = .completion q tag st res ext → t.twin = { s.twin with doubt := s.twin.doubt ++ [m] } ∧ Only [.twin] s t) ∧
        (∀ code st a b, m = .event code st a b → t.twin = { s.twin with doubt := s.twin.doubt ++ [m] } ∧ Only [.twin] s t) ∧
        (∀ q tag, m = .written q tag → t.pair? q = (s.pair? q).map Pair.advanceCq ∧ t.cmd? q tag = none ∧
          (∀ st res ext, .completion q tag st res ext ∉ t.twin.doubt) ∧ Only [.twin, .pairs, .recs] s t) ∧
        (∀ code a, m = .posted code a → t.evq = s.evq.advance ∧ Only [.twin, .recs, .evq] s t) ∧
        (∀ r pair slot sh b time, m = .opened r pair slot false sh b time → ∃ x : Rec, t.rec? r = some x ∧ x.state = .opened ∧ x.pair = pair ∧
          x.openTime = time ∧ t.recs.next = max s.recs.next (r + 1) ∧ Only [.recs] s t) ∧
        (∀ r len x, m = .sealed r len → s.rec? r = some x → ∃ y : Rec, t.rec? r = some y ∧ y.state = .sealed ∧ y.len = len ∧
          .record r ∈ t.recs.sealQ ∧ Only [.recs] s t) ∧
        (∀ q, m = .qpDelete q → t.pair? q = none ∧ (∀ c ∈ t.recs.cmds, c.pair ≠ q) ∧ Only [.pairs, .recs] s t) ∧
        (∀ q f ta h ph p, m = .pairAt q f ta h ph → s.pair? q = some p →
          t.pair? q = some { p with sqFetch := f, cqTail := ta, cqHead := h, cqPhase := ph } ∧ Only [.pairs] s t) ∧
        (∀ b, m = .image b → s.cart.loaded = true → t.cart.image = parseImage b ∧ t.cart.lastIssued = some (parseImage b).seq ∧ Only [.cart] s t) ∧
        (∀ n, m = .stored n → t.cart = { s.cart with lastStored := some (max n (s.cart.lastStored.getD 0)) } ∧ Only [.cart] s t) ∧
        (∀ w h k ser ret n, m = .heat w h k ser ret n → t.twin.peerWrites = true ∧ t.heat.wrap = w ∧ t.heat.h = h ∧
          Only [.twin, .anvil, .blw, .cart, .evq, .forge, .heat, .rd] s t) ∧
        (m = .ended → t.twin.peerWrites = false ∧ t.forge.writing = false ∧ Only [.twin, .forge, .heat, .cart] s t))) ∧
    (∀ (ser : BitVec 32) (j : Fin 126) (pass : Bool) (crc : BitVec 32),
      let hit := fun (x : Frame) => decide (x.serial = ser.toNat) && decide (x.j = j.val) && x.standby.isNone
      ((s.armedActive = false ∨ ∀ n, n < 1024 → (s.chan n).hold.find? hit = none) → exec (.standbyVerdict ser j pass crc) s = .next s) ∧
      (∀ n x, s.armedActive = true → n < 1024 → n < s.anvil.chans.length → (s.chan n).hold.find? hit = some x → (∀ k, k < n → (s.chan k).hold.find? hit = none) →
        let ok := pass && decide (crc = crc32c x.patched)
        (x.own = none → ∃ t, exec (.standbyVerdict ser j pass crc) s = .next t ∧ { x with standby := some ok } ∈ (t.chan n).hold ∧
          (∀ k, k ≠ n → t.chan k = s.chan k) ∧ Only [.anvil] s t) ∧
        (∀ v, x.own = some v → (v ≠ 0 ∨ ok = false) → ∃ t, exec (.standbyVerdict ser j pass crc) s = .next t ∧
          t.twin.disagreements = satAdd 32 s.twin.disagreements 1 ∧
          Only [.anvil, .blw, .cart, .evq, .forge, .hearth, .heat, .jnl, .recs, .sec, .tongs, .twin, .units] s t))) ∧
    (let alone := s.glob.ready = true ∧ s.twin.paired = true ∧ s.twin.die = 1 ∧ s.twin.role = 2 ∧ s.twin.m2Up = false
     (¬ alone → exec .peerSilentAtBoot s = .next s) ∧
     (alone → ∃ t, exec .peerSilentAtBoot s = .next t ∧ t.twin = { s.twin with role := 1, peer := 0 } ∧ claims t ∧ Only [.twin, .tongs] s t)) ∧
    (s.twin.m2Up = false → exec .m2Silence s = .next s) ∧ ((s.twin.m2Up = false ∨ s.twin.role ≠ 2) → exec .peerFault s = .next s) ∧
    (s.twin.m2Up = true → s.twin.role = 2 → ∀ c ∈ [Instr.m2Silence, .peerFault],
      (s.twin.peer = 2 → ∃ t, exec c s = .next t ∧ t.twin = { s.twin with claiming := true, handed := false, m2Up := false } ∧
        t.heat = { s.heat with quench := s.twin.peerWrites, gate := false } ∧ claims t ∧ Only [.twin, .heat, .tongs] s t) ∧
      (s.twin.peer ≠ 2 → ∃ t, exec c s = .next t ∧ t.twin = { s.twin with peer := 0, m2Up := false } ∧ Only [.twin] s t)) ∧
    (s.twin.m2Up = true → s.twin.role ≠ 2 → s.twin.swap = none → (∀ c ∈ s.anvil.chans, ∀ x ∈ c.hold, x.own = none) →
      ∃ t, exec .m2Silence s = .next t ∧ t.twin = { s.twin with peer := 0, m2Up := false, slotsMatch := false } ∧ Reported 0x0407 0 0 s t ∧
        Only [.twin, .evq] s t) ∧
    (let due := s.twin.m2Up = true ∧ s.twin.role = 2 ∧ s.twin.peer = 2
     (¬ due → exec .handover s = .next s) ∧
     (due → ∃ t, exec .handover s = .next t ∧ t.twin = { s.twin with claiming := true, handed := true } ∧ claims t ∧ Only [.twin, .tongs] s t)) ∧
    (s.twin.claiming = false → exec .claimRefusedTimeout s = .next s ∧ exec .twinTakeover s = .next s) ∧
    (s.twin.claiming = true →
      (∃ t, exec .claimRefusedTimeout s = .next t ∧ t.twin = { s.twin with claiming := false, handed := false, peer := 0, m2Up := false } ∧
        t.heat = { s.heat with quench := false } ∧ (∀ p ∈ t.tongs.ports, p.claim = false) ∧ Reported 0x0407 0 0 s t ∧
        Only [.twin, .heat, .tongs, .evq] s t) ∧
      (∃ t, exec .twinTakeover s = .next t ∧ t.twin.role = 1 ∧ t.twin.peer = (if s.twin.handed then 1 else 0) ∧ t.twin.claiming = false ∧
        t.twin.takeovers = satAdd 32 s.twin.takeovers 1 ∧ t.twin.lastTakeover = s.now ∧ t.twin.replayDue = true ∧ t.twin.doubt = s.twin.doubt ∧
        (∀ p ∈ t.tongs.ports, p.claim = false ∧ p.owner = true ∧ p.acc = 0) ∧ (∀ c ∈ t.recs.cmds, c.inDoubt = !s.twin.handed) ∧
        t.pins = { s.pins with spdReq := s.blw.speedCur } ∧ Reported 0x0408 t.heat.h t.heat.wrap s t ∧
        (s.twin.peerWrites = true → t.forge = { s.forge with writing := true, ending := false, reforms := s.owedFrames, rebuild := true } ∧
          s.heat.h < t.heat.h ∧ t.cart.sessionBegun = true ∧ t.motion = { s.motion with state := 4 }) ∧
        (s.twin.peerWrites = false → t.forge = s.forge ∧ t.heat = s.heat ∧ t.motion = s.motion ∧ t.rd = s.rd ∧ t.cart.waitStored = s.awaitedImage) ∧
        Only [.cart, .evq, .forge, .heat, .motion, .pairs, .pins, .rd, .recs, .tongs, .twin] s t)) ∧
    (s.twin.replayDue = false → exec .replayedCompletions s = .next s) ∧
    (s.twin.replayDue = true → ∃ t, exec .replayedCompletions s = .next t ∧ t.twin = { s.twin with replayDue := false, doubt := [] } ∧
      (∀ q tag st res ext p, .completion q tag st res ext ∈ s.twin.doubt → s.pair? q = some p → p.error = false → q ∉ s.env.cqFail →
        ∃ c, Output.completion c ∈ s.newOut t ∧ c.pair = q ∧ c.tag = tag ∧ c.status = st ∧ c.result = res ∧ c.replayed = true) ∧
      Only [.twin, .evq, .pairs, .recs] s t)
end

