-- ==== Sys2Proof/Laws/Bits.lean ====
section
/-! SUPPORT. Bits without errors come back: bytes from their soft values, a Reed–Solomon interleave with zero syndromes, and the soft values
of a frame from its modulated and scrambled bits (R48, R49, R109, R157). -/

namespace Sys2Proof.Machine

/-- Soft values of magnitude 1 that tell bits without errors: negative for 1 (R86). -/
def softOf (b : List Bool) : List Int := b.map (fun x => if x then -1 else 1)

theorem byte_of_bits (x : Byte) : byte (bitsNat (byteBits x)) = x := by
  revert x; decide +kernel

theorem bytesBits_cons (x : Byte) (b : Bytes) : bytesBits (x :: b) = byteBits x ++ bytesBits b := by simp [bytesBits]

theorem byteBits_eq (x : Byte) : byteBits x =
    [x.getLsbD 7, x.getLsbD 6, x.getLsbD 5, x.getLsbD 4, x.getLsbD 3, x.getLsbD 2, x.getLsbD 1, x.getLsbD 0] := rfl

theorem bytesBits_length (b : Bytes) : (bytesBits b).length = 8 * b.length := by
  induction b with
  | nil => rfl
  | cons x b ih => rw [bytesBits_cons, List.length_append, ih, byteBits_eq]; simp; omega

/-- Bytes come back from their bits. -/
theorem bitsBytes_bytesBits (b : Bytes) : bitsBytes (bytesBits b) = b := by
  induction b with
  | nil => rfl
  | cons x b ih =>
    have h := byte_of_bits x
    rw [byteBits_eq] at h
    rw [bytesBits_cons, byteBits_eq]
    simp only [List.cons_append, List.nil_append, bitsBytes, ih, h]

theorem bitsBytes_false (b : Bytes) : bitsBytes ((bytesBits b).map (fun _ => false)) = List.replicate b.length 0 := by
  induction b with
  | nil => rfl
  | cons x b ih =>
    rw [bytesBits_cons, byteBits_eq]
    simp only [List.cons_append, List.nil_append, List.map_cons, bitsBytes, ih, List.length_cons, List.replicate_succ]
    rfl

/-! ## Soft values -/

theorem softOf_sign (b : List Bool) : (softOf b).map (fun l => decide (l < 0)) = b := by
  induction b with
  | nil => rfl
  | cons x b ih => cases x <;> simp_all [softOf]

theorem softOf_flag (b : List Bool) : (softOf b).map (fun l => decide (l = 0)) = b.map (fun _ => false) := by
  induction b with
  | nil => rfl
  | cons x b ih => cases x <;> simp_all [softOf]

theorem softOf_no_zero (b : List Bool) : (softOf b).filter (fun l => decide (l = 0)) = [] := by
  induction b with
  | nil => rfl
  | cons x b ih => cases x <;> simp_all [softOf]

/-! ## GK2 words without errors (R109) -/

/-- An interleave whose syndromes are zero and whose extension symbol agrees decodes to itself. -/
theorem gk2Interleave_clean (vmax : Nat) (sym : Bytes) (a : (rsSyndromes 15 (sym.take 255)).all (· = 0) = true)
    (b : rsEval (sym.take 255) 15 = sym.getD 255 0) : gk2Interleave vmax sym [] = some (sym.take 255 ++ [sym.getD 255 0]) := by
  have h : rsTry 255 15 (sym.take 255) [] 0 = some (sym.take 255, []) := by
    simp [rsTry, rsValues, gfSolve, rsFix] at a ⊢
    exact a
  simp [gk2Interleave, List.range_succ_eq_map, h, b, b2n]

/-- A decode of soft values without errors is that of the four interleaves without erasures. -/
theorem gk2Decode_softOf (vmax : Nat) (w : Bytes) : gk2Decode vmax (softOf (bytesBits w)) =
    (let parts := (List.range 4).map (fun q => gk2Interleave vmax (gk2Symbols w q) [])
     if parts.all (·.isSome) then
       { ok := true, iters := 0, flips := 0, erased := 0,
         word := (List.range 1024).map (fun n => ((parts.map (·.getD [])).getD (n % 4) []).getD (n / 4) 0) }
     else { ok := false, iters := 0, flips := 0, erased := 0, word := [] }) := by
  have e : (List.range 1024).filter (fun n => (bitsBytes ((softOf (bytesBits w)).map (fun l => decide (l = 0)))).getD n 0 ≠ 0) = [] := by
    rw [softOf_flag, bitsBytes_false]
    apply List.filter_eq_nil_iff.mpr
    intro n _
    simp [List.getD_eq_getElem?_getD, List.getElem?_replicate]
    split <;> rfl
  unfold gk2Decode
  simp only [e, softOf_sign, bitsBytes_bytesBits, softOf_no_zero, List.length_nil, List.filter_nil, List.map_nil]

theorem zeros_length (n : Nat) : (zeros n).length = n := by simp [zeros]

theorem zeros_getD (n i : Nat) : (zeros n).getD i 0 = 0 := by
  simp only [zeros, List.getD_eq_getElem?_getD, List.getElem?_replicate]
  split <;> rfl

theorem getD_append_zeros (h : Bytes) (n i : Nat) : (h ++ zeros n).getD i 0 = h.getD i 0 := by
  by_cases k : i < h.length
  · simp only [List.getD_eq_getElem?_getD, List.getElem?_append_left k]
  · have k : h.length ≤ i := by omega
    have e := zeros_getD n (i - h.length)
    simp only [List.getD_eq_getElem?_getD, List.getElem?_append_right k, List.getElem?_eq_none k, Option.getD_none] at e ⊢
    exact e

theorem range_map_getElem? {α : Type} (f : Nat → α) (n i : Nat) (h : i < n) : ((List.range n).map f)[i]? = some (f i) := by
  simp [h]

theorem zeros_take (n k : Nat) (h : k ≤ n) : (zeros n).take k = zeros k := by
  simp only [zeros, List.take_replicate, Nat.min_eq_left h]

/-- An interleave of a word whose bytes behind the first 80 are zero. -/
theorem gk2Symbols_zeros (h : Bytes) (q : Nat) (l : h.length = 80) (hq : q < 4) :
    gk2Symbols (h ++ zeros 944) q = (List.range 20).map (fun s => h.getD (4 * s + q) 0) ++ zeros 236 := by
  have e : gk2Symbols (h ++ zeros 944) q = (List.range (20 + 236)).map (fun s => h.getD (4 * s + q) 0) := by
    unfold gk2Symbols
    exact List.map_congr_left (fun s _ => getD_append_zeros _ _ _)
  rw [e, List.range_add, List.map_append, List.map_map]
  refine congrArg _ ?_
  apply List.eq_replicate_iff.mpr
  refine ⟨by rw [List.length_map, List.length_range], ?_⟩
  intro b m
  obtain ⟨s, _, rfl⟩ := List.mem_map.mp m
  have k : h.length ≤ 4 * (20 + s) + q := by omega
  simp only [Function.comp_apply, List.getD_eq_getElem?_getD, List.getElem?_eq_none k, Option.getD_none]

/-- A word comes back from its interleaves. -/
theorem gk2_reassembled (w : Bytes) (l : w.length = 1024) :
    (List.range 1024).map (fun n => (((List.range 4).map (gk2Symbols w)).getD (n % 4) []).getD (n / 4) 0) = w := by
  apply List.ext_getElem
  · rw [List.length_map, List.length_range, l]
  · intro i h1 h2
    have a : i % 4 < 4 := by omega
    have b : i / 4 < 256 := by omega
    have c : 4 * (i / 4) + i % 4 = i := by omega
    simp only [List.getElem_map, List.getElem_range, List.getD_eq_getElem?_getD, range_map_getElem? _ _ _ a, Option.getD_some, gk2Symbols,
      range_map_getElem? _ _ _ b, c, List.getElem?_eq_getElem h2]

theorem gfMul_zero (x : Byte) : gfMul 0 x = 0 := by
  revert x; decide +kernel

theorem rsEval_zeros (w : Bytes) (i n : Nat) (h : rsEval w i = 0) : rsEval (w ++ zeros n) i = 0 := by
  unfold rsEval zeros at *
  rw [List.foldl_append, h]
  induction n with
  | zero => rfl
  | succ n ih => rw [List.replicate_succ, List.foldl_cons, gfMul_zero]; exact ih

/-- A word of 1,024 bytes, zero behind the first 80, whose four short interleaves have all 16 syndromes zero, decodes to itself. -/
theorem gk2Decode_written (vmax : Nat) (h : Bytes) (l : h.length = 80)
    (z : (List.range 4).all (fun q => (List.range 16).all (fun i => rsEval ((List.range 20).map (fun s => h.getD (4 * s + q) 0)) i = 0)) = true) :
    gk2Decode vmax (softOf (bytesBits (h ++ zeros 944))) = { ok := true, iters := 0, flips := 0, erased := 0, word := h ++ zeros 944 } := by
  have e : ∀ q < 4, gk2Interleave vmax (gk2Symbols (h ++ zeros 944) q) [] = some (gk2Symbols (h ++ zeros 944) q) := by
    intro q hq
    have zq : ∀ i < 16, rsEval ((List.range 20).map (fun s => h.getD (4 * s + q) 0)) i = 0 := by
      intro i hi
      have := List.all_eq_true.mp z q (List.mem_range.mpr hq)
      exact of_decide_eq_true (List.all_eq_true.mp this i (List.mem_range.mpr hi))
    have t : (gk2Symbols (h ++ zeros 944) q).take 255 = (List.range 20).map (fun s => h.getD (4 * s + q) 0) ++ zeros 235 := by
      rw [gk2Symbols_zeros h q l hq, List.take_append, List.length_map, List.length_range, List.take_of_length_le, zeros_take]
      · omega
      · rw [List.length_map, List.length_range]; omega
    have x : (gk2Symbols (h ++ zeros 944) q).getD 255 0 = 0 := by
      unfold gk2Symbols
      rw [List.getD_eq_getElem?_getD, range_map_getElem? _ _ _ (by omega), Option.getD_some, getD_append_zeros, List.getD_eq_getElem?_getD,
        List.getElem?_eq_none (by omega), Option.getD_none]
    rw [gk2Interleave_clean vmax _ _ _, t, x, gk2Symbols_zeros h q l hq, List.append_assoc]
    · exact congrArg (fun y => some (_ ++ y)) (List.replicate_succ' (n := 235) (a := (0 : Byte))).symm
    · rw [t, rsSyndromes]
      simp only [List.all_map, List.all_eq_true, List.mem_range, Function.comp_apply, decide_eq_true_eq]
      intro i hi
      exact rsEval_zeros _ i 235 (zq i (by omega))
    · rw [t, x]
      exact rsEval_zeros _ 15 235 (zq 15 (by omega))
  rw [gk2Decode_softOf]
  have p : (List.range 4).map (fun q => gk2Interleave vmax (gk2Symbols (h ++ zeros 944) q) []) = (List.range 4).map (fun q => some (gk2Symbols (h ++ zeros 944) q)) :=
    List.map_congr_left (fun q hq => e q (List.mem_range.mp hq))
  have r := gk2_reassembled (h ++ zeros 944) (by rw [List.length_append, zeros_length, l])
  have c : ((List.range 4).map (fun q => some (gk2Symbols (h ++ zeros 944) q))).map (fun x => x.getD []) = (List.range 4).map (gk2Symbols (h ++ zeros 944)) := by
    simp
  simp only [p, c, r]
  rfl

/-! ## Modulation and scrambling undone (R48, R49, R157) -/

theorem underFlag_softOf (f x : Bool) : underFlag (if f then -1 else 1) (if x then -1 else 1) = if xor x f then -1 else 1 := by
  cases f <;> cases x <;> decide

theorem modCand_length (f : Bool) (d : List Bool) : (modCand f d).length = d.length + 1 := by simp [modCand]

theorem modBlock_length (d : List Bool) : (modBlock d).length = d.length + 1 := by
  unfold modBlock; split <;> exact modCand_length _ _

/-- One block's soft values after its flag is undone. -/
theorem modCand_undone (f : Bool) (d : List Bool) :
    (match softOf (modCand f d) with
      | g :: e => e.mapIdx (fun i x => if i % 2 = 1 then x else underFlag g x)
      | [] => []) = softOf d := by
  simp only [modCand, softOf, List.map_cons]
  apply List.ext_getElem
  · simp
  · intro i h1 h2
    simp only [List.getElem_mapIdx, List.getElem_map]
    rcases Nat.mod_two_eq_zero_or_one i with h | h
    · simp only [h, show ¬(0 = 1) from by decide, if_false, underFlag_softOf]
      cases f <;> cases d[i]'(by simpa using h2) <;> rfl
    · simp [h]

/-- A block is one of its two candidates. -/
theorem modBlock_cand (d : List Bool) : modBlock d = modCand true d ∨ modBlock d = modCand false d := by
  unfold modBlock; split
  · exact .inl rfl
  · exact .inr rfl

theorem modBlock_undone (d : List Bool) :
    (match softOf (modBlock d) with
      | g :: e => e.mapIdx (fun i x => if i % 2 = 1 then x else underFlag g x)
      | [] => []) = softOf d := by
  rcases modBlock_cand d with h | h <;> rw [h]
  · exact modCand_undone true d
  · exact modCand_undone false d

theorem softOf_append (a b : List Bool) : softOf (a ++ b) = softOf a ++ softOf b := by simp [softOf]

theorem blocks_undone (k : Nat) : ∀ b : List Bool, b.length = 32 * k →
    (blocksOf 33 k (softOf ((blocksOf 32 k b).flatMap modBlock))).flatMap (fun blk => match blk with
      | f :: e => e.mapIdx (fun i x => if i % 2 = 1 then x else underFlag f x)
      | [] => []) = softOf b := by
  induction k with
  | zero => intro b h; cases b with
    | nil => rfl
    | cons => simp at h
  | succ k ih =>
    intro b h
    have l : (softOf (modBlock (b.take 32))).length = 33 := by simp [softOf, modBlock_length]; omega
    have d : (b.drop 32).length = 32 * k := by simp; omega
    simp only [blocksOf, List.flatMap_cons, softOf_append]
    rw [List.take_left' l, List.drop_left' l, ih _ d, modBlock_undone, ← softOf_append, List.take_append_drop]

/-- Modulated bits of a codeword, read without errors, demodulate to its bits. -/
theorem demodulate_modulate (b : List Bool) (h : b.length = 8192) : demodulate (softOf (modulate b)) = softOf b := by
  unfold demodulate modulate
  rw [h]
  exact blocks_undone 256 b (by omega)

theorem descrambled (b : List Bool) : ∀ s : List Bool, b.length = s.length →
    List.zipWith (fun (v : Int) (out : Bool) => if out then -v else v) (softOf (List.zipWith xor b s)) s = softOf b := by
  induction b with
  | nil => intro s _; rfl
  | cons x b ih =>
    intro s h
    cases s with
    | nil => simp at h
    | cons y s =>
      have := ih s (by simpa using h)
      simp only [softOf, List.zipWith_cons_cons, List.map_cons] at this ⊢
      rw [this]
      cases x <;> cases y <;> rfl

theorem scrBits_length (n : Nat) : ∀ s : Nat, (scrBits n s).length = n := by
  induction n with
  | zero => intro s; rfl
  | succ n ih => intro s; simp [scrBits, ih]

/-- A codeword written and read without errors gives its own soft values. -/
theorem lambdaOf_written (wrap p : Nat) (w : Bytes) (h : w.length = 1024) :
    lambdaOf wrap p (softOf (modulate (scramble wrap p (bytesBits w)))) = softOf (bytesBits w) := by
  have l : (bytesBits w).length = 8192 := by rw [bytesBits_length, h]
  have m : (scramble wrap p (bytesBits w)).length = 8192 := by simp [scramble, scrBits_length, l]
  unfold lambdaOf
  rw [demodulate_modulate _ m]
  unfold scramble
  rw [l]
  exact descrambled _ _ (by rw [l, scrBits_length])

/-- A capture whose try starts where the codeword does gives the codeword's soft values. -/
theorem lambdaOf_shifted (c : Capture) (k : Int) (wrap p : Nat) (w : Bytes) (x y : List Int) (h : w.length = 1024) (a : x.length = (3 + k).toNat)
    (b : c.soft = x ++ softOf (modulate (scramble wrap p (bytesBits w))) ++ y) : lambdaOf wrap p (shifted c k) = softOf (bytesBits w) := by
  have l : (bytesBits w).length = 8192 := by rw [bytesBits_length, h]
  have m : (scramble wrap p (bytesBits w)).length = 8192 := by simp [scramble, scrBits_length, l]
  have n : ∀ (k : Nat) (b : List Bool), b.length = 32 * k → ((blocksOf 32 k b).flatMap modBlock).length = 33 * k := by
    intro k
    induction k with
    | zero => intro b _; rfl
    | succ k ih =>
      intro b h
      have d : (b.drop 32).length = 32 * k := by simp; omega
      simp only [blocksOf, List.flatMap_cons, List.length_append, modBlock_length, ih _ d, List.length_take]
      omega
  have z : (softOf (modulate (scramble wrap p (bytesBits w)))).length = 8448 := by
    simp only [softOf, List.length_map, modulate, m]
    exact n 256 _ (by omega)
  unfold shifted
  rw [b, ← a, List.append_assoc, List.drop_left' rfl, List.take_left' z, lambdaOf_written wrap p w h]

end Sys2Proof.Machine
end

