-- ==== Sys2Proof/Laws/Keel.lean ====
section
/-! SUPPORT. Two views of the state that almost no operation changes, so that one lemma for each operation says what it leaves alone.
The hull: the queue, how many there are of what the manual counts, the Hearth's contents, the die's identity and phase, FATAL and the gate
lock, TAMPER_N, the debug bridge, the time counter. The keel: the hull, the accepted parameter values, every key. -/

namespace Sys2Proof.Machine

open Sys2Proof

/-- What no operation of the block changes but reset, boot, FATAL, the time unit's own commands and a write of staged data. -/
structure Hull where
  pending : List Instr
  mail : Nat
  pairs : Nat
  msix : Nat
  ports : Nat
  chans : Nat
  anvil : Nat
  lanes : Nat
  keks : Nat
  slots : Nat
  mem : List Host.Cell
  serial : Bytes
  deliverable : BitVec 8
  phase : Phase
  fatal : Bool
  gateLocked : Bool
  tamperLow : Bool
  debug : Bool
  time : TimeUnit

/-- The hull of a state. -/
def State.hull (s : State) : Hull :=
  { pending := s.pending, mail := s.mail.length, pairs := s.pairs.length, msix := s.glob.msix.length, ports := s.tongs.ports.length,
    chans := s.hearth.chans.length, anvil := s.anvil.chans.length, lanes := s.rd.lanes.length, keks := s.sec.keks.length,
    slots := s.sec.slots.length, mem := s.hearth.mem, serial := s.glob.serial, deliverable := s.glob.deliverable, phase := s.glob.phase,
    fatal := s.glob.fatal, gateLocked := s.pins.gateLocked, tamperLow := s.pins.tamperLow, debug := s.sec.debug, time := s.time }

/-- The key and label that a slot holds now. -/
def KeySlot.held (k : KeySlot) : Option (Bytes × Bytes) := k.cur.map (fun g => (g.key, g.label))

/-- The hull with what only PARAM_SET and the security commands change besides. -/
structure Keel where
  hull : Hull
  accepted : List (Nat × Int)
  coKey : Option Bytes
  userKey : Option Bytes
  keks : List (Option (Bytes × Bytes))
  keys : List (Option (Bytes × Bytes))

/-- The keel of a state. -/
def State.keel (s : State) : Keel :=
  { hull := s.hull, accepted := s.params.accepted, coKey := s.sec.coKey, userKey := s.sec.userKey, keks := s.sec.keks,
    keys := s.sec.slots.map KeySlot.held }

/-- A state with the same keel has the same hull. -/
theorem State.hull_of_keel {s t : State} (h : t.keel = s.keel) : t.hull = s.hull := congrArg Keel.hull h

/-! ## Lists -/

@[simp] theorem length_modAt {α : Type} (l : List α) (i : Nat) (f : α → α) : (modAt l i f).length = l.length := by
  induction l generalizing i with
  | nil => simp [modAt]
  | cons a r ih => cases i <;> simp [modAt, ih]

@[simp] theorem map_modAt {α β : Type} {g : α → β} {f : α → α} (h : ∀ a, g (f a) = g a) (l : List α) (i : Nat) :
    (modAt l i f).map g = l.map g := by
  induction l generalizing i with
  | nil => simp [modAt]
  | cons a r ih => cases i <;> simp [modAt, ih, h]

/-- Element `j` after element `i` has been changed. -/
theorem getElem?_modAt {α : Type} (l : List α) (i j : Nat) (f : α → α) :
    (modAt l i f)[j]? = if i = j then (l[j]?).map f else l[j]? := by
  induction l generalizing i j with
  | nil => simp [modAt]
  | cons a r ih => cases i <;> cases j <;> simp [modAt, ih]

/-! ## Record updates -/

/-- An update that leaves the hull's own parts as they are. -/
@[simp] theorem State.hull_upd {t : State} {pins : Pins} {time : TimeUnit} {glob : Glob} {evq : EvQueue} {pairs : List (Option Pair)}
    {arb : Arbiter} {motion : Motion} {mail : List Mailbox} {params : Params} {recs : Records} {cart : Cart} {forge : Forge} {anvil : Anvil}
    {heat : Heat} {blw : Bellows} {rd : ReadSide} {servo : Servo} {tongs : Tongs} {hearth : Hearth} {sec : Sec} {comp : Comp} {units : Units}
    {twin : Twin} {jnl : Journal} {bench : Bench} {fw : Firmware} {pwr : Power} {pvt : Pvt} {out : List Output} {env : Env} {free : Nat}
    (h1 : mail.length = t.mail.length) (h2 : pairs.length = t.pairs.length) (h3 : glob.msix.length = t.glob.msix.length)
    (h4 : tongs.ports.length = t.tongs.ports.length) (h5 : hearth.chans.length = t.hearth.chans.length)
    (h6 : anvil.chans.length = t.anvil.chans.length) (h7 : rd.lanes.length = t.rd.lanes.length)
    (h8 : sec.keks.length = t.sec.keks.length) (h9 : sec.slots.length = t.sec.slots.length) (h10 : hearth.mem = t.hearth.mem)
    (h11 : glob.serial = t.glob.serial) (h12 : glob.deliverable = t.glob.deliverable) (h13 : glob.phase = t.glob.phase)
    (h14 : time = t.time) (h15 : pins.tamperLow = t.pins.tamperLow) (h16 : sec.debug = t.sec.debug)
    (h17 : glob.fatal = t.glob.fatal) (h18 : pins.gateLocked = t.pins.gateLocked) :
    State.hull { pending := t.pending, pins := pins, time := time, glob := glob, evq := evq, pairs := pairs, arb := arb, motion := motion,
                 mail := mail, params := params, recs := recs, cart := cart, forge := forge, anvil := anvil, heat := heat, blw := blw,
                 rd := rd, servo := servo, tongs := tongs, hearth := hearth, sec := sec, comp := comp, units := units, twin := twin,
                 jnl := jnl, bench := bench, fw := fw, pwr := pwr, pvt := pvt, out := out, env := env, free := free } = t.hull := by
  simp [State.hull, *]

/-- An update that leaves the keel's own parts as they are. -/
@[simp] theorem State.keel_upd {t : State} {pins : Pins} {time : TimeUnit} {glob : Glob} {evq : EvQueue} {pairs : List (Option Pair)}
    {arb : Arbiter} {motion : Motion} {mail : List Mailbox} {params : Params} {recs : Records} {cart : Cart} {forge : Forge} {anvil : Anvil}
    {heat : Heat} {blw : Bellows} {rd : ReadSide} {servo : Servo} {tongs : Tongs} {hearth : Hearth} {sec : Sec} {comp : Comp} {units : Units}
    {twin : Twin} {jnl : Journal} {bench : Bench} {fw : Firmware} {pwr : Power} {pvt : Pvt} {out : List Output} {env : Env} {free : Nat}
    (h1 : mail.length = t.mail.length) (h2 : pairs.length = t.pairs.length) (h3 : glob.msix.length = t.glob.msix.length)
    (h4 : tongs.ports.length = t.tongs.ports.length) (h5 : hearth.chans.length = t.hearth.chans.length)
    (h6 : anvil.chans.length = t.anvil.chans.length) (h7 : rd.lanes.length = t.rd.lanes.length) (h8 : sec.keks = t.sec.keks)
    (h9 : sec.slots.map KeySlot.held = t.sec.slots.map KeySlot.held) (h10 : hearth.mem = t.hearth.mem)
    (h11 : glob.serial = t.glob.serial) (h12 : glob.deliverable = t.glob.deliverable) (h13 : glob.phase = t.glob.phase)
    (h14 : time = t.time) (h15 : pins.tamperLow = t.pins.tamperLow) (h16 : sec.debug = t.sec.debug)
    (h17 : glob.fatal = t.glob.fatal) (h18 : pins.gateLocked = t.pins.gateLocked) (h19 : params.accepted = t.params.accepted)
    (h20 : sec.coKey = t.sec.coKey) (h21 : sec.userKey = t.sec.userKey) :
    State.keel { pending := t.pending, pins := pins, time := time, glob := glob, evq := evq, pairs := pairs, arb := arb, motion := motion,
                 mail := mail, params := params, recs := recs, cart := cart, forge := forge, anvil := anvil, heat := heat, blw := blw,
                 rd := rd, servo := servo, tongs := tongs, hearth := hearth, sec := sec, comp := comp, units := units, twin := twin,
                 jnl := jnl, bench := bench, fw := fw, pwr := pwr, pvt := pvt, out := out, env := env, free := free } = t.keel := by
  have h0 : sec.slots.length = t.sec.slots.length := by simpa using congrArg List.length h9
  simp [State.keel, State.hull, *]

@[simp] theorem State.hull_ite {c : Prop} [Decidable c] (a b : State) : (if c then a else b).hull = if c then a.hull else b.hull :=
  apply_ite State.hull c a b

@[simp] theorem State.keel_ite {c : Prop} [Decidable c] (a b : State) : (if c then a else b).keel = if c then a.keel else b.keel :=
  apply_ite State.keel c a b

/-! ## Folds -/

@[simp] theorem foldl_hull {α : Type} {f : State → α → State} (h : ∀ s a, (f s a).hull = s.hull) (l : List α) (s : State) :
    (l.foldl f s).hull = s.hull := by
  induction l generalizing s with
  | nil => rfl
  | cons a r ih => simp [ih, h]

@[simp] theorem foldl_keel {α : Type} {f : State → α → State} (h : ∀ s a, (f s a).keel = s.keel) (l : List α) (s : State) :
    (l.foldl f s).keel = s.keel := by
  induction l generalizing s with
  | nil => rfl
  | cons a r ih => simp [ih, h]

@[simp] theorem foldr_hull {α : Type} {f : α → State → State} (h : ∀ s a, (f a s).hull = s.hull) (l : List α) (s : State) :
    (l.foldr f s).hull = s.hull := by
  induction l generalizing s with
  | nil => rfl
  | cons a r ih => simp [ih, h]

@[simp] theorem foldr_keel {α : Type} {f : α → State → State} (h : ∀ s a, (f a s).keel = s.keel) (l : List α) (s : State) :
    (l.foldr f s).keel = s.keel := by
  induction l generalizing s with
  | nil => rfl
  | cons a r ih => simp [ih, h]

/-! ## Parts -/

@[simp] theorem stageWrite_chans (h : Hearth) (c : List (Nat × Nat)) (o : Nat) (d : Bytes) : (h.stageWrite c o d).chans = h.chans := by
  induction d generalizing h o with
  | nil => rfl
  | cons b r ih => simp only [Hearth.stageWrite, ih]; split <;> rfl

@[simp] theorem logScale_chans (h : Hearth) (a b c d : Nat) (x : DramAddr) (y : Bool) (z : BitVec 64) :
    (h.logScale a b c d x y z).chans = h.chans := by
  unfold Hearth.logScale; split <;> (try split) <;> rfl

@[simp] theorem logScale_mem (h : Hearth) (a b c d : Nat) (x : DramAddr) (y : Bool) (z : BitVec 64) :
    (h.logScale a b c d x y z).mem = h.mem := by
  unfold Hearth.logScale; split <;> (try split) <;> rfl

@[simp] theorem loadCal_ports (t : Tongs) (b : Bytes) : (t.loadCal b).ports = t.ports := rfl

@[simp] theorem held_modGen (k : KeySlot) (g : BitVec 16) (f : KeyGen → KeyGen) (h : ∀ x, (f x).key = x.key ∧ (f x).label = x.label) :
    (k.modGen g f).held = k.held := by
  unfold KeySlot.modGen KeySlot.held; cases k.cur <;> simp; split <;> simp [h]

@[simp] theorem held_sweep (k : KeySlot) : k.sweep.held = k.held := by
  unfold KeySlot.sweep KeySlot.held; cases k.cur <;> simp

end Sys2Proof.Machine
end

