-- ==== Sys2Proof/Laws/KeelHost.lean ====
section
/-! SUPPORT. What the operations of the host side: parameters, shared operations, frames and records to queues and record commands leave alone: keel and hull of the state. -/

set_option linter.unusedSimpArgs false

namespace Sys2Proof.Machine

open Sys2Proof

@[simp] theorem State.applyParams_keel (w : PWhen) (s : State) : (State.applyParams w s).keel = s.keel := by
  unfold State.applyParams
  (repeat' (first | (simp; done) | split | (simp; split)))

@[simp] theorem State.applyParams_hull (w : PWhen) (s : State) : (State.applyParams w s).hull = s.hull :=
  State.hull_of_keel (State.applyParams_keel w s)

@[simp] theorem State.takePool_keel (s : State) : (State.takePool s).keel = s.keel := by
  unfold State.takePool
  (repeat' (first | (simp; done) | split | (simp; split)))

@[simp] theorem State.takePool_hull (s : State) : (State.takePool s).hull = s.hull :=
  State.hull_of_keel (State.takePool_keel s)

@[simp] theorem State.modPair_keel (q : Nat) (f : Pair → Pair) (s : State) : (State.modPair q f s).keel = s.keel := by
  unfold State.modPair
  (repeat' (first | (simp; done) | split | (simp; split)))

@[simp] theorem State.modPair_hull (q : Nat) (f : Pair → Pair) (s : State) : (State.modPair q f s).hull = s.hull :=
  State.hull_of_keel (State.modPair_keel q f s)

@[simp] theorem State.modMbox_keel (m : Nat) (f : Mailbox → Mailbox) (s : State) : (State.modMbox m f s).keel = s.keel := by
  unfold State.modMbox
  (repeat' (first | (simp; done) | split | (simp; split)))

@[simp] theorem State.modMbox_hull (m : Nat) (f : Mailbox → Mailbox) (s : State) : (State.modMbox m f s).hull = s.hull :=
  State.hull_of_keel (State.modMbox_keel m f s)

@[simp] theorem State.emit_keel (o : Output) (s : State) : (State.emit o s).keel = s.keel := by
  unfold State.emit
  (repeat' (first | (simp; done) | split | (simp; split)))

@[simp] theorem State.emit_hull (o : Output) (s : State) : (State.emit o s).hull = s.hull :=
  State.hull_of_keel (State.emit_keel o s)

@[simp] theorem State.mirror_keel (m : MirrorItem) (s : State) : (State.mirror m s).keel = s.keel := by
  unfold State.mirror
  (repeat' (first | (simp; done) | split | (simp; split)))

@[simp] theorem State.mirror_hull (m : MirrorItem) (s : State) : (State.mirror m s).hull = s.hull :=
  State.hull_of_keel (State.mirror_keel m s)

@[simp] theorem State.drew_keel (s : State) : (State.drew s).keel = s.keel := by
  unfold State.drew
  (repeat' (first | (simp; done) | split | (simp; split)))

@[simp] theorem State.drew_hull (s : State) : (State.drew s).hull = s.hull :=
  State.hull_of_keel (State.drew_keel s)

@[simp] theorem State.journal_keel (type src : Nat) (payload : Bytes) (s : State) : (State.journal type src payload s).keel = s.keel := by
  unfold State.journal
  (repeat' (first | (simp; done) | split | (simp; split)))

@[simp] theorem State.journal_hull (type src : Nat) (payload : Bytes) (s : State) : (State.journal type src payload s).hull = s.hull :=
  State.hull_of_keel (State.journal_keel type src payload s)

@[simp] theorem State.order_keel (point : Nat) (stamp : Bytes) (s : State) : (State.order point stamp s).keel = s.keel := by
  unfold State.order
  (repeat' (first | (simp; done) | split | (simp; split)))

@[simp] theorem State.order_hull (point : Nat) (stamp : Bytes) (s : State) : (State.order point stamp s).hull = s.hull :=
  State.hull_of_keel (State.order_keel point stamp s)

@[simp] theorem State.dmaDigest_keel (q tag o : Nat) (piece : Bytes) (s : State) : (State.dmaDigest q tag o piece s).keel = s.keel := by
  unfold State.dmaDigest
  (repeat' (first | (simp; done) | split | (simp; split)))

@[simp] theorem State.dmaDigest_hull (q tag o : Nat) (piece : Bytes) (s : State) : (State.dmaDigest q tag o piece s).hull = s.hull :=
  State.hull_of_keel (State.dmaDigest_keel q tag o piece s)

@[simp] theorem State.dmaDigests_keel (q tag : Nat) (data : Bytes) (s : State) : (State.dmaDigests q tag data s).keel = s.keel := by
  unfold State.dmaDigests
  (repeat' (first | (simp; done) | split | (simp; split)))

@[simp] theorem State.dmaDigests_hull (q tag : Nat) (data : Bytes) (s : State) : (State.dmaDigests q tag data s).hull = s.hull :=
  State.hull_of_keel (State.dmaDigests_keel q tag data s)

@[simp] theorem State.linkIn_keel (s : State) : (State.linkIn s).keel = s.keel := by
  unfold State.linkIn
  (repeat' (first | (simp; done) | split | (simp; split)))

@[simp] theorem State.linkIn_hull (s : State) : (State.linkIn s).hull = s.hull :=
  State.hull_of_keel (State.linkIn_keel s)

@[simp] theorem State.signal_keel (v : Nat) (s : State) : (State.signal v s).keel = s.keel := by
  unfold State.signal
  (repeat' (first | (simp; done) | split | (simp; split)))

@[simp] theorem State.signal_hull (v : Nat) (s : State) : (State.signal v s).hull = s.hull :=
  State.hull_of_keel (State.signal_keel v s)

@[simp] theorem State.cancelSignal_keel (v : Nat) (s : State) : (State.cancelSignal v s).keel = s.keel := by
  unfold State.cancelSignal
  (repeat' (first | (simp; done) | split | (simp; split)))

@[simp] theorem State.cancelSignal_hull (v : Nat) (s : State) : (State.cancelSignal v s).hull = s.hull :=
  State.hull_of_keel (State.cancelSignal_keel v s)

@[simp] theorem State.flushSignals_keel (s : State) : (State.flushSignals s).keel = s.keel := by
  unfold State.flushSignals
  refine foldl_keel (fun s v => ?_) _ s
  split
  · split <;> simp
  · rfl

@[simp] theorem State.flushSignals_hull (s : State) : (State.flushSignals s).hull = s.hull :=
  State.hull_of_keel (State.flushSignals_keel s)

@[simp] theorem State.holdEvent_keel (e : Event) (s : State) : (State.holdEvent e s).keel = s.keel := by
  unfold State.holdEvent
  (repeat' (first | (simp; done) | split | (simp; split)))

@[simp] theorem State.holdEvent_hull (e : Event) (s : State) : (State.holdEvent e s).hull = s.hull :=
  State.hull_of_keel (State.holdEvent_keel e s)

@[simp] theorem State.writeEvent_keel (e : Event) (s : State) : (State.writeEvent e s).keel = s.keel := by
  unfold State.writeEvent
  (repeat' (first | (simp; done) | split | (simp; split)))

@[simp] theorem State.writeEvent_hull (e : Event) (s : State) : (State.writeEvent e s).hull = s.hull :=
  State.hull_of_keel (State.writeEvent_keel e s)

@[simp] theorem State.postEvent_keel (e : Event) (s : State) : (State.postEvent e s).keel = s.keel := by
  unfold State.postEvent
  (repeat' (first | (simp; done) | split | (simp; split)))

@[simp] theorem State.postEvent_hull (e : Event) (s : State) : (State.postEvent e s).hull = s.hull :=
  State.hull_of_keel (State.postEvent_keel e s)

@[simp] theorem State.event_keel (code a b : Nat) (s : State) : (State.event code a b s).keel = s.keel := by
  unfold State.event
  (repeat' (first | (simp; done) | split | (simp; split)))

@[simp] theorem State.event_hull (code a b : Nat) (s : State) : (State.event code a b s).hull = s.hull :=
  State.hull_of_keel (State.event_keel code a b s)

@[simp] theorem State.trigger_keel (cause : Nat) (s : State) : (State.trigger cause s).keel = s.keel := by
  unfold State.trigger
  (repeat' (first | (simp; done) | split | (simp; split)))

@[simp] theorem State.trigger_hull (cause : Nat) (s : State) : (State.trigger cause s).hull = s.hull :=
  State.hull_of_keel (State.trigger_keel cause s)

@[simp] theorem drainHeld_keel (a : List Event) (s : State) : (drainHeld a s).keel = s.keel := by
  induction a generalizing s <;> first | (simp [drainHeld, *]; done) | (unfold drainHeld; (repeat' (first | (simp [drainHeld, *]; done) | split)))

@[simp] theorem drainHeld_hull (a : List Event) (s : State) : (drainHeld a s).hull = s.hull :=
  State.hull_of_keel (drainHeld_keel a s)

@[simp] theorem State.drainEvents_keel (s : State) : (State.drainEvents s).keel = s.keel := by
  unfold State.drainEvents
  (repeat' (first | (simp; done) | split | (simp; split)))

@[simp] theorem State.drainEvents_hull (s : State) : (State.drainEvents s).hull = s.hull :=
  State.hull_of_keel (State.drainEvents_keel s)

@[simp] theorem State.countError_keel (s : State) : (State.countError s).keel = s.keel := by
  unfold State.countError
  (repeat' (first | (simp; done) | split | (simp; split)))

@[simp] theorem State.countError_hull (s : State) : (State.countError s).hull = s.hull :=
  State.hull_of_keel (State.countError_keel s)

@[simp] theorem State.doorbellInvalid_keel (who v : Nat) (s : State) : (State.doorbellInvalid who v s).keel = s.keel := by
  unfold State.doorbellInvalid
  (repeat' (first | (simp; done) | split | (simp; split)))

@[simp] theorem State.doorbellInvalid_hull (who v : Nat) (s : State) : (State.doorbellInvalid who v s).hull = s.hull :=
  State.hull_of_keel (State.doorbellInvalid_keel who v s)

@[simp] theorem State.modCmd_keel (q tag : Nat) (f : Cmd → Cmd) (s : State) : (State.modCmd q tag f s).keel = s.keel := by
  unfold State.modCmd
  (repeat' (first | (simp; done) | split | (simp; split)))

@[simp] theorem State.modCmd_hull (q tag : Nat) (f : Cmd → Cmd) (s : State) : (State.modCmd q tag f s).hull = s.hull :=
  State.hull_of_keel (State.modCmd_keel q tag f s)

@[simp] theorem State.dropCmd_keel (q tag : Nat) (s : State) : (State.dropCmd q tag s).keel = s.keel := by
  unfold State.dropCmd
  (repeat' (first | (simp; done) | split | (simp; split)))

@[simp] theorem State.dropCmd_hull (q tag : Nat) (s : State) : (State.dropCmd q tag s).hull = s.hull :=
  State.hull_of_keel (State.dropCmd_keel q tag s)

@[simp] theorem State.writeEntry_keel (q tag : Nat) (ctx : BitVec 32) (st : BitVec 16) (res : BitVec 64) (ext : BitVec 32) (replayed : Bool) (s : State) : (State.writeEntry q tag ctx st res ext replayed s).keel = s.keel := by
  unfold State.writeEntry
  (repeat' (first | (simp; done) | split | (simp; split)))

@[simp] theorem State.writeEntry_hull (q tag : Nat) (ctx : BitVec 32) (st : BitVec 16) (res : BitVec 64) (ext : BitVec 32) (replayed : Bool) (s : State) : (State.writeEntry q tag ctx st res ext replayed s).hull = s.hull :=
  State.hull_of_keel (State.writeEntry_keel q tag ctx st res ext replayed s)

@[simp] theorem State.writeCompletion_keel (q tag : Nat) (ctx : BitVec 32) (st : BitVec 16) (res : BitVec 64) (ext : BitVec 32) (replayed : Bool) (s : State) : (State.writeCompletion q tag ctx st res ext replayed s).keel = s.keel := by
  unfold State.writeCompletion
  (repeat' (first | (simp; done) | split | (simp; split)))

@[simp] theorem State.writeCompletion_hull (q tag : Nat) (ctx : BitVec 32) (st : BitVec 16) (res : BitVec 64) (ext : BitVec 32) (replayed : Bool) (s : State) : (State.writeCompletion q tag ctx st res ext replayed s).hull = s.hull :=
  State.hull_of_keel (State.writeCompletion_keel q tag ctx st res ext replayed s)

@[simp] theorem State.complete_keel (q tag : Nat) (st : BitVec 16) (res : BitVec 64) (ext : BitVec 32) (s : State) : (State.complete q tag st res ext s).keel = s.keel := by
  unfold State.complete
  (repeat' (first | (simp; done) | split | (simp; split)))

@[simp] theorem State.complete_hull (q tag : Nat) (st : BitVec 16) (res : BitVec 64) (ext : BitVec 32) (s : State) : (State.complete q tag st res ext s).hull = s.hull :=
  State.hull_of_keel (State.complete_keel q tag st res ext s)

@[simp] theorem State.writeMotion_keel (q : Nat) (r : MotionReq) (s : State) : (State.writeMotion q r s).keel = s.keel := by
  unfold State.writeMotion
  (repeat' (first | (simp; done) | split | (simp; split)))

@[simp] theorem State.writeMotion_hull (q : Nat) (r : MotionReq) (s : State) : (State.writeMotion q r s).hull = s.hull :=
  State.hull_of_keel (State.writeMotion_keel q r s)

@[simp] theorem State.motionReq_keel (r : MotionReq) (s : State) : (State.motionReq r s).keel = s.keel := by
  unfold State.motionReq
  (repeat' (first | (simp; done) | split | (simp; split)))

@[simp] theorem State.motionReq_hull (r : MotionReq) (s : State) : (State.motionReq r s).hull = s.hull :=
  State.hull_of_keel (State.motionReq_keel r s)

@[simp] theorem postHeldMotion_keel (a : List MotionReq) (b : Nat) (s : State) : (postHeldMotion a b s).keel = s.keel := by
  induction a generalizing b s <;> first | (simp [postHeldMotion, *]; done) | (unfold postHeldMotion; (repeat' (first | (simp [postHeldMotion, *]; done) | split)))

@[simp] theorem postHeldMotion_hull (a : List MotionReq) (b : Nat) (s : State) : (postHeldMotion a b s).hull = s.hull :=
  State.hull_of_keel (postHeldMotion_keel a b s)

@[simp] theorem State.drainMotion_keel (s : State) : (State.drainMotion s).keel = s.keel := by
  unfold State.drainMotion
  (repeat' (first | (simp; done) | split | (simp; split)))

@[simp] theorem State.drainMotion_hull (s : State) : (State.drainMotion s).hull = s.hull :=
  State.hull_of_keel (State.drainMotion_keel s)

@[simp] theorem State.stopTape_keel (s : State) : (State.stopTape s).keel = s.keel := by
  unfold State.stopTape
  (repeat' (first | (simp; done) | split | (simp; split)))

@[simp] theorem State.stopTape_hull (s : State) : (State.stopTape s).hull = s.hull :=
  State.hull_of_keel (State.stopTape_keel s)

@[simp] theorem State.runTape_keel (dir : Bool) (s : State) : (State.runTape dir s).keel = s.keel := by
  unfold State.runTape
  (repeat' (first | (simp; done) | split | (simp; split)))

@[simp] theorem State.runTape_hull (dir : Bool) (s : State) : (State.runTape dir s).hull = s.hull :=
  State.hull_of_keel (State.runTape_keel dir s)

@[simp] theorem State.respond_keel (m : Nat) (st : BitVec 16) (detail : Nat) (payload : Bytes) (s : State) : (State.respond m st detail payload s).keel = s.keel := by
  unfold State.respond
  (repeat' (first | (simp; done) | split | (simp; split)))

@[simp] theorem State.respond_hull (m : Nat) (st : BitVec 16) (detail : Nat) (payload : Bytes) (s : State) : (State.respond m st detail payload s).hull = s.hull :=
  State.hull_of_keel (State.respond_keel m st detail payload s)

@[simp] theorem State.done_keel (m : Nat) (payload : Bytes) (s : State) : (State.done m payload s).keel = s.keel := by
  unfold State.done
  (repeat' (first | (simp; done) | split | (simp; split)))

@[simp] theorem State.done_hull (m : Nat) (payload : Bytes) (s : State) : (State.done m payload s).hull = s.hull :=
  State.hull_of_keel (State.done_keel m payload s)

@[simp] theorem State.modPort_keel (p : Nat) (f : Port → Port) (s : State) : (State.modPort p f s).keel = s.keel := by
  unfold State.modPort
  (repeat' (first | (simp; done) | split | (simp; split)))

@[simp] theorem State.modPort_hull (p : Nat) (f : Port → Port) (s : State) : (State.modPort p f s).hull = s.hull :=
  State.hull_of_keel (State.modPort_keel p f s)

@[simp] theorem State.sendWen_keel (s : State) : (State.sendWen s).keel = s.keel := by
  unfold State.sendWen
  (repeat' (first | (simp; done) | split | (simp; split)))

@[simp] theorem State.sendWen_hull (s : State) : (State.sendWen s).hull = s.hull :=
  State.hull_of_keel (State.sendWen_keel s)

@[simp] theorem State.modAnvil_keel (p : Nat) (f : Chan → Chan) (s : State) : (State.modAnvil p f s).keel = s.keel := by
  unfold State.modAnvil
  (repeat' (first | (simp; done) | split | (simp; split)))

@[simp] theorem State.modAnvil_hull (p : Nat) (f : Chan → Chan) (s : State) : (State.modAnvil p f s).hull = s.hull :=
  State.hull_of_keel (State.modAnvil_keel p f s)

@[simp] theorem State.encode_keel (x : Frame) (s : State) : (State.encode x s).keel = s.keel := by
  unfold State.encode
  (repeat' (first | (simp; done) | split | (simp; split)))

@[simp] theorem State.encode_hull (x : Frame) (s : State) : (State.encode x s).hull = s.hull :=
  State.hull_of_keel (State.encode_keel x s)

@[simp] theorem State.mirrorForming_keel (n : Nat) (s : State) : (State.mirrorForming n s).keel = s.keel := by
  unfold State.mirrorForming
  (repeat' (first | (simp; done) | split | (simp; split)))

@[simp] theorem State.mirrorForming_hull (n : Nat) (s : State) : (State.mirrorForming n s).hull = s.hull :=
  State.hull_of_keel (State.mirrorForming_keel n s)

@[simp] theorem State.pushBillet_keel (b : Billet) (short : Bool) (payload : Bytes) (s : State) : (State.pushBillet b short payload s).keel = s.keel := by
  unfold State.pushBillet
  (repeat' (first | (simp; done) | split | (simp; split)))

@[simp] theorem State.pushBillet_hull (b : Billet) (short : Bool) (payload : Bytes) (s : State) : (State.pushBillet b short payload s).hull = s.hull :=
  State.hull_of_keel (State.pushBillet_keel b short payload s)

@[simp] theorem blockHeat_keel (m : LedgerImage) (eod : Bool) (content : Bytes) (heat : Nat) (s : State) : (blockHeat m eod content heat s).keel = s.keel := by
  unfold blockHeat
  (repeat' (first | (simp; done) | split | (simp; split)))

@[simp] theorem blockHeat_hull (m : LedgerImage) (eod : Bool) (content : Bytes) (heat : Nat) (s : State) : (blockHeat m eod content heat s).hull = s.hull :=
  State.hull_of_keel (blockHeat_keel m eod content heat s)

@[simp] theorem State.formBlock_keel (m : LedgerImage) (eod : Bool) (s : State) : (State.formBlock m eod s).keel = s.keel := by
  unfold State.formBlock
  (repeat' (first | (simp; done) | split | (simp; split)))

@[simp] theorem State.formBlock_hull (m : LedgerImage) (eod : Bool) (s : State) : (State.formBlock m eod s).hull = s.hull :=
  State.hull_of_keel (State.formBlock_keel m eod s)

@[simp] theorem State.modRec_keel (r : Nat) (f : Rec → Rec) (s : State) : (State.modRec r f s).keel = s.keel := by
  unfold State.modRec
  (repeat' (first | (simp; done) | split | (simp; split)))

@[simp] theorem State.modRec_hull (r : Nat) (f : Rec → Rec) (s : State) : (State.modRec r f s).hull = s.hull :=
  State.hull_of_keel (State.modRec_keel r f s)

@[simp] theorem State.addRec_keel (x : Rec) (s : State) : (State.addRec x s).keel = s.keel := by
  unfold State.addRec
  (repeat' (first | (simp; done) | split | (simp; split)))

@[simp] theorem State.addRec_hull (x : Rec) (s : State) : (State.addRec x s).hull = s.hull :=
  State.hull_of_keel (State.addRec_keel x s)

@[simp] theorem State.freeStage_keel (r : Nat) (s : State) : (State.freeStage r s).keel = s.keel := by
  unfold State.freeStage
  (repeat' (first | (simp; done) | split | (simp; split)))

@[simp] theorem State.freeStage_hull (r : Nat) (s : State) : (State.freeStage r s).hull = s.hull :=
  State.hull_of_keel (State.freeStage_keel r s)

@[simp] theorem State.useKey_keel (n : Nat) (g : BitVec 16) (s : State) : (State.useKey n g s).keel = s.keel := by
  have h : ∀ k : KeySlot, (k.modGen g (fun g => { g with users := g.users + 1 })).held = k.held := fun k => held_modGen k g _ (fun _ => ⟨rfl, rfl⟩)
  simp [State.useKey, State.keel, State.hull, map_modAt h]

@[simp] theorem State.useKey_hull (n : Nat) (g : BitVec 16) (s : State) : (State.useKey n g s).hull = s.hull := congrArg Keel.hull (State.useKey_keel n g s)

@[simp] theorem State.releaseKey_keel (n : Nat) (g : BitVec 16) (s : State) : (State.releaseKey n g s).keel = s.keel := by
  have h : ∀ k : KeySlot, ((k.modGen g (fun g => { g with users := g.users - 1 })).sweep).held = k.held := fun k => by
    rw [held_sweep]; exact held_modGen k g _ (fun _ => ⟨rfl, rfl⟩)
  simp [State.releaseKey, State.keel, State.hull, map_modAt h]

@[simp] theorem State.releaseKey_hull (n : Nat) (g : BitVec 16) (s : State) : (State.releaseKey n g s).hull = s.hull := congrArg Keel.hull (State.releaseKey_keel n g s)

@[simp] theorem State.releaseRecKey_keel (x : Rec) (s : State) : (State.releaseRecKey x s).keel = s.keel := by
  unfold State.releaseRecKey
  (repeat' (first | (simp; done) | split | (simp; split)))

@[simp] theorem State.releaseRecKey_hull (x : Rec) (s : State) : (State.releaseRecKey x s).hull = s.hull :=
  State.hull_of_keel (State.releaseRecKey_keel x s)

@[simp] theorem State.deferError_keel (r : Nat) (st : BitVec 16) (s : State) : (State.deferError r st s).keel = s.keel := by
  unfold State.deferError
  (repeat' (first | (simp; done) | split | (simp; split)))

@[simp] theorem State.deferError_hull (r : Nat) (st : BitVec 16) (s : State) : (State.deferError r st s).hull = s.hull :=
  State.hull_of_keel (State.deferError_keel r st s)

@[simp] theorem State.endRec_keel (r : Nat) (st : RecState) (s : State) : (State.endRec r st s).keel = s.keel := by
  unfold State.endRec
  (repeat' (first | (simp; done) | split | (simp; split)))

@[simp] theorem State.endRec_hull (r : Nat) (st : RecState) (s : State) : (State.endRec r st s).hull = s.hull :=
  State.hull_of_keel (State.endRec_keel r st s)

@[simp] theorem State.issueImage_keel (s : State) : (State.issueImage s).keel = s.keel := by
  unfold State.issueImage
  (repeat' (first | (simp; done) | split | (simp; split)))

@[simp] theorem State.issueImage_hull (s : State) : (State.issueImage s).hull = s.hull :=
  State.hull_of_keel (State.issueImage_keel s)

@[simp] theorem State.modImage_keel (f : LedgerImage → LedgerImage) (s : State) : (State.modImage f s).keel = s.keel := by
  unfold State.modImage
  (repeat' (first | (simp; done) | split | (simp; split)))

@[simp] theorem State.modImage_hull (f : LedgerImage → LedgerImage) (s : State) : (State.modImage f s).hull = s.hull :=
  State.hull_of_keel (State.modImage_keel f s)

@[simp] theorem State.refuseWrites_keel (s : State) : (State.refuseWrites s).keel = s.keel := by
  unfold State.refuseWrites
  (repeat' (first | (simp; done) | split | (simp; split)))

@[simp] theorem State.refuseWrites_hull (s : State) : (State.refuseWrites s).hull = s.hull :=
  State.hull_of_keel (State.refuseWrites_keel s)

@[simp] theorem State.beginSession_keel (s : State) : (State.beginSession s).keel = s.keel := by
  unfold State.beginSession
  (repeat' (first | (simp; done) | split | (simp; split)))

@[simp] theorem State.beginSession_hull (s : State) : (State.beginSession s).hull = s.hull :=
  State.hull_of_keel (State.beginSession_keel s)

@[simp] theorem State.blwCause_keel (bit chan : Nat) (s : State) : (State.blwCause bit chan s).keel = s.keel := by
  unfold State.blwCause
  (repeat' (first | (simp; done) | split | (simp; split)))

@[simp] theorem State.blwCause_hull (bit chan : Nat) (s : State) : (State.blwCause bit chan s).hull = s.hull :=
  State.hull_of_keel (State.blwCause_keel bit chan s)

@[simp] theorem State.secCause_keel (bit arg : Nat) (s : State) : (State.secCause bit arg s).keel = s.keel := by
  unfold State.secCause
  (repeat' (first | (simp; done) | split | (simp; split)))

@[simp] theorem State.secCause_hull (bit arg : Nat) (s : State) : (State.secCause bit arg s).hull = s.hull :=
  State.hull_of_keel (State.secCause_keel bit arg s)

@[simp] theorem State.checkLevel_keel (s : State) : (State.checkLevel s).keel = s.keel := by
  unfold State.checkLevel
  (repeat' (first | (simp; done) | split | (simp; split)))

@[simp] theorem State.checkLevel_hull (s : State) : (State.checkLevel s).hull = s.hull :=
  State.hull_of_keel (State.checkLevel_keel s)

@[simp] theorem State.dropSpeedRequest_keel (s : State) : (State.dropSpeedRequest s).keel = s.keel := by
  unfold State.dropSpeedRequest
  (repeat' (first | (simp; done) | split | (simp; split)))

@[simp] theorem State.dropSpeedRequest_hull (s : State) : (State.dropSpeedRequest s).hull = s.hull :=
  State.hull_of_keel (State.dropSpeedRequest_keel s)

@[simp] theorem State.flushAnvil_keel (s : State) : (State.flushAnvil s).keel = s.keel := by
  unfold State.flushAnvil
  (repeat' (first | (simp; done) | split | (simp; split)))

@[simp] theorem State.flushAnvil_hull (s : State) : (State.flushAnvil s).hull = s.hull :=
  State.hull_of_keel (State.flushAnvil_keel s)

@[simp] theorem State.clearForge_keel (s : State) : (State.clearForge s).keel = s.keel := by
  unfold State.clearForge
  (repeat' (first | (simp; done) | split | (simp; split)))

@[simp] theorem State.clearForge_hull (s : State) : (State.clearForge s).hull = s.hull :=
  State.hull_of_keel (State.clearForge_keel s)

@[simp] theorem State.abortWriting_keel (s : State) : (State.abortWriting s).keel = s.keel := by
  unfold State.abortWriting
  (repeat' (first | (simp; done) | split | (simp; split)))

@[simp] theorem State.abortWriting_hull (s : State) : (State.abortWriting s).hull = s.hull :=
  State.hull_of_keel (State.abortWriting_keel s)

@[simp] theorem discardAll_keel (a : List Rec) (b : Rec → BitVec 16) (s : State) : (discardAll a b s).keel = s.keel := by
  induction a generalizing b s <;> first | (simp [discardAll, *]; done) | (unfold discardAll; (repeat' (first | (simp [discardAll, *]; done) | split)))

@[simp] theorem discardAll_hull (a : List Rec) (b : Rec → BitVec 16) (s : State) : (discardAll a b s).hull = s.hull :=
  State.hull_of_keel (discardAll_keel a b s)

@[simp] theorem State.writeAbort_keel (st : Rec → BitVec 16) (s : State) : (State.writeAbort st s).keel = s.keel := by
  unfold State.writeAbort
  (repeat' (first | (simp; done) | split | (simp; split)))

@[simp] theorem State.writeAbort_hull (st : Rec → BitVec 16) (s : State) : (State.writeAbort st s).hull = s.hull :=
  State.hull_of_keel (State.writeAbort_keel st s)

@[simp] theorem State.writeAbortAll_keel (s : State) : (State.writeAbortAll s).keel = s.keel := by
  unfold State.writeAbortAll
  (repeat' (first | (simp; done) | split | (simp; split)))

@[simp] theorem State.writeAbortAll_hull (s : State) : (State.writeAbortAll s).hull = s.hull :=
  State.hull_of_keel (State.writeAbortAll_keel s)

@[simp] theorem State.endWriting_keel (s : State) : (State.endWriting s).keel = s.keel := by
  unfold State.endWriting
  (repeat' (first | (simp; done) | split | (simp; split)))

@[simp] theorem State.endWriting_hull (s : State) : (State.endWriting s).hull = s.hull :=
  State.hull_of_keel (State.endWriting_keel s)

@[simp] theorem State.launchWriting_keel (s : State) : (State.launchWriting s).keel = s.keel := by
  unfold State.launchWriting
  (repeat' (first | (simp; done) | split | (simp; split)))

@[simp] theorem State.launchWriting_hull (s : State) : (State.launchWriting s).hull = s.hull :=
  State.hull_of_keel (State.launchWriting_keel s)

@[simp] theorem State.startWriting_keel (s : State) : (State.startWriting s).keel = s.keel := by
  unfold State.startWriting
  (repeat' (first | (simp; done) | split | (simp; split)))

@[simp] theorem State.startWriting_hull (s : State) : (State.startWriting s).hull = s.hull :=
  State.hull_of_keel (State.startWriting_keel s)

@[simp] theorem releaseAll_keel (a : List Rec) (s : State) : (releaseAll a s).keel = s.keel := by
  induction a generalizing s <;> first | (simp [releaseAll, *]; done) | (unfold releaseAll; (repeat' (first | (simp [releaseAll, *]; done) | split)))

@[simp] theorem releaseAll_hull (a : List Rec) (s : State) : (releaseAll a s).hull = s.hull :=
  State.hull_of_keel (releaseAll_keel a s)

@[simp] theorem State.tryRelease_keel (s : State) : (State.tryRelease s).keel = s.keel := by
  unfold State.tryRelease
  (repeat' (first | (simp; done) | split | (simp; split)))

@[simp] theorem State.tryRelease_hull (s : State) : (State.tryRelease s).hull = s.hull :=
  State.hull_of_keel (State.tryRelease_keel s)

@[simp] theorem State.withIo_keel (io : Io) (s : State) : (State.withIo io s).keel = s.keel := by
  unfold State.withIo
  (repeat' (first | (simp; done) | split | (simp; split)))

@[simp] theorem State.withIo_hull (io : Io) (s : State) : (State.withIo io s).hull = s.hull :=
  State.hull_of_keel (State.withIo_keel io s)

@[simp] theorem State.withPairIo_keel (q : Nat) (io : Io) (s : State) : (State.withPairIo q io s).keel = s.keel := by
  unfold State.withPairIo
  (repeat' (first | (simp; done) | split | (simp; split)))

@[simp] theorem State.withPairIo_hull (q : Nat) (io : Io) (s : State) : (State.withPairIo q io s).hull = s.hull :=
  State.hull_of_keel (State.withPairIo_keel q io s)

@[simp] theorem State.endSelfTest_keel (outcome : Nat) (s : State) : (State.endSelfTest outcome s).keel = s.keel := by
  unfold State.endSelfTest
  (repeat' (first | (simp; done) | split | (simp; split)))

@[simp] theorem State.endSelfTest_hull (outcome : Nat) (s : State) : (State.endSelfTest outcome s).hull = s.hull :=
  State.hull_of_keel (State.endSelfTest_keel outcome s)

@[simp] theorem State.quarantine_keel (cls num : Nat) (s : State) : (State.quarantine cls num s).keel = s.keel := by
  unfold State.quarantine
  (repeat' (first | (simp; done) | split | (simp; split)))

@[simp] theorem State.quarantine_hull (cls num : Nat) (s : State) : (State.quarantine cls num s).hull = s.hull :=
  State.hull_of_keel (State.quarantine_keel cls num s)

@[simp] theorem State.hearthWake_keel (s : State) : (State.hearthWake s).keel = s.keel := by
  unfold State.hearthWake
  (repeat' (first | (simp; done) | split | (simp; split)))

@[simp] theorem State.hearthWake_hull (s : State) : (State.hearthWake s).hull = s.hull :=
  State.hull_of_keel (State.hearthWake_keel s)

@[simp] theorem State.hearthSleep_keel (s : State) : (State.hearthSleep s).keel = s.keel := by
  unfold State.hearthSleep
  (repeat' (first | (simp; done) | split | (simp; split)))

@[simp] theorem State.hearthSleep_hull (s : State) : (State.hearthSleep s).hull = s.hull :=
  State.hull_of_keel (State.hearthSleep_keel s)

@[simp] theorem State.endRoles_keel (s : State) : (State.endRoles s).keel = s.keel := by
  unfold State.endRoles
  (repeat' (first | (simp; done) | split | (simp; split)))

@[simp] theorem State.endRoles_hull (s : State) : (State.endRoles s).hull = s.hull :=
  State.hull_of_keel (State.endRoles_keel s)

@[simp] theorem State.reachPower_keel (t : BitVec 2) (s : State) : (State.reachPower t s).keel = s.keel := by
  unfold State.reachPower
  (repeat' (first | (simp; done) | split | (simp; split)))

@[simp] theorem State.reachPower_hull (t : BitVec 2) (s : State) : (State.reachPower t s).hull = s.hull :=
  State.hull_of_keel (State.reachPower_keel t s)

@[simp] theorem answerMb_keel (m : Option Nat) (st : BitVec 16) (detail : Nat) (s : State) : (answerMb m st detail s).keel = s.keel := by
  unfold answerMb
  (repeat' (first | (simp; done) | split | (simp; split)))

@[simp] theorem answerMb_hull (m : Option Nat) (st : BitVec 16) (detail : Nat) (s : State) : (answerMb m st detail s).hull = s.hull :=
  State.hull_of_keel (answerMb_keel m st detail s)

@[simp] theorem State.enterPower_keel (t : BitVec 2) (mb : Option Nat) (s : State) : (State.enterPower t mb s).keel = s.keel := by
  unfold State.enterPower
  (repeat' (first | (simp; done) | split | (simp; split)))

@[simp] theorem State.enterPower_hull (t : BitVec 2) (mb : Option Nat) (s : State) : (State.enterPower t mb s).hull = s.hull :=
  State.hull_of_keel (State.enterPower_keel t mb s)

@[simp] theorem answerP0_keel (a : List Nat) (s : State) : (answerP0 a s).keel = s.keel := by
  induction a generalizing s <;> first | (simp [answerP0, *]; done) | (unfold answerP0; (repeat' (first | (simp [answerP0, *]; done) | split)))

@[simp] theorem answerP0_hull (a : List Nat) (s : State) : (answerP0 a s).hull = s.hull :=
  State.hull_of_keel (answerP0_keel a s)

@[simp] theorem State.reachP0_keel (s : State) : (State.reachP0 s).keel = s.keel := by
  unfold State.reachP0
  (repeat' (first | (simp; done) | split | (simp; split)))

@[simp] theorem State.reachP0_hull (s : State) : (State.reachP0 s).hull = s.hull :=
  State.hull_of_keel (State.reachP0_keel s)

@[simp] theorem abandonSets_keel (a : List (BitVec 2 × Nat)) (s : State) : (abandonSets a s).keel = s.keel := by
  induction a generalizing s <;> first | (simp [abandonSets, *]; done) | (unfold abandonSets; (repeat' (first | (simp [abandonSets, *]; done) | split)))

@[simp] theorem abandonSets_hull (a : List (BitVec 2 × Nat)) (s : State) : (abandonSets a s).hull = s.hull :=
  State.hull_of_keel (abandonSets_keel a s)

@[simp] theorem State.wake_keel (s : State) : (State.wake s).keel = s.keel := by
  unfold State.wake
  (repeat' (first | (simp; done) | split | (simp; split)))

@[simp] theorem State.wake_hull (s : State) : (State.wake s).hull = s.hull :=
  State.hull_of_keel (State.wake_keel s)

@[simp] theorem State.modStats_keel (p : Nat) (f : ChanStats → ChanStats) (s : State) : (State.modStats p f s).keel = s.keel := by
  unfold State.modStats
  (repeat' (first | (simp; done) | split | (simp; split)))

@[simp] theorem State.modStats_hull (p : Nat) (f : ChanStats → ChanStats) (s : State) : (State.modStats p f s).hull = s.hull :=
  State.hull_of_keel (State.modStats_keel p f s)

@[simp] theorem State.lanesAcquire_keel (s : State) : (State.lanesAcquire s).keel = s.keel := by
  unfold State.lanesAcquire
  (repeat' (first | (simp; done) | split | (simp; split)))

@[simp] theorem State.lanesAcquire_hull (s : State) : (State.lanesAcquire s).hull = s.hull :=
  State.hull_of_keel (State.lanesAcquire_keel s)

@[simp] theorem State.feedLane_keel (p : Nat) (lost : Bool) (v : List Int) (s : State) : (State.feedLane p lost v s).keel = s.keel := by
  unfold State.feedLane
  (repeat' (first | (simp; done) | split | (simp; split)))

@[simp] theorem State.feedLane_hull (p : Nat) (lost : Bool) (v : List Int) (s : State) : (State.feedLane p lost v s).hull = s.hull :=
  State.hull_of_keel (State.feedLane_keel p lost v s)

@[simp] theorem feedLanes_keel (port : Nat) (lost : Bool) (flit : Bytes) (d : List Nat) (s : State) : (feedLanes port lost flit d s).keel = s.keel := by
  induction d generalizing port lost flit s <;> first | (simp [feedLanes, *]; done) | (unfold feedLanes; (repeat' (first | (simp [feedLanes, *]; done) | split)))

@[simp] theorem feedLanes_hull (port : Nat) (lost : Bool) (flit : Bytes) (d : List Nat) (s : State) : (feedLanes port lost flit d s).hull = s.hull :=
  State.hull_of_keel (feedLanes_keel port lost flit d s)

@[simp] theorem State.ringSamples_keel (ring super flit p : Nat) (v : List Int) (lost : Bool) (s : State) : (State.ringSamples ring super flit p v lost s).keel = s.keel := by
  unfold State.ringSamples
  (repeat' (first | (simp; done) | split | (simp; split)))

@[simp] theorem State.ringSamples_hull (ring super flit p : Nat) (v : List Int) (lost : Bool) (s : State) : (State.ringSamples ring super flit p v lost s).hull = s.hull :=
  State.hull_of_keel (State.ringSamples_keel ring super flit p v lost s)

@[simp] theorem State.ringFlit_keel (port super flit : Nat) (bytes : Bytes) (lost : Bool) (s : State) : (State.ringFlit port super flit bytes lost s).keel = s.keel := by
  unfold State.ringFlit
  (repeat' (first | (simp; done) | split | (simp; split)))

@[simp] theorem State.ringFlit_hull (port super flit : Nat) (bytes : Bytes) (lost : Bool) (s : State) : (State.ringFlit port super flit bytes lost s).hull = s.hull :=
  State.hull_of_keel (State.ringFlit_keel port super flit bytes lost s)

@[simp] theorem State.positionFor_keel (w : Nat) (mm : Int) (s : State) : (State.positionFor w mm s).keel = s.keel := by
  unfold State.positionFor
  (repeat' (first | (simp; done) | split | (simp; split)))

@[simp] theorem State.positionFor_hull (w : Nat) (mm : Int) (s : State) : (State.positionFor w mm s).hull = s.hull :=
  State.hull_of_keel (State.positionFor_keel w mm s)

@[simp] theorem State.clearReadAhead_keel (s : State) : (State.clearReadAhead s).keel = s.keel := by
  unfold State.clearReadAhead
  (repeat' (first | (simp; done) | split | (simp; split)))

@[simp] theorem State.clearReadAhead_hull (s : State) : (State.clearReadAhead s).hull = s.hull :=
  State.hull_of_keel (State.clearReadAhead_keel s)

@[simp] theorem State.startLocate_keel (job : LocateJob) (s : State) : (State.startLocate job s).keel = s.keel := by
  unfold State.startLocate
  (repeat' (first | (simp; done) | split | (simp; split)))

@[simp] theorem State.startLocate_hull (job : LocateJob) (s : State) : (State.startLocate job s).hull = s.hull :=
  State.hull_of_keel (State.startLocate_keel job s)

@[simp] theorem State.startSearch_keel (s : State) : (State.startSearch s).keel = s.keel := by
  unfold State.startSearch
  (repeat' (first | (simp; done) | split | (simp; split)))

@[simp] theorem State.startSearch_hull (s : State) : (State.startSearch s).hull = s.hull :=
  State.hull_of_keel (State.startSearch_keel s)

@[simp] theorem State.startEodCheck_keel (s : State) : (State.startEodCheck s).keel = s.keel := by
  unfold State.startEodCheck
  (repeat' (first | (simp; done) | split | (simp; split)))

@[simp] theorem State.startEodCheck_hull (s : State) : (State.startEodCheck s).hull = s.hull :=
  State.hull_of_keel (State.startEodCheck_keel s)

@[simp] theorem State.endRead_keel (j : ReadJob) (st : BitVec 16) (outcome : Nat) (s : State) : (State.endRead j st outcome s).keel = s.keel := by
  unfold State.endRead
  (repeat' (first | (simp; done) | split | (simp; split)))

@[simp] theorem State.endRead_hull (j : ReadJob) (st : BitVec 16) (outcome : Nat) (s : State) : (State.endRead j st outcome s).hull = s.hull :=
  State.hull_of_keel (State.endRead_keel j st outcome s)

@[simp] theorem State.endLadder_keel (s : State) : (State.endLadder s).keel = s.keel := by
  unfold State.endLadder
  (repeat' (first | (simp; done) | split | (simp; split)))

@[simp] theorem State.endLadder_hull (s : State) : (State.endLadder s).hull = s.hull :=
  State.hull_of_keel (State.endLadder_keel s)

@[simp] theorem State.endCmd_keel (q tag : Nat) (st : BitVec 16) (s : State) : (State.endCmd q tag st s).keel = s.keel := by
  unfold State.endCmd
  (repeat' (first | (simp; done) | split | (simp; split)))

@[simp] theorem State.endCmd_hull (q tag : Nat) (st : BitVec 16) (s : State) : (State.endCmd q tag st s).hull = s.hull :=
  State.hull_of_keel (State.endCmd_keel q tag st s)

@[simp] theorem State.endLocate_keel (st : BitVec 16) (b : Option RBillet) (s : State) : (State.endLocate st b s).keel = s.keel := by
  unfold State.endLocate
  (repeat' (first | (simp; done) | split | (simp; split)))

@[simp] theorem State.endLocate_hull (st : BitVec 16) (b : Option RBillet) (s : State) : (State.endLocate st b s).hull = s.hull :=
  State.hull_of_keel (State.endLocate_keel st b s)

@[simp] theorem State.advanceLocate_keel (s : State) : (State.advanceLocate s).keel = s.keel := by
  unfold State.advanceLocate
  (repeat' (first | (simp; done) | split | (simp; split)))

@[simp] theorem State.advanceLocate_hull (s : State) : (State.advanceLocate s).hull = s.hull :=
  State.hull_of_keel (State.advanceLocate_keel s)

@[simp] theorem State.streamOn_keel (s : State) : (State.streamOn s).keel = s.keel := by
  unfold State.streamOn
  (repeat' (first | (simp; done) | split | (simp; split)))

@[simp] theorem State.streamOn_hull (s : State) : (State.streamOn s).hull = s.hull :=
  State.hull_of_keel (State.streamOn_keel s)

@[simp] theorem pumpReadsN_keel (a : Nat) (s : State) : (pumpReadsN a s).keel = s.keel := by
  induction a generalizing s <;> first | (simp [pumpReadsN, *]; done) | (unfold pumpReadsN; (repeat' (first | (simp [pumpReadsN, *]; done) | split)))

@[simp] theorem pumpReadsN_hull (a : Nat) (s : State) : (pumpReadsN a s).hull = s.hull :=
  State.hull_of_keel (pumpReadsN_keel a s)

@[simp] theorem State.pumpReads_keel (s : State) : (State.pumpReads s).keel = s.keel := by
  unfold State.pumpReads
  (repeat' (first | (simp; done) | split | (simp; split)))

@[simp] theorem State.pumpReads_hull (s : State) : (State.pumpReads s).hull = s.hull :=
  State.hull_of_keel (State.pumpReads_keel s)

@[simp] theorem State.decideAbort_keel (c : Cmd) (s : State) : (State.decideAbort c s).keel = s.keel := by
  unfold State.decideAbort
  (repeat' (first | (simp; done) | split | (simp; split)))

@[simp] theorem State.decideAbort_hull (c : Cmd) (s : State) : (State.decideAbort c s).hull = s.hull :=
  State.hull_of_keel (State.decideAbort_keel c s)

@[simp] theorem State.joinCmd_keel (c : Cmd) (s : State) : (State.joinCmd c s).keel = s.keel := by
  unfold State.joinCmd
  (repeat' (first | (simp; done) | split | (simp; split)))

@[simp] theorem State.joinCmd_hull (c : Cmd) (s : State) : (State.joinCmd c s).hull = s.hull :=
  State.hull_of_keel (State.joinCmd_keel c s)

@[simp] theorem State.arrive_keel (q : Nat) (p : Pair) (bytes : Bytes) (sgl : List SglEntry) (sglOk : Bool) (s : State) : (State.arrive q p bytes sgl sglOk s).keel = s.keel := by
  unfold State.arrive
  (repeat' (first | (simp; done) | split | (simp; split)))

@[simp] theorem State.arrive_hull (q : Nat) (p : Pair) (bytes : Bytes) (sgl : List SglEntry) (sglOk : Bool) (s : State) : (State.arrive q p bytes sgl sglOk s).hull = s.hull :=
  State.hull_of_keel (State.arrive_keel q p bytes sgl sglOk s)

@[simp] theorem abortCmds_keel (st : BitVec 16) (b : List Cmd) (s : State) : (abortCmds st b s).keel = s.keel := by
  induction b generalizing st s <;> first | (simp [abortCmds, *]; done) | (unfold abortCmds; (repeat' (first | (simp [abortCmds, *]; done) | split)))

@[simp] theorem abortCmds_hull (st : BitVec 16) (b : List Cmd) (s : State) : (abortCmds st b s).hull = s.hull :=
  State.hull_of_keel (abortCmds_keel st b s)

@[simp] theorem abandonRecs_keel (a : List Rec) (s : State) : (abandonRecs a s).keel = s.keel := by
  induction a generalizing s <;> first | (simp [abandonRecs, *]; done) | (unfold abandonRecs; (repeat' (first | (simp [abandonRecs, *]; done) | split)))

@[simp] theorem abandonRecs_hull (a : List Rec) (s : State) : (abandonRecs a s).hull = s.hull :=
  State.hull_of_keel (abandonRecs_keel a s)

@[simp] theorem State.deletePair_keel (q : Nat) (s : State) : (State.deletePair q s).keel = s.keel := by
  unfold State.deletePair
  (repeat' (first | (simp; done) | split | (simp; split)))

@[simp] theorem State.deletePair_hull (q : Nat) (s : State) : (State.deletePair q s).hull = s.hull :=
  State.hull_of_keel (State.deletePair_keel q s)

@[simp] theorem recCmd_keel (op : Nat) (q : Fin 256) (tag : BitVec 16) (io : Io) (f : Cmd → State → State) (s : State) (h : ∀ p s, (f p s).keel = s.keel) : (recCmd op q tag io f s).keel = s.keel := by
  unfold recCmd
  (repeat' (first | (simp [h]; done) | split | (simp [h]; split)))

@[simp] theorem recCmd_hull (op : Nat) (q : Fin 256) (tag : BitVec 16) (io : Io) (f : Cmd → State → State) (s : State) (h : ∀ p s, (f p s).hull = s.hull) : (recCmd op q tag io f s).hull = s.hull := by
  unfold recCmd
  (repeat' (first | (simp [h]; done) | split | (simp [h]; split)))

@[simp] theorem Cmd.end_keel (c : Cmd) (st : BitVec 16) (res ext : Nat) (s : State) : (Cmd.end c st res ext s).keel = s.keel := by
  unfold Cmd.end
  (repeat' (first | (simp; done) | split | (simp; split)))

@[simp] theorem Cmd.end_hull (c : Cmd) (st : BitVec 16) (res ext : Nat) (s : State) : (Cmd.end c st res ext s).hull = s.hull :=
  State.hull_of_keel (Cmd.end_keel c st res ext s)

@[simp] theorem scatter_keel (a : List SglEntry) (b : Bytes) (s : State) : (scatter a b s).keel = s.keel := by
  induction a generalizing b s <;> first | (simp [scatter, *]; done) | (unfold scatter; (repeat' (first | (simp [scatter, *]; done) | split)))

@[simp] theorem scatter_hull (a : List SglEntry) (b : Bytes) (s : State) : (scatter a b s).hull = s.hull :=
  State.hull_of_keel (scatter_keel a b s)

@[simp] theorem Cmd.deliver_keel (c : Cmd) (b : Bytes) (s : State) : (Cmd.deliver c b s).keel = s.keel := by
  unfold Cmd.deliver
  (repeat' (first | (simp; done) | split | (simp; split)))

@[simp] theorem Cmd.deliver_hull (c : Cmd) (b : Bytes) (s : State) : (Cmd.deliver c b s).hull = s.hull :=
  State.hull_of_keel (Cmd.deliver_keel c b s)

@[simp] theorem State.takeNumber_keel (s : State) : (State.takeNumber s).keel = s.keel := by
  unfold State.takeNumber
  (repeat' (first | (simp; done) | split | (simp; split)))

@[simp] theorem State.takeNumber_hull (s : State) : (State.takeNumber s).hull = s.hull :=
  State.hull_of_keel (State.takeNumber_keel s)

@[simp] theorem State.seekEnd_keel (s : State) : (State.seekEnd s).keel = s.keel := by
  unfold State.seekEnd
  (repeat' (first | (simp; done) | split | (simp; split)))

@[simp] theorem State.seekEnd_hull (s : State) : (State.seekEnd s).hull = s.hull :=
  State.hull_of_keel (State.seekEnd_keel s)

@[simp] theorem openBody_keel (c : Cmd) (s : State) : (openBody c s).keel = s.keel := by
  unfold openBody
  (repeat' (first | (simp; done) | split | (simp; split)))

@[simp] theorem openBody_hull (c : Cmd) (s : State) : (openBody c s).hull = s.hull :=
  State.hull_of_keel (openBody_keel c s)

@[simp] theorem allocate_keel (r : Nat) (b : List Nat) (s : State) : (allocate r b s).keel = s.keel := by
  induction b generalizing r s <;> first | (simp [allocate, *]; done) | (unfold allocate; (repeat' (first | (simp [allocate, *]; done) | split)))

@[simp] theorem allocate_hull (r : Nat) (b : List Nat) (s : State) : (allocate r b s).hull = s.hull :=
  State.hull_of_keel (allocate_keel r b s)

@[simp] theorem State.uncorrectable_keel (a requester : Nat) (s : State) : (State.uncorrectable a requester s).keel = s.keel := by
  unfold State.uncorrectable
  (repeat' (first | (simp; done) | split | (simp; split)))

@[simp] theorem State.uncorrectable_hull (a requester : Nat) (s : State) : (State.uncorrectable a requester s).hull = s.hull :=
  State.hull_of_keel (State.uncorrectable_keel a requester s)

@[simp] theorem segReadBody_keel (io : Io) (c : Cmd) (s : State) : (segReadBody io c s).keel = s.keel := by
  unfold segReadBody
  (repeat' (first | (simp; done) | split | (simp; split)))

@[simp] theorem segReadBody_hull (io : Io) (c : Cmd) (s : State) : (segReadBody io c s).hull = s.hull :=
  State.hull_of_keel (segReadBody_keel io c s)

@[simp] theorem State.beginWriting_keel (s : State) : (State.beginWriting s).keel = s.keel := by
  unfold State.beginWriting
  (repeat' (first | (simp; done) | split | (simp; split)))

@[simp] theorem State.beginWriting_hull (s : State) : (State.beginWriting s).hull = s.hull :=
  State.hull_of_keel (State.beginWriting_keel s)

@[simp] theorem State.sealRec_keel (r : Nat) (s : State) : (State.sealRec r s).keel = s.keel := by
  unfold State.sealRec
  (repeat' (first | (simp; done) | split | (simp; split)))

@[simp] theorem State.sealRec_hull (r : Nat) (s : State) : (State.sealRec r s).hull = s.hull :=
  State.hull_of_keel (State.sealRec_keel r s)

@[simp] theorem sealBody_keel (c : Cmd) (s : State) : (sealBody c s).keel = s.keel := by
  unfold sealBody
  (repeat' (first | (simp; done) | split | (simp; split)))

@[simp] theorem sealBody_hull (c : Cmd) (s : State) : (sealBody c s).hull = s.hull :=
  State.hull_of_keel (sealBody_keel c s)

@[simp] theorem abandonBody_keel (c : Cmd) (s : State) : (abandonBody c s).keel = s.keel := by
  unfold abandonBody
  (repeat' (first | (simp; done) | split | (simp; split)))

@[simp] theorem abandonBody_hull (c : Cmd) (s : State) : (abandonBody c s).hull = s.hull :=
  State.hull_of_keel (abandonBody_keel c s)

@[simp] theorem markBody_keel (c : Cmd) (s : State) : (markBody c s).keel = s.keel := by
  unfold markBody
  (repeat' (first | (simp; done) | split | (simp; split)))

@[simp] theorem markBody_hull (c : Cmd) (s : State) : (markBody c s).hull = s.hull :=
  State.hull_of_keel (markBody_keel c s)

@[simp] theorem State.finishSync_keel (q tag : Nat) (m : Option Nat) (s : State) : (State.finishSync q tag m s).keel = s.keel := by
  unfold State.finishSync
  (repeat' (first | (simp; done) | split | (simp; split)))

@[simp] theorem State.finishSync_hull (q tag : Nat) (m : Option Nat) (s : State) : (State.finishSync q tag m s).hull = s.hull :=
  State.hull_of_keel (State.finishSync_keel q tag m s)

@[simp] theorem syncBody_keel (c : Cmd) (s : State) : (syncBody c s).keel = s.keel := by
  unfold syncBody
  (repeat' (first | (simp; done) | split | (simp; split)))

@[simp] theorem syncBody_hull (c : Cmd) (s : State) : (syncBody c s).hull = s.hull :=
  State.hull_of_keel (syncBody_keel c s)

@[simp] theorem State.issueSyncImage_keel (b : Nat) (s : State) : (State.issueSyncImage b s).keel = s.keel := by
  unfold State.issueSyncImage
  (repeat' (first | (simp; done) | split | (simp; split)))

@[simp] theorem State.issueSyncImage_hull (b : Nat) (s : State) : (State.issueSyncImage b s).hull = s.hull :=
  State.hull_of_keel (State.issueSyncImage_keel b s)

@[simp] theorem State.preemptRead_keel (s : State) : (State.preemptRead s).keel = s.keel := by
  unfold State.preemptRead
  (repeat' (first | (simp; done) | split | (simp; split)))

@[simp] theorem State.preemptRead_hull (s : State) : (State.preemptRead s).hull = s.hull :=
  State.hull_of_keel (State.preemptRead_keel s)

@[simp] theorem State.cancelStart_keel (s : State) : (State.cancelStart s).keel = s.keel := by
  unfold State.cancelStart
  (repeat' (first | (simp; done) | split | (simp; split)))

@[simp] theorem State.cancelStart_hull (s : State) : (State.cancelStart s).hull = s.hull :=
  State.hull_of_keel (State.cancelStart_keel s)

@[simp] theorem beginLocate_keel (c : Cmd) (s : State) : (beginLocate c s).keel = s.keel := by
  unfold beginLocate
  (repeat' (first | (simp; done) | split | (simp; split)))

@[simp] theorem beginLocate_hull (c : Cmd) (s : State) : (beginLocate c s).hull = s.hull :=
  State.hull_of_keel (beginLocate_keel c s)

@[simp] theorem State.unloadCart_keel (s : State) : (State.unloadCart s).keel = s.keel := by
  unfold State.unloadCart
  (repeat' (first | (simp; done) | split | (simp; split)))

@[simp] theorem State.unloadCart_hull (s : State) : (State.unloadCart s).hull = s.hull :=
  State.hull_of_keel (State.unloadCart_keel s)

@[simp] theorem State.pumpTape_keel (s : State) : (State.pumpTape s).keel = s.keel := by
  unfold State.pumpTape
  (repeat' (first | (simp; done) | split | (simp; split)))

@[simp] theorem State.pumpTape_hull (s : State) : (State.pumpTape s).hull = s.hull :=
  State.hull_of_keel (State.pumpTape_keel s)

@[simp] theorem locateBody_keel (c : Cmd) (s : State) : (locateBody c s).keel = s.keel := by
  unfold locateBody
  (repeat' (first | (simp; done) | split | (simp; split)))

@[simp] theorem locateBody_hull (c : Cmd) (s : State) : (locateBody c s).hull = s.hull :=
  State.hull_of_keel (locateBody_keel c s)

@[simp] theorem readBody_keel (c : Cmd) (s : State) : (readBody c s).keel = s.keel := by
  unfold readBody
  (repeat' (first | (simp; done) | split | (simp; split)))

@[simp] theorem readBody_hull (c : Cmd) (s : State) : (readBody c s).hull = s.hull :=
  State.hull_of_keel (readBody_keel c s)

@[simp] theorem queryBody_keel (io : Io) (c : Cmd) (s : State) : (queryBody io c s).keel = s.keel := by
  unfold queryBody
  (repeat' (first | (simp; done) | split | (simp; split)))

@[simp] theorem queryBody_hull (io : Io) (c : Cmd) (s : State) : (queryBody io c s).hull = s.hull :=
  State.hull_of_keel (queryBody_keel io c s)

@[simp] theorem abortBody_keel (c : Cmd) (s : State) : (abortBody c s).keel = s.keel := by
  unfold abortBody
  (repeat' (first | (simp; done) | split | (simp; split)))

@[simp] theorem abortBody_hull (c : Cmd) (s : State) : (abortBody c s).hull = s.hull :=
  State.hull_of_keel (abortBody_keel c s)

end Sys2Proof.Machine
end

