-- ==== Sys2Proof/Laws/KeelMail.lean ====
section
/-! SUPPORT. What the operations of mailboxes, units and the Hearth leave alone: keel and hull of the state. -/

set_option linter.unusedSimpArgs false

namespace Sys2Proof.Machine

open Sys2Proof

@[simp] theorem State.acceptGo_keel (op : Nat) (r : MbReq) (s : State) : (State.acceptGo op r s).keel = s.keel := by
  unfold State.acceptGo
  (repeat' (first | (simp; done) | split | (simp; split)))

@[simp] theorem State.acceptGo_hull (op : Nat) (r : MbReq) (s : State) : (State.acceptGo op r s).hull = s.hull :=
  State.hull_of_keel (State.acceptGo_keel op r s)

@[simp] theorem mbGo_keel (op : Nat) (r : MbReq) (serve : MbReq → State → State) (s : State) (h : ∀ p s, (serve p s).keel = s.keel) : (mbGo op r serve s).keel = s.keel := by
  unfold mbGo
  (repeat' (first | (simp [h]; done) | split | (simp [h]; split)))

@[simp] theorem mbGo_hull (op : Nat) (r : MbReq) (serve : MbReq → State → State) (s : State) (h : ∀ p s, (serve p s).hull = s.hull) : (mbGo op r serve s).hull = s.hull := by
  unfold mbGo
  (repeat' (first | (simp [h]; done) | split | (simp [h]; split)))

@[simp] theorem State.invalidOpen_keel (op check : Nat) (r : MbReq) (s : State) : (State.invalidOpen op check r s).keel = s.keel := by
  unfold State.invalidOpen
  (repeat' (first | (simp; done) | split | (simp; split)))

@[simp] theorem State.invalidOpen_hull (op check : Nat) (r : MbReq) (s : State) : (State.invalidOpen op check r s).hull = s.hull :=
  State.hull_of_keel (State.invalidOpen_keel op check r s)

@[simp] theorem State.refuse_keel (op : Nat) (st : BitVec 16) (r : MbReq) (s : State) : (State.refuse op st r s).keel = s.keel := by
  unfold State.refuse
  (repeat' (first | (simp; done) | split | (simp; split)))

@[simp] theorem State.refuse_hull (op : Nat) (st : BitVec 16) (r : MbReq) (s : State) : (State.refuse op st r s).hull = s.hull :=
  State.hull_of_keel (State.refuse_keel op st r s)

@[simp] theorem State.seqError_keel (r : MbReq) (detail : Nat) (s : State) : (State.seqError r detail s).keel = s.keel := by
  unfold State.seqError
  (repeat' (first | (simp; done) | split | (simp; split)))

@[simp] theorem State.seqError_hull (r : MbReq) (detail : Nat) (s : State) : (State.seqError r detail s).hull = s.hull :=
  State.hull_of_keel (State.seqError_keel r detail s)

@[simp] theorem mbChecks_keel (op : Nat) (sizeOk : Nat → Bytes → Bool) (resOk : Bytes → Bool) (role : Nat) (body : MbReq → State → State) (r : MbReq) (s : State) (h : ∀ p s, (body p s).keel = s.keel) : (mbChecks op sizeOk resOk role body r s).keel = s.keel := by
  unfold mbChecks
  (repeat' (first | (simp [h]; done) | split | (simp [h]; split)))

@[simp] theorem mbChecks_hull (op : Nat) (sizeOk : Nat → Bytes → Bool) (resOk : Bytes → Bool) (role : Nat) (body : MbReq → State → State) (r : MbReq) (s : State) (h : ∀ p s, (body p s).hull = s.hull) : (mbChecks op sizeOk resOk role body r s).hull = s.hull := by
  unfold mbChecks
  (repeat' (first | (simp [h]; done) | split | (simp [h]; split)))

@[simp] theorem summaryBody_keel (r : MbReq) (s : State) : (summaryBody r s).keel = s.keel := by
  unfold summaryBody
  (repeat' (first | (simp; done) | split | (simp; split)))

@[simp] theorem summaryBody_hull (r : MbReq) (s : State) : (summaryBody r s).hull = s.hull :=
  State.hull_of_keel (summaryBody_keel r s)

@[simp] theorem serveStateSummary_keel (a : MbReq) (s : State) : (serveStateSummary a s).keel = s.keel := by
  unfold serveStateSummary
  (repeat' (first | (simp; done) | split | (simp; split)))

@[simp] theorem serveStateSummary_hull (a : MbReq) (s : State) : (serveStateSummary a s).hull = s.hull :=
  State.hull_of_keel (serveStateSummary_keel a s)

@[simp] theorem State.marker_keel (s : State) : (State.marker s).keel = s.keel := by
  unfold State.marker
  (repeat' (first | (simp; done) | split | (simp; split)))

@[simp] theorem State.marker_hull (s : State) : (State.marker s).hull = s.hull :=
  State.hull_of_keel (State.marker_keel s)

@[simp] theorem paramGetBody_keel (r : MbReq) (s : State) : (paramGetBody r s).keel = s.keel := by
  unfold paramGetBody
  (repeat' (first | (simp; done) | split | (simp; split)))

@[simp] theorem paramGetBody_hull (r : MbReq) (s : State) : (paramGetBody r s).hull = s.hull :=
  State.hull_of_keel (paramGetBody_keel r s)

@[simp] theorem serveParamGet_keel (a : MbReq) (s : State) : (serveParamGet a s).keel = s.keel := by
  unfold serveParamGet
  (repeat' (first | (simp; done) | split | (simp; split)))

@[simp] theorem serveParamGet_hull (a : MbReq) (s : State) : (serveParamGet a s).hull = s.hull :=
  State.hull_of_keel (serveParamGet_keel a s)

@[simp] theorem State.acceptParam_hull (e : Nat × Int) (s : State) : (State.acceptParam e s).hull = s.hull := by
  unfold State.acceptParam
  (repeat' (first | (simp; done) | split | (simp; split)))

@[simp] theorem paramSetBody_hull (r : MbReq) (s : State) : (paramSetBody r s).hull = s.hull := by
  unfold paramSetBody
  (repeat' (first | (simp; done) | split | (simp; split)))

@[simp] theorem serveParamSet_hull (a : MbReq) (s : State) : (serveParamSet a s).hull = s.hull := by
  unfold serveParamSet
  (repeat' (first | (simp; done) | split | (simp; split)))

@[simp] theorem State.createPair_keel (p : Bytes) (s : State) : (State.createPair p s).keel = s.keel := by
  unfold State.createPair
  (repeat' (first | (simp; done) | split | (simp; split)))

@[simp] theorem State.createPair_hull (p : Bytes) (s : State) : (State.createPair p s).hull = s.hull :=
  State.hull_of_keel (State.createPair_keel p s)

@[simp] theorem qpCreateBody_keel (r : MbReq) (s : State) : (qpCreateBody r s).keel = s.keel := by
  unfold qpCreateBody
  (repeat' (first | (simp; done) | split | (simp; split)))

@[simp] theorem qpCreateBody_hull (r : MbReq) (s : State) : (qpCreateBody r s).hull = s.hull :=
  State.hull_of_keel (qpCreateBody_keel r s)

@[simp] theorem serveQpCreate_keel (a : MbReq) (s : State) : (serveQpCreate a s).keel = s.keel := by
  unfold serveQpCreate
  (repeat' (first | (simp; done) | split | (simp; split)))

@[simp] theorem serveQpCreate_hull (a : MbReq) (s : State) : (serveQpCreate a s).hull = s.hull :=
  State.hull_of_keel (serveQpCreate_keel a s)

@[simp] theorem qpDeleteBody_keel (r : MbReq) (s : State) : (qpDeleteBody r s).keel = s.keel := by
  unfold qpDeleteBody
  (repeat' (first | (simp; done) | split | (simp; split)))

@[simp] theorem qpDeleteBody_hull (r : MbReq) (s : State) : (qpDeleteBody r s).hull = s.hull :=
  State.hull_of_keel (qpDeleteBody_keel r s)

@[simp] theorem serveQpDelete_keel (a : MbReq) (s : State) : (serveQpDelete a s).keel = s.keel := by
  unfold serveQpDelete
  (repeat' (first | (simp; done) | split | (simp; split)))

@[simp] theorem serveQpDelete_hull (a : MbReq) (s : State) : (serveQpDelete a s).hull = s.hull :=
  State.hull_of_keel (serveQpDelete_keel a s)

@[simp] theorem State.loadCart_keel (m : LedgerImage) (b : Bool) (s : State) : (State.loadCart m b s).keel = s.keel := by
  unfold State.loadCart
  apply State.keel_upd <;> rfl

@[simp] theorem State.loadCart_hull (m : LedgerImage) (b : Bool) (s : State) : (State.loadCart m b s).hull = s.hull := State.hull_of_keel (State.loadCart_keel m b s)

@[simp] theorem finishLoad_keel (r : MbReq) (s : State) : (finishLoad r s).keel = s.keel := by
  unfold finishLoad
  (repeat' (first | (simp; done) | split | (simp; split)))

@[simp] theorem finishLoad_hull (r : MbReq) (s : State) : (finishLoad r s).hull = s.hull :=
  State.hull_of_keel (finishLoad_keel r s)

@[simp] theorem cartLoadBody_keel (r : MbReq) (s : State) : (cartLoadBody r s).keel = s.keel := by
  unfold cartLoadBody
  (repeat' (first | (simp; done) | split | (simp; split)))

@[simp] theorem cartLoadBody_hull (r : MbReq) (s : State) : (cartLoadBody r s).hull = s.hull :=
  State.hull_of_keel (cartLoadBody_keel r s)

@[simp] theorem serveCartLoad_keel (a : MbReq) (s : State) : (serveCartLoad a s).keel = s.keel := by
  unfold serveCartLoad
  (repeat' (first | (simp; done) | split | (simp; split)))

@[simp] theorem serveCartLoad_hull (a : MbReq) (s : State) : (serveCartLoad a s).hull = s.hull :=
  State.hull_of_keel (serveCartLoad_keel a s)

@[simp] theorem cartUnloadBody_keel (r : MbReq) (s : State) : (cartUnloadBody r s).keel = s.keel := by
  unfold cartUnloadBody
  (repeat' (first | (simp; done) | split | (simp; split)))

@[simp] theorem cartUnloadBody_hull (r : MbReq) (s : State) : (cartUnloadBody r s).hull = s.hull :=
  State.hull_of_keel (cartUnloadBody_keel r s)

@[simp] theorem serveCartUnload_keel (a : MbReq) (s : State) : (serveCartUnload a s).keel = s.keel := by
  unfold serveCartUnload
  (repeat' (first | (simp; done) | split | (simp; split)))

@[simp] theorem serveCartUnload_hull (a : MbReq) (s : State) : (serveCartUnload a s).hull = s.hull :=
  State.hull_of_keel (serveCartUnload_keel a s)

@[simp] theorem ledgerGetBody_keel (r : MbReq) (s : State) : (ledgerGetBody r s).keel = s.keel := by
  unfold ledgerGetBody
  (repeat' (first | (simp; done) | split | (simp; split)))

@[simp] theorem ledgerGetBody_hull (r : MbReq) (s : State) : (ledgerGetBody r s).hull = s.hull :=
  State.hull_of_keel (ledgerGetBody_keel r s)

@[simp] theorem serveLedgerGet_keel (a : MbReq) (s : State) : (serveLedgerGet a s).keel = s.keel := by
  unfold serveLedgerGet
  (repeat' (first | (simp; done) | split | (simp; split)))

@[simp] theorem serveLedgerGet_hull (a : MbReq) (s : State) : (serveLedgerGet a s).hull = s.hull :=
  State.hull_of_keel (serveLedgerGet_keel a s)

@[simp] theorem ledgerStoredBody_keel (r : MbReq) (s : State) : (ledgerStoredBody r s).keel = s.keel := by
  unfold ledgerStoredBody
  (repeat' (first | (simp; done) | split | (simp; split)))

@[simp] theorem ledgerStoredBody_hull (r : MbReq) (s : State) : (ledgerStoredBody r s).hull = s.hull :=
  State.hull_of_keel (ledgerStoredBody_keel r s)

@[simp] theorem serveLedgerStored_keel (a : MbReq) (s : State) : (serveLedgerStored a s).keel = s.keel := by
  unfold serveLedgerStored
  (repeat' (first | (simp; done) | split | (simp; split)))

@[simp] theorem serveLedgerStored_hull (a : MbReq) (s : State) : (serveLedgerStored a s).hull = s.hull :=
  State.hull_of_keel (serveLedgerStored_keel a s)

@[simp] theorem eodSearchBody_keel (r : MbReq) (s : State) : (eodSearchBody r s).keel = s.keel := by
  unfold eodSearchBody
  (repeat' (first | (simp; done) | split | (simp; split)))

@[simp] theorem eodSearchBody_hull (r : MbReq) (s : State) : (eodSearchBody r s).hull = s.hull :=
  State.hull_of_keel (eodSearchBody_keel r s)

@[simp] theorem serveEodSearch_keel (a : MbReq) (s : State) : (serveEodSearch a s).keel = s.keel := by
  unfold serveEodSearch
  (repeat' (first | (simp; done) | split | (simp; split)))

@[simp] theorem serveEodSearch_hull (a : MbReq) (s : State) : (serveEodSearch a s).hull = s.hull :=
  State.hull_of_keel (serveEodSearch_keel a s)

@[simp] theorem State.retireLane_keel (p : Nat) (s : State) : (State.retireLane p s).keel = s.keel := by
  unfold State.retireLane
  (repeat' (first | (simp; done) | split | (simp; split)))

@[simp] theorem State.retireLane_hull (p : Nat) (s : State) : (State.retireLane p s).hull = s.hull :=
  State.hull_of_keel (State.retireLane_keel p s)

@[simp] theorem State.sendFault_keel (s : State) : (State.sendFault s).keel = s.keel := by
  unfold State.sendFault
  (repeat' (first | (simp; done) | split | (simp; split)))

@[simp] theorem State.sendFault_hull (s : State) : (State.sendFault s).hull = s.hull :=
  State.hull_of_keel (State.sendFault_keel s)

@[simp] theorem State.quarantineUnit_keel (cls num : Nat) (s : State) : (State.quarantineUnit cls num s).keel = s.keel := by
  unfold State.quarantineUnit
  (repeat' (first | (simp; done) | split | (simp; split)))

@[simp] theorem State.quarantineUnit_hull (cls num : Nat) (s : State) : (State.quarantineUnit cls num s).hull = s.hull :=
  State.hull_of_keel (State.quarantineUnit_keel cls num s)

@[simp] theorem State.returnUnit_keel (cls num : Nat) (s : State) : (State.returnUnit cls num s).keel = s.keel := by
  unfold State.returnUnit
  (repeat' (first | (simp; done) | split | (simp; split)))

@[simp] theorem State.returnUnit_hull (cls num : Nat) (s : State) : (State.returnUnit cls num s).hull = s.hull :=
  State.hull_of_keel (State.returnUnit_keel cls num s)

@[simp] theorem State.encoderEvent_keel (port : Nat) (s : State) : (State.encoderEvent port s).keel = s.keel := by
  unfold State.encoderEvent
  (repeat' (first | (simp; done) | split | (simp; split)))

@[simp] theorem State.encoderEvent_hull (port : Nat) (s : State) : (State.encoderEvent port s).hull = s.hull :=
  State.hull_of_keel (State.encoderEvent_keel port s)

@[simp] theorem State.streamingFault_keel (s : State) : (State.streamingFault s).keel = s.keel := by
  unfold State.streamingFault
  (repeat' (first | (simp; done) | split | (simp; split)))

@[simp] theorem State.streamingFault_hull (s : State) : (State.streamingFault s).hull = s.hull :=
  State.hull_of_keel (State.streamingFault_keel s)

@[simp] theorem testStartBody_keel (r : MbReq) (s : State) : (testStartBody r s).keel = s.keel := by
  unfold testStartBody
  (repeat' (first | (simp; done) | split | (simp; split)))

@[simp] theorem testStartBody_hull (r : MbReq) (s : State) : (testStartBody r s).hull = s.hull :=
  State.hull_of_keel (testStartBody_keel r s)

@[simp] theorem serveSelftestStart_keel (a : MbReq) (s : State) : (serveSelftestStart a s).keel = s.keel := by
  unfold serveSelftestStart
  (repeat' (first | (simp; done) | split | (simp; split)))

@[simp] theorem serveSelftestStart_hull (a : MbReq) (s : State) : (serveSelftestStart a s).hull = s.hull :=
  State.hull_of_keel (serveSelftestStart_keel a s)

@[simp] theorem testAbortBody_keel (r : MbReq) (s : State) : (testAbortBody r s).keel = s.keel := by
  unfold testAbortBody
  (repeat' (first | (simp; done) | split | (simp; split)))

@[simp] theorem testAbortBody_hull (r : MbReq) (s : State) : (testAbortBody r s).hull = s.hull :=
  State.hull_of_keel (testAbortBody_keel r s)

@[simp] theorem serveSelftestAbort_keel (a : MbReq) (s : State) : (serveSelftestAbort a s).keel = s.keel := by
  unfold serveSelftestAbort
  (repeat' (first | (simp; done) | split | (simp; split)))

@[simp] theorem serveSelftestAbort_hull (a : MbReq) (s : State) : (serveSelftestAbort a s).hull = s.hull :=
  State.hull_of_keel (serveSelftestAbort_keel a s)

@[simp] theorem testResultBody_keel (r : MbReq) (s : State) : (testResultBody r s).keel = s.keel := by
  unfold testResultBody
  (repeat' (first | (simp; done) | split | (simp; split)))

@[simp] theorem testResultBody_hull (r : MbReq) (s : State) : (testResultBody r s).hull = s.hull :=
  State.hull_of_keel (testResultBody_keel r s)

@[simp] theorem serveSelftestResult_keel (a : MbReq) (s : State) : (serveSelftestResult a s).keel = s.keel := by
  unfold serveSelftestResult
  (repeat' (first | (simp; done) | split | (simp; split)))

@[simp] theorem serveSelftestResult_hull (a : MbReq) (s : State) : (serveSelftestResult a s).hull = s.hull :=
  State.hull_of_keel (serveSelftestResult_keel a s)

@[simp] theorem failUnits_keel (a : List (Nat × Nat)) (s : State) : (failUnits a s).keel = s.keel := by
  induction a generalizing s <;> first | (simp [failUnits, *]; done) | (unfold failUnits; (repeat' (first | (simp [failUnits, *]; done) | split)))

@[simp] theorem failUnits_hull (a : List (Nat × Nat)) (s : State) : (failUnits a s).hull = s.hull :=
  State.hull_of_keel (failUnits_keel a s)

@[simp] theorem State.bistClass_keel (cls : Nat) (fails : Bool) (s : State) : (State.bistClass cls fails s).keel = s.keel := by
  unfold State.bistClass
  (repeat' (first | (simp; done) | split | (simp; split)))

@[simp] theorem State.bistClass_hull (cls : Nat) (fails : Bool) (s : State) : (State.bistClass cls fails s).hull = s.hull :=
  State.hull_of_keel (State.bistClass_keel cls fails s)

@[simp] theorem State.modChan_keel (c : Nat) (f : HChan → HChan) (s : State) : (State.modChan c f s).keel = s.keel := by
  unfold State.modChan
  (repeat' (first | (simp; done) | split | (simp; split)))

@[simp] theorem State.modChan_hull (c : Nat) (f : HChan → HChan) (s : State) : (State.modChan c f s).hull = s.hull :=
  State.hull_of_keel (State.modChan_keel c f s)

@[simp] theorem State.takeTokens_keel (req : Nat) (s : State) : (State.takeTokens req s).keel = s.keel := by
  unfold State.takeTokens
  (repeat' (first | (simp; done) | split | (simp; split)))

@[simp] theorem State.takeTokens_hull (req : Nat) (s : State) : (State.takeTokens req s).hull = s.hull :=
  State.hull_of_keel (State.takeTokens_keel req s)

@[simp] theorem loseOpen_keel (a : List Rec) (s : State) : (loseOpen a s).keel = s.keel := by
  induction a generalizing s <;> first | (simp [loseOpen, *]; done) | (unfold loseOpen; (repeat' (first | (simp [loseOpen, *]; done) | split)))

@[simp] theorem loseOpen_hull (a : List Rec) (s : State) : (loseOpen a s).hull = s.hull :=
  State.hull_of_keel (loseOpen_keel a s)

@[simp] theorem State.bufferLoss_keel (lost : Rec → Bool) (s : State) : (State.bufferLoss lost s).keel = s.keel := by
  unfold State.bufferLoss
  (repeat' (first | (simp; done) | split | (simp; split)))

@[simp] theorem State.bufferLoss_hull (lost : Rec → Bool) (s : State) : (State.bufferLoss lost s).hull = s.hull :=
  State.hull_of_keel (State.bufferLoss_keel lost s)

@[simp] theorem State.loseEntries_keel (lost : JnlEntry → Bool) (s : State) : (State.loseEntries lost s).keel = s.keel := by
  unfold State.loseEntries
  (repeat' (first | (simp; done) | split | (simp; split)))

@[simp] theorem State.loseEntries_hull (lost : JnlEntry → Bool) (s : State) : (State.loseEntries lost s).hull = s.hull :=
  State.hull_of_keel (State.loseEntries_keel lost s)

@[simp] theorem State.markBad_keel (a : Nat) (s : State) : (State.markBad a s).keel = s.keel := by
  unfold State.markBad
  (repeat' (first | (simp; done) | split | (simp; split)))

@[simp] theorem State.markBad_hull (a : Nat) (s : State) : (State.markBad a s).hull = s.hull :=
  State.hull_of_keel (State.markBad_keel a s)

@[simp] theorem State.corrected_keel (a chan device req : Nat) (d : DramAddr) (rewrite : Bool) (s : State) : (State.corrected a chan device req d rewrite s).keel = s.keel := by
  unfold State.corrected
  (repeat' (first | (simp; done) | split | (simp; split)))

@[simp] theorem State.corrected_hull (a chan device req : Nat) (d : DramAddr) (rewrite : Bool) (s : State) : (State.corrected a chan device req d rewrite s).hull = s.hull :=
  State.hull_of_keel (State.corrected_keel a chan device req d rewrite s)

@[simp] theorem State.failChannel_keel (c : Nat) (s : State) : (State.failChannel c s).keel = s.keel := by
  unfold State.failChannel
  (repeat' (first | (simp; done) | split | (simp; split)))

@[simp] theorem State.failChannel_hull (c : Nat) (s : State) : (State.failChannel c s).hull = s.hull :=
  State.hull_of_keel (State.failChannel_keel c s)

@[simp] theorem scrubBody_keel (r : MbReq) (s : State) : (scrubBody r s).keel = s.keel := by
  unfold scrubBody
  (repeat' (first | (simp; done) | split | (simp; split)))

@[simp] theorem scrubBody_hull (r : MbReq) (s : State) : (scrubBody r s).hull = s.hull :=
  State.hull_of_keel (scrubBody_keel r s)

@[simp] theorem serveScrub_keel (a : MbReq) (s : State) : (serveScrub a s).keel = s.keel := by
  unfold serveScrub
  (repeat' (first | (simp; done) | split | (simp; split)))

@[simp] theorem serveScrub_hull (a : MbReq) (s : State) : (serveScrub a s).hull = s.hull :=
  State.hull_of_keel (serveScrub_keel a s)

@[simp] theorem scaleReadBody_keel (r : MbReq) (s : State) : (scaleReadBody r s).keel = s.keel := by
  unfold scaleReadBody
  (repeat' (first | (simp; done) | split | (simp; split)))

@[simp] theorem scaleReadBody_hull (r : MbReq) (s : State) : (scaleReadBody r s).hull = s.hull :=
  State.hull_of_keel (scaleReadBody_keel r s)

@[simp] theorem serveScaleLogRead_keel (a : MbReq) (s : State) : (serveScaleLogRead a s).keel = s.keel := by
  unfold serveScaleLogRead
  (repeat' (first | (simp; done) | split | (simp; split)))

@[simp] theorem serveScaleLogRead_hull (a : MbReq) (s : State) : (serveScaleLogRead a s).hull = s.hull :=
  State.hull_of_keel (serveScaleLogRead_keel a s)

@[simp] theorem hearthStatusBody_keel (r : MbReq) (s : State) : (hearthStatusBody r s).keel = s.keel := by
  unfold hearthStatusBody
  (repeat' (first | (simp; done) | split | (simp; split)))

@[simp] theorem hearthStatusBody_hull (r : MbReq) (s : State) : (hearthStatusBody r s).hull = s.hull :=
  State.hull_of_keel (hearthStatusBody_keel r s)

@[simp] theorem serveHearthChannelStatus_keel (a : MbReq) (s : State) : (serveHearthChannelStatus a s).keel = s.keel := by
  unfold serveHearthChannelStatus
  (repeat' (first | (simp; done) | split | (simp; split)))

@[simp] theorem serveHearthChannelStatus_hull (a : MbReq) (s : State) : (serveHearthChannelStatus a s).hull = s.hull :=
  State.hull_of_keel (serveHearthChannelStatus_keel a s)

end Sys2Proof.Machine
end

