-- ==== Sys2Proof/Laws/KeelWrite.lean ====
section
/-! SUPPORT. What the operations of the write path leave alone: keel and hull of the state. -/

set_option linter.unusedSimpArgs false

namespace Sys2Proof.Machine

open Sys2Proof

@[simp] theorem State.modCu_keel (r i : Nat) (f : CuForm → CuForm) (s : State) : (State.modCu r i f s).keel = s.keel := by
  unfold State.modCu
  (repeat' (first | (simp; done) | split | (simp; split)))

@[simp] theorem State.modCu_hull (r i : Nat) (f : CuForm → CuForm) (s : State) : (State.modCu r i f s).hull = s.hull :=
  State.hull_of_keel (State.modCu_keel r i f s)

@[simp] theorem State.sendDigest_keel (x : Rec) (i : Nat) (e : Bytes) (ok : Bool) (s : State) : (State.sendDigest x i e ok s).keel = s.keel := by
  unfold State.sendDigest
  (repeat' (first | (simp; done) | split | (simp; split)))

@[simp] theorem State.sendDigest_hull (x : Rec) (i : Nat) (e : Bytes) (ok : Bool) (s : State) : (State.sendDigest x i e ok s).hull = s.hull :=
  State.hull_of_keel (State.sendDigest_keel x i e ok s)

@[simp] theorem State.takeOutput_keel (x : Rec) (i engine : Nat) (raw : Bytes) (io : Io) (s : State) : (State.takeOutput x i engine raw io s).keel = s.keel := by
  unfold State.takeOutput
  (repeat' (first | (simp; done) | split | (simp; split)))

@[simp] theorem State.takeOutput_hull (x : Rec) (i engine : Nat) (raw : Bytes) (io : Io) (s : State) : (State.takeOutput x i engine raw io s).hull = s.hull :=
  State.hull_of_keel (State.takeOutput_keel x i engine raw io s)

@[simp] theorem State.engineFails_keel (x : Rec) (engine : Nat) (s : State) : (State.engineFails x engine s).keel = s.keel := by
  unfold State.engineFails
  (repeat' (first | (simp; done) | split | (simp; split)))

@[simp] theorem State.engineFails_hull (x : Rec) (engine : Nat) (s : State) : (State.engineFails x engine s).hull = s.hull :=
  State.hull_of_keel (State.engineFails_keel x engine s)

@[simp] theorem State.lockstepFault_keel (pair : Nat) (s : State) : (State.lockstepFault pair s).keel = s.keel := by
  unfold State.lockstepFault
  (repeat' (first | (simp; done) | split | (simp; split)))

@[simp] theorem State.lockstepFault_hull (pair : Nat) (s : State) : (State.lockstepFault pair s).hull = s.hull :=
  State.hull_of_keel (State.lockstepFault_keel pair s)

@[simp] theorem State.heatFormed_keel (parity : Bool) (s : State) : (State.heatFormed parity s).keel = s.keel := by
  unfold State.heatFormed
  (repeat' (first | (simp; done) | split | (simp; split)))

@[simp] theorem State.heatFormed_hull (parity : Bool) (s : State) : (State.heatFormed parity s).hull = s.hull :=
  State.hull_of_keel (State.heatFormed_keel parity s)

@[simp] theorem State.addData_keel (g : Nat) (x : Packed) (s : State) : (State.addData g x s).keel = s.keel := by
  unfold State.addData
  (repeat' (first | (simp; done) | split | (simp; split)))

@[simp] theorem State.addData_hull (g : Nat) (x : Packed) (s : State) : (State.addData g x s).hull = s.hull :=
  State.hull_of_keel (State.addData_keel g x s)

@[simp] theorem addDataAll_keel (a : List Packed) (b : Nat) (s : State) : (addDataAll a b s).keel = s.keel := by
  induction a generalizing b s <;> first | (simp [addDataAll, *]; done) | (unfold addDataAll; (repeat' (first | (simp [addDataAll, *]; done) | split)))

@[simp] theorem addDataAll_hull (a : List Packed) (b : Nat) (s : State) : (addDataAll a b s).hull = s.hull :=
  State.hull_of_keel (addDataAll_keel a b s)

@[simp] theorem State.closeTrain_keel (c : Nat) (s : State) : (State.closeTrain c s).keel = s.keel := by
  unfold State.closeTrain
  (repeat' (first | (simp; done) | split | (simp; split)))

@[simp] theorem State.closeTrain_hull (c : Nat) (s : State) : (State.closeTrain c s).hull = s.hull :=
  State.hull_of_keel (State.closeTrain_keel c s)

@[simp] theorem State.formParity_keel (c : Nat) (s : State) : (State.formParity c s).keel = s.keel := by
  unfold State.formParity
  (repeat' (first | (simp; done) | split | (simp; split)))

@[simp] theorem State.formParity_hull (c : Nat) (s : State) : (State.formParity c s).hull = s.hull :=
  State.hull_of_keel (State.formParity_keel c s)

@[simp] theorem State.noteClose_keel (s : State) : (State.noteClose s).keel = s.keel := by
  unfold State.noteClose
  (repeat' (first | (simp; done) | split | (simp; split)))

@[simp] theorem State.noteClose_hull (s : State) : (State.noteClose s).hull = s.hull :=
  State.hull_of_keel (State.noteClose_keel s)

@[simp] theorem State.formData_keel (s : State) : (State.formData s).keel = s.keel := by
  unfold State.formData
  (repeat' (first | (simp; done) | split | (simp; split)))

@[simp] theorem State.formData_hull (s : State) : (State.formData s).hull = s.hull :=
  State.hull_of_keel (State.formData_keel s)

@[simp] theorem State.formNext_keel (s : State) : (State.formNext s).keel = s.keel := by
  unfold State.formNext
  (repeat' (first | (simp; done) | split | (simp; split)))

@[simp] theorem State.formNext_hull (s : State) : (State.formNext s).hull = s.hull :=
  State.hull_of_keel (State.formNext_keel s)

@[simp] theorem compStatsBody_keel (r : MbReq) (s : State) : (compStatsBody r s).keel = s.keel := by
  unfold compStatsBody
  (repeat' (first | (simp; done) | split | (simp; split)))

@[simp] theorem compStatsBody_hull (r : MbReq) (s : State) : (compStatsBody r s).hull = s.hull :=
  State.hull_of_keel (compStatsBody_keel r s)

@[simp] theorem serveCompressStats_keel (a : MbReq) (s : State) : (serveCompressStats a s).keel = s.keel := by
  unfold serveCompressStats
  (repeat' (first | (simp; done) | split | (simp; split)))

@[simp] theorem serveCompressStats_hull (a : MbReq) (s : State) : (serveCompressStats a s).hull = s.hull :=
  State.hull_of_keel (serveCompressStats_keel a s)

@[simp] theorem State.measure_keel (p : Nat) (mark known : List Bool) (qs : List (Int × Bool)) (flips : Nat) (slag : Bool) (s : State) : (State.measure p mark known qs flips slag s).keel = s.keel := by
  unfold State.measure
  (repeat' (first | (simp; done) | split | (simp; split)))

@[simp] theorem State.measure_hull (p : Nat) (mark known : List Bool) (qs : List (Int × Bool)) (flips : Nat) (slag : Bool) (s : State) : (State.measure p mark known qs flips slag s).hull = s.hull :=
  State.hull_of_keel (State.measure_keel p mark known qs flips slag s)

@[simp] theorem State.closeSegment_keel (p : Nat) (s : State) : (State.closeSegment p s).keel = s.keel := by
  unfold State.closeSegment
  (repeat' (first | (simp; done) | split | (simp; split)))

@[simp] theorem State.closeSegment_hull (p : Nat) (s : State) : (State.closeSegment p s).hull = s.hull :=
  State.hull_of_keel (State.closeSegment_keel p s)

@[simp] theorem closeSegments_keel (a : List Nat) (s : State) : (closeSegments a s).keel = s.keel := by
  induction a generalizing s <;> first | (simp [closeSegments, *]; done) | (unfold closeSegments; (repeat' (first | (simp [closeSegments, *]; done) | split)))

@[simp] theorem closeSegments_hull (a : List Nat) (s : State) : (closeSegments a s).hull = s.hull :=
  State.hull_of_keel (closeSegments_keel a s)

@[simp] theorem State.noteSummary_keel (w n : Nat) (s : State) : (State.noteSummary w n s).keel = s.keel := by
  unfold State.noteSummary
  (repeat' (first | (simp; done) | split | (simp; split)))

@[simp] theorem State.noteSummary_hull (w n : Nat) (s : State) : (State.noteSummary w n s).hull = s.hull :=
  State.hull_of_keel (State.noteSummary_keel w n s)

@[simp] theorem State.measureVerify_keel (p : Nat) (patched : Bytes) (r : VerifyResult) (s : State) : (State.measureVerify p patched r s).keel = s.keel := by
  unfold State.measureVerify
  (repeat' (first | (simp; done) | split | (simp; split)))

@[simp] theorem State.measureVerify_hull (p : Nat) (patched : Bytes) (r : VerifyResult) (s : State) : (State.measureVerify p patched r s).hull = s.hull :=
  State.hull_of_keel (State.measureVerify_keel p patched r s)

@[simp] theorem State.freeCells_keel (n : Nat) (s : State) : (State.freeCells n s).keel = s.keel := by
  unfold State.freeCells
  (repeat' (first | (simp; done) | split | (simp; split)))

@[simp] theorem State.freeCells_hull (n : Nat) (s : State) : (State.freeCells n s).hull = s.hull :=
  State.hull_of_keel (State.freeCells_keel n s)

@[simp] theorem State.countPoison_keel (chan : Nat) (s : State) : (State.countPoison chan s).keel = s.keel := by
  unfold State.countPoison
  (repeat' (first | (simp; done) | split | (simp; split)))

@[simp] theorem State.countPoison_hull (chan : Nat) (s : State) : (State.countPoison chan s).hull = s.hull :=
  State.hull_of_keel (State.countPoison_keel chan s)

@[simp] theorem State.countSlag_keel (n : Nat) (s : State) : (State.countSlag n s).keel = s.keel := by
  unfold State.countSlag
  (repeat' (first | (simp; done) | split | (simp; split)))

@[simp] theorem State.countSlag_hull (n : Nat) (s : State) : (State.countSlag n s).hull = s.hull :=
  State.hull_of_keel (State.countSlag_keel n s)

@[simp] theorem State.countFrame_keel (attempt : Nat) (s : State) : (State.countFrame attempt s).keel = s.keel := by
  unfold State.countFrame
  (repeat' (first | (simp; done) | split | (simp; split)))

@[simp] theorem State.countFrame_hull (attempt : Nat) (s : State) : (State.countFrame attempt s).hull = s.hull :=
  State.hull_of_keel (State.countFrame_keel attempt s)

@[simp] theorem State.toReform_keel (chan : Nat) (x : Frame) (s : State) : (State.toReform chan x s).keel = s.keel := by
  unfold State.toReform
  (repeat' (first | (simp; done) | split | (simp; split)))

@[simp] theorem State.toReform_hull (chan : Nat) (x : Frame) (s : State) : (State.toReform chan x s).hull = s.hull :=
  State.hull_of_keel (State.toReform_keel chan x s)

@[simp] theorem State.drop_keel (ports : List Nat) (s : State) : (State.drop ports s).keel = s.keel := by
  unfold State.drop
  (repeat' (first | (simp; done) | split | (simp; split)))

@[simp] theorem State.drop_hull (ports : List Nat) (s : State) : (State.drop ports s).hull = s.hull :=
  State.hull_of_keel (State.drop_keel ports s)

@[simp] theorem State.retireLogical_keel (l : Nat) (s : State) : (State.retireLogical l s).keel = s.keel := by
  unfold State.retireLogical
  (repeat' (first | (simp; done) | split | (simp; split)))

@[simp] theorem State.retireLogical_hull (l : Nat) (s : State) : (State.retireLogical l s).hull = s.hull :=
  State.hull_of_keel (State.retireLogical_keel l s)

@[simp] theorem State.settleFrame_keel (serial cls : Nat) (exhausted : Bool) (s : State) : (State.settleFrame serial cls exhausted s).keel = s.keel := by
  unfold State.settleFrame
  (repeat' (first | (simp; done) | split | (simp; split)))

@[simp] theorem State.settleFrame_hull (serial cls : Nat) (exhausted : Bool) (s : State) : (State.settleFrame serial cls exhausted s).hull = s.hull :=
  State.hull_of_keel (State.settleFrame_keel serial cls exhausted s)

@[simp] theorem deferAll_keel (a : List Nat) (s : State) : (deferAll a s).keel = s.keel := by
  induction a generalizing s <;> first | (simp [deferAll, *]; done) | (unfold deferAll; (repeat' (first | (simp [deferAll, *]; done) | split)))

@[simp] theorem deferAll_hull (a : List Nat) (s : State) : (deferAll a s).hull = s.hull :=
  State.hull_of_keel (deferAll_keel a s)

@[simp] theorem State.exhaust_keel (x : Frame) (s : State) : (State.exhaust x s).keel = s.keel := by
  unfold State.exhaust
  (repeat' (first | (simp; done) | split | (simp; split)))

@[simp] theorem State.exhaust_hull (x : Frame) (s : State) : (State.exhaust x s).hull = s.hull :=
  State.hull_of_keel (State.exhaust_keel x s)

@[simp] theorem exhaustAll_keel (a : List Frame) (s : State) : (exhaustAll a s).keel = s.keel := by
  induction a generalizing s <;> first | (simp [exhaustAll, *]; done) | (unfold exhaustAll; (repeat' (first | (simp [exhaustAll, *]; done) | split)))

@[simp] theorem exhaustAll_hull (a : List Frame) (s : State) : (exhaustAll a s).hull = s.hull :=
  State.hull_of_keel (exhaustAll_keel a s)

@[simp] theorem verdictOrder_keel (x : Frame) (v : Nat) (s : State) : (verdictOrder x v s).keel = s.keel := by
  unfold verdictOrder
  (repeat' (first | (simp; done) | split | (simp; split)))

@[simp] theorem verdictOrder_hull (x : Frame) (v : Nat) (s : State) : (verdictOrder x v s).hull = s.hull :=
  State.hull_of_keel (verdictOrder_keel x v s)

@[simp] theorem State.noteVerdict_keel (l : Nat) (failed : Bool) (s : State) : (State.noteVerdict l failed s).keel = s.keel := by
  unfold State.noteVerdict
  (repeat' (first | (simp; done) | split | (simp; split)))

@[simp] theorem State.noteVerdict_hull (l : Nat) (failed : Bool) (s : State) : (State.noteVerdict l failed s).hull = s.hull :=
  State.hull_of_keel (State.noteVerdict_keel l failed s)

@[simp] theorem State.pushFront_keel (x : Frame) (s : State) : (State.pushFront x s).keel = s.keel := by
  unfold State.pushFront
  (repeat' (first | (simp; done) | split | (simp; split)))

@[simp] theorem State.pushFront_hull (x : Frame) (s : State) : (State.pushFront x s).hull = s.hull :=
  State.hull_of_keel (State.pushFront_keel x s)

@[simp] theorem State.unhold_keel (chan : Nat) (x : Frame) (s : State) : (State.unhold chan x s).keel = s.keel := by
  unfold State.unhold
  (repeat' (first | (simp; done) | split | (simp; split)))

@[simp] theorem State.unhold_hull (chan : Nat) (x : Frame) (s : State) : (State.unhold chan x s).hull = s.hull :=
  State.hull_of_keel (State.unhold_keel chan x s)

@[simp] theorem State.passFrame_keel (chan : Nat) (x : Frame) (s : State) : (State.passFrame chan x s).keel = s.keel := by
  unfold State.passFrame
  (repeat' (first | (simp; done) | split | (simp; split)))

@[simp] theorem State.passFrame_hull (chan : Nat) (x : Frame) (s : State) : (State.passFrame chan x s).hull = s.hull :=
  State.hull_of_keel (State.passFrame_keel chan x s)

@[simp] theorem State.rewriteFrame_keel (chan : Nat) (x : Frame) (s : State) : (State.rewriteFrame chan x s).keel = s.keel := by
  unfold State.rewriteFrame
  (repeat' (first | (simp; done) | split | (simp; split)))

@[simp] theorem State.rewriteFrame_hull (chan : Nat) (x : Frame) (s : State) : (State.rewriteFrame chan x s).hull = s.hull :=
  State.hull_of_keel (State.rewriteFrame_keel chan x s)

@[simp] theorem State.applyVerdict_keel (chan : Nat) (x : Frame) (v : Nat) (s : State) : (State.applyVerdict chan x v s).keel = s.keel := by
  unfold State.applyVerdict
  (repeat' (first | (simp; done) | split | (simp; split)))

@[simp] theorem State.applyVerdict_hull (chan : Nat) (x : Frame) (v : Nat) (s : State) : (State.applyVerdict chan x v s).hull = s.hull :=
  State.hull_of_keel (State.applyVerdict_keel chan x v s)

@[simp] theorem State.twinVerdict_keel (chan : Nat) (x : Frame) (s : State) : (State.twinVerdict chan x s).keel = s.keel := by
  unfold State.twinVerdict
  (repeat' (first | (simp; done) | split | (simp; split)))

@[simp] theorem State.twinVerdict_hull (chan : Nat) (x : Frame) (s : State) : (State.twinVerdict chan x s).hull = s.hull :=
  State.hull_of_keel (State.twinVerdict_keel chan x s)

@[simp] theorem State.giveVerdict_keel (chan : Nat) (x : Frame) (v : Nat) (s : State) : (State.giveVerdict chan x v s).keel = s.keel := by
  unfold State.giveVerdict
  (repeat' (first | (simp; done) | split | (simp; split)))

@[simp] theorem State.giveVerdict_hull (chan : Nat) (x : Frame) (v : Nat) (s : State) : (State.giveVerdict chan x v s).hull = s.hull :=
  State.hull_of_keel (State.giveVerdict_keel chan x v s)

@[simp] theorem State.judge_keel (chan : Nat) (x : Frame) (r : VerifyResult) (s : State) : (State.judge chan x r s).keel = s.keel := by
  unfold State.judge
  (repeat' (first | (simp; done) | split | (simp; split)))

@[simp] theorem State.judge_hull (chan : Nat) (x : Frame) (r : VerifyResult) (s : State) : (State.judge chan x r s).hull = s.hull :=
  State.hull_of_keel (State.judge_keel chan x r s)

@[simp] theorem State.pairVerdicts_keel (cls serial j : Nat) (s : State) : (State.pairVerdicts cls serial j s).keel = s.keel := by
  unfold State.pairVerdicts
  (repeat' (first | (simp; done) | split | (simp; split)))

@[simp] theorem State.pairVerdicts_hull (cls serial j : Nat) (s : State) : (State.pairVerdicts cls serial j s).hull = s.hull :=
  State.hull_of_keel (State.pairVerdicts_keel cls serial j s)

@[simp] theorem State.keepVerdict_keel (v : TwinVerdict) (s : State) : (State.keepVerdict v s).keel = s.keel := by
  unfold State.keepVerdict
  (repeat' (first | (simp; done) | split | (simp; split)))

@[simp] theorem State.keepVerdict_hull (v : TwinVerdict) (s : State) : (State.keepVerdict v s).hull = s.hull :=
  State.hull_of_keel (State.keepVerdict_keel v s)

@[simp] theorem State.standbyJudge_keel (chan : Nat) (r : VerifyResult) (s : State) : (State.standbyJudge chan r s).keel = s.keel := by
  unfold State.standbyJudge
  (repeat' (first | (simp; done) | split | (simp; split)))

@[simp] theorem State.standbyJudge_hull (chan : Nat) (r : VerifyResult) (s : State) : (State.standbyJudge chan r s).hull = s.hull :=
  State.hull_of_keel (State.standbyJudge_keel chan r s)

@[simp] theorem State.rebuildAcc_keel (s : State) : (State.rebuildAcc s).keel = s.keel := by
  unfold State.rebuildAcc
  (repeat' (first | (simp; done) | split | (simp; split)))

@[simp] theorem State.rebuildAcc_hull (s : State) : (State.rebuildAcc s).hull = s.hull :=
  State.hull_of_keel (State.rebuildAcc_keel s)

@[simp] theorem quarantineEngines_keel (a : List (Fin 24)) (s : State) : (quarantineEngines a s).keel = s.keel := by
  induction a generalizing s <;> first | (simp [quarantineEngines, *]; done) | (unfold quarantineEngines; (repeat' (first | (simp [quarantineEngines, *]; done) | split)))

@[simp] theorem quarantineEngines_hull (a : List (Fin 24)) (s : State) : (quarantineEngines a s).hull = s.hull :=
  State.hull_of_keel (quarantineEngines_keel a s)

@[simp] theorem State.setHome_keel (x : FormedHeat) (h : Nat) (s : State) : (State.setHome x h s).keel = s.keel := by
  unfold State.setHome
  (repeat' (first | (simp; done) | split | (simp; split)))

@[simp] theorem State.setHome_hull (x : FormedHeat) (h : Nat) (s : State) : (State.setHome x h s).hull = s.hull :=
  State.hull_of_keel (State.setHome_keel x h s)

@[simp] theorem State.retireElement_keel (p : Nat) (s : State) : (State.retireElement p s).keel = s.keel := by
  unfold State.retireElement
  (repeat' (first | (simp; done) | split | (simp; split)))

@[simp] theorem State.retireElement_hull (p : Nat) (s : State) : (State.retireElement p s).hull = s.hull :=
  State.hull_of_keel (State.retireElement_keel p s)

@[simp] theorem retireAll_keel (a : List Nat) (s : State) : (retireAll a s).keel = s.keel := by
  induction a generalizing s <;> first | (simp [retireAll, *]; done) | (unfold retireAll; (repeat' (first | (simp [retireAll, *]; done) | split)))

@[simp] theorem retireAll_hull (a : List Nat) (s : State) : (retireAll a s).hull = s.hull :=
  State.hull_of_keel (retireAll_keel a s)

@[simp] theorem State.retireNow_keel (s : State) : (State.retireNow s).keel = s.keel := by
  unfold State.retireNow
  (repeat' (first | (simp; done) | split | (simp; split)))

@[simp] theorem State.retireNow_hull (s : State) : (State.retireNow s).hull = s.hull :=
  State.hull_of_keel (State.retireNow_keel s)

@[simp] theorem State.modWrap_keel (f : WrapEntry → WrapEntry) (s : State) : (State.modWrap f s).keel = s.keel := by
  unfold State.modWrap
  (repeat' (first | (simp; done) | split | (simp; split)))

@[simp] theorem State.modWrap_hull (f : WrapEntry → WrapEntry) (s : State) : (State.modWrap f s).hull = s.hull :=
  State.hull_of_keel (State.modWrap_keel f s)

@[simp] theorem State.noteHeat_keel (rewrite : Bool) (rewritten : Nat) (s : State) : (State.noteHeat rewrite rewritten s).keel = s.keel := by
  unfold State.noteHeat
  (repeat' (first | (simp; done) | split | (simp; split)))

@[simp] theorem State.noteHeat_hull (rewrite : Bool) (rewritten : Nat) (s : State) : (State.noteHeat rewrite rewritten s).hull = s.hull :=
  State.hull_of_keel (State.noteHeat_keel rewrite rewritten s)

@[simp] theorem State.noteBillets_keel (bs : List Billet) (s : State) : (State.noteBillets bs s).keel = s.keel := by
  unfold State.noteBillets
  (repeat' (first | (simp; done) | split | (simp; split)))

@[simp] theorem State.noteBillets_hull (bs : List Billet) (s : State) : (State.noteBillets bs s).hull = s.hull :=
  State.hull_of_keel (State.noteBillets_keel bs s)

@[simp] theorem State.noteTrainEnd_keel (x : FormedHeat) (bs : List Billet) (s : State) : (State.noteTrainEnd x bs s).keel = s.keel := by
  unfold State.noteTrainEnd
  (repeat' (first | (simp; done) | split | (simp; split)))

@[simp] theorem State.noteTrainEnd_hull (x : FormedHeat) (bs : List Billet) (s : State) : (State.noteTrainEnd x bs s).hull = s.hull :=
  State.hull_of_keel (State.noteTrainEnd_keel x bs s)

@[simp] theorem State.startHeat_keel (kind : HeatKind) (serials : List Nat) (s : State) : (State.startHeat kind serials s).keel = s.keel := by
  unfold State.startHeat
  (repeat' (first | (simp; done) | split | (simp; split)))

@[simp] theorem State.startHeat_hull (kind : HeatKind) (serials : List Nat) (s : State) : (State.startHeat kind serials s).hull = s.hull :=
  State.hull_of_keel (State.startHeat_keel kind serials s)

@[simp] theorem State.finishWriting_keel (p : TapePos) (s : State) : (State.finishWriting p s).keel = s.keel := by
  unfold State.finishWriting
  (repeat' (first | (simp; done) | split | (simp; split)))

@[simp] theorem State.finishWriting_hull (p : TapePos) (s : State) : (State.finishWriting p s).hull = s.hull :=
  State.hull_of_keel (State.finishWriting_keel p s)

@[simp] theorem State.endStep_keel (s : State) : (State.endStep s).keel = s.keel := by
  unfold State.endStep
  (repeat' (first | (simp; done) | split | (simp; split)))

@[simp] theorem State.endStep_hull (s : State) : (State.endStep s).hull = s.hull :=
  State.hull_of_keel (State.endStep_keel s)

@[simp] theorem State.beginFormed_keel (x : FormedHeat) (s : State) : (State.beginFormed x s).keel = s.keel := by
  unfold State.beginFormed
  (repeat' (first | (simp; done) | split | (simp; split)))

@[simp] theorem State.beginFormed_hull (x : FormedHeat) (s : State) : (State.beginFormed x s).hull = s.hull :=
  State.hull_of_keel (State.beginFormed_keel x s)

@[simp] theorem State.plainHeat_keel (kind : HeatKind) (s : State) : (State.plainHeat kind s).keel = s.keel := by
  unfold State.plainHeat
  (repeat' (first | (simp; done) | split | (simp; split)))

@[simp] theorem State.plainHeat_hull (kind : HeatKind) (s : State) : (State.plainHeat kind s).hull = s.hull :=
  State.hull_of_keel (State.plainHeat_keel kind s)

@[simp] theorem State.chooseHeat_keel (left : Nat) (s : State) : (State.chooseHeat left s).keel = s.keel := by
  unfold State.chooseHeat
  (repeat' (first | (simp; done) | split | (simp; split)))

@[simp] theorem State.chooseHeat_hull (left : Nat) (s : State) : (State.chooseHeat left s).hull = s.hull :=
  State.hull_of_keel (State.chooseHeat_keel left s)

@[simp] theorem State.exhaustOverdue_keel (s : State) : (State.exhaustOverdue s).keel = s.keel := by
  unfold State.exhaustOverdue
  (repeat' (first | (simp; done) | split | (simp; split)))

@[simp] theorem State.exhaustOverdue_hull (s : State) : (State.exhaustOverdue s).hull = s.hull :=
  State.hull_of_keel (State.exhaustOverdue_keel s)

@[simp] theorem State.handOver_keel (m : Nat) (s : State) : (State.handOver m s).keel = s.keel := by
  unfold State.handOver
  (repeat' (first | (simp; done) | split | (simp; split)))

@[simp] theorem State.handOver_hull (m : Nat) (s : State) : (State.handOver m s).hull = s.hull :=
  State.hull_of_keel (State.handOver_keel m s)

@[simp] theorem State.boundary_keel (s : State) : (State.boundary s).keel = s.keel := by
  unfold State.boundary
  (repeat' (first | (simp; done) | split | (simp; split)))

@[simp] theorem State.boundary_hull (s : State) : (State.boundary s).hull = s.hull :=
  State.hull_of_keel (State.boundary_keel s)

@[simp] theorem State.exhaustWrap_keel (s : State) : (State.exhaustWrap s).keel = s.keel := by
  unfold State.exhaustWrap
  (repeat' (first | (simp; done) | split | (simp; split)))

@[simp] theorem State.exhaustWrap_hull (s : State) : (State.exhaustWrap s).hull = s.hull :=
  State.hull_of_keel (State.exhaustWrap_keel s)

@[simp] theorem State.nextWrap_keel (s : State) : (State.nextWrap s).keel = s.keel := by
  unfold State.nextWrap
  (repeat' (first | (simp; done) | split | (simp; split)))

@[simp] theorem State.nextWrap_hull (s : State) : (State.nextWrap s).hull = s.hull :=
  State.hull_of_keel (State.nextWrap_keel s)

@[simp] theorem State.speedEntry_keel (edge : Nat) (s : State) : (State.speedEntry edge s).keel = s.keel := by
  unfold State.speedEntry
  (repeat' (first | (simp; done) | split | (simp; split)))

@[simp] theorem State.speedEntry_hull (edge : Nat) (s : State) : (State.speedEntry edge s).hull = s.hull :=
  State.hull_of_keel (State.speedEntry_keel edge s)

end Sys2Proof.Machine
end

