-- ==== Sys2Proof/Laws/KeelLife.lean ====
section
/-! SUPPORT. What the operations of security, firmware and life cycle leave alone: keel and hull of the state. -/

set_option linter.unusedSimpArgs false

namespace Sys2Proof.Machine

open Sys2Proof

@[simp] theorem secServe_keel (op size : Nat) (resOk : Bytes → Bool) (role : Nat) (body : MbReq → State → State) (r : MbReq) (s : State) (h : ∀ p s, (body p s).keel = s.keel) : (secServe op size resOk role body r s).keel = s.keel := by
  unfold secServe
  (repeat' (first | (simp [h]; done) | split | (simp [h]; split)))

@[simp] theorem secServe_hull (op size : Nat) (resOk : Bytes → Bool) (role : Nat) (body : MbReq → State → State) (r : MbReq) (s : State) (h : ∀ p s, (body p s).hull = s.hull) : (secServe op size resOk role body r s).hull = s.hull := by
  unfold secServe
  (repeat' (first | (simp [h]; done) | split | (simp [h]; split)))

@[simp] theorem State.modSlot_keel {f : KeySlot → KeySlot} (h : ∀ k, (f k).held = k.held) (n : Nat) (s : State) : (State.modSlot n f s).keel = s.keel := by
  simp [State.modSlot, State.keel, State.hull, map_modAt h]

@[simp] theorem State.modSlot_hull (n : Nat) (f : KeySlot → KeySlot) (s : State) : (State.modSlot n f s).hull = s.hull := by
  simp [State.modSlot, State.hull]

@[simp] theorem identityBody_keel (r : MbReq) (s : State) : (identityBody r s).keel = s.keel := by
  unfold identityBody
  (repeat' (first | (simp; done) | split | (simp; split)))

@[simp] theorem identityBody_hull (r : MbReq) (s : State) : (identityBody r s).hull = s.hull :=
  State.hull_of_keel (identityBody_keel r s)

@[simp] theorem serveSecGetIdentity_keel (a : MbReq) (s : State) : (serveSecGetIdentity a s).keel = s.keel := by
  unfold serveSecGetIdentity
  (repeat' (first | (simp; done) | split | (simp; split)))

@[simp] theorem serveSecGetIdentity_hull (a : MbReq) (s : State) : (serveSecGetIdentity a s).hull = s.hull :=
  State.hull_of_keel (serveSecGetIdentity_keel a s)

@[simp] theorem challengeBody_keel (r : MbReq) (s : State) : (challengeBody r s).keel = s.keel := by
  unfold challengeBody
  (repeat' (first | (simp; done) | split | (simp; split)))

@[simp] theorem challengeBody_hull (r : MbReq) (s : State) : (challengeBody r s).hull = s.hull :=
  State.hull_of_keel (challengeBody_keel r s)

@[simp] theorem serveSecChallenge_keel (a : MbReq) (s : State) : (serveSecChallenge a s).keel = s.keel := by
  unfold serveSecChallenge
  (repeat' (first | (simp; done) | split | (simp; split)))

@[simp] theorem serveSecChallenge_hull (a : MbReq) (s : State) : (serveSecChallenge a s).hull = s.hull :=
  State.hull_of_keel (serveSecChallenge_keel a s)

@[simp] theorem State.failLogin_keel (m : Nat) (s : State) : (State.failLogin m s).keel = s.keel := by
  unfold State.failLogin
  (repeat' (first | (simp; done) | split | (simp; split)))

@[simp] theorem State.failLogin_hull (m : Nat) (s : State) : (State.failLogin m s).hull = s.hull :=
  State.hull_of_keel (State.failLogin_keel m s)

@[simp] theorem loginBody_keel (r : MbReq) (s : State) : (loginBody r s).keel = s.keel := by
  unfold loginBody
  (repeat' (first | (simp; done) | split | (simp; split)))

@[simp] theorem loginBody_hull (r : MbReq) (s : State) : (loginBody r s).hull = s.hull :=
  State.hull_of_keel (loginBody_keel r s)

@[simp] theorem serveSecLogin_keel (a : MbReq) (s : State) : (serveSecLogin a s).keel = s.keel := by
  unfold serveSecLogin
  (repeat' (first | (simp; done) | split | (simp; split)))

@[simp] theorem serveSecLogin_hull (a : MbReq) (s : State) : (serveSecLogin a s).hull = s.hull :=
  State.hull_of_keel (serveSecLogin_keel a s)

@[simp] theorem logoutBody_keel (r : MbReq) (s : State) : (logoutBody r s).keel = s.keel := by
  unfold logoutBody
  (repeat' (first | (simp; done) | split | (simp; split)))

@[simp] theorem logoutBody_hull (r : MbReq) (s : State) : (logoutBody r s).hull = s.hull :=
  State.hull_of_keel (logoutBody_keel r s)

@[simp] theorem serveSecLogout_keel (a : MbReq) (s : State) : (serveSecLogout a s).keel = s.keel := by
  unfold serveSecLogout
  (repeat' (first | (simp; done) | split | (simp; split)))

@[simp] theorem serveSecLogout_hull (a : MbReq) (s : State) : (serveSecLogout a s).hull = s.hull :=
  State.hull_of_keel (serveSecLogout_keel a s)

@[simp] theorem keyAgreeBody_keel (r : MbReq) (s : State) : (keyAgreeBody r s).keel = s.keel := by
  unfold keyAgreeBody
  (repeat' (first | (simp; done) | split | (simp; split)))

@[simp] theorem keyAgreeBody_hull (r : MbReq) (s : State) : (keyAgreeBody r s).hull = s.hull :=
  State.hull_of_keel (keyAgreeBody_keel r s)

@[simp] theorem serveSecKeyAgree_keel (a : MbReq) (s : State) : (serveSecKeyAgree a s).keel = s.keel := by
  unfold serveSecKeyAgree
  (repeat' (first | (simp; done) | split | (simp; split)))

@[simp] theorem serveSecKeyAgree_hull (a : MbReq) (s : State) : (serveSecKeyAgree a s).hull = s.hull :=
  State.hull_of_keel (serveSecKeyAgree_keel a s)

@[simp] theorem underKtk_keel (op : Nat) (w : Bytes) (r : MbReq) (f : Bytes → Bytes → State → State) (s : State) (h : ∀ a b s, (f a b s).keel = s.keel) : (underKtk op w r f s).keel = s.keel := by
  unfold underKtk
  (repeat' (first | (simp [h]; done) | split))

@[simp] theorem underKtk_hull (op : Nat) (w : Bytes) (r : MbReq) (f : Bytes → Bytes → State → State) (s : State) (h : ∀ a b s, (f a b s).hull = s.hull) : (underKtk op w r f s).hull = s.hull := by
  unfold underKtk
  (repeat' (first | (simp [h]; done) | split))

@[simp] theorem commissionBody_hull (r : MbReq) (s : State) : (commissionBody r s).hull = s.hull := by
  unfold commissionBody
  (repeat' (first | (simp; done) | split | (simp; split)))

@[simp] theorem serveSecCommission_hull (a : MbReq) (s : State) : (serveSecCommission a s).hull = s.hull := by
  unfold serveSecCommission
  (repeat' (first | (simp; done) | split | (simp; split)))

@[simp] theorem setAuthBody_hull (r : MbReq) (s : State) : (setAuthBody r s).hull = s.hull := by
  unfold setAuthBody
  (repeat' (first | (simp; done) | split | (simp; split)))

@[simp] theorem serveSecSetAuth_hull (a : MbReq) (s : State) : (serveSecSetAuth a s).hull = s.hull := by
  unfold serveSecSetAuth
  (repeat' (first | (simp; done) | split | (simp; split)))

@[simp] theorem kekLoadBody_hull (r : MbReq) (s : State) : (kekLoadBody r s).hull = s.hull := by
  unfold kekLoadBody
  (repeat' (first | (simp; done) | split | (simp; split)))

@[simp] theorem serveSecKekLoad_hull (a : MbReq) (s : State) : (serveSecKekLoad a s).hull = s.hull := by
  unfold serveSecKekLoad
  (repeat' (first | (simp; done) | split | (simp; split)))

@[simp] theorem kekEraseBody_hull (r : MbReq) (s : State) : (kekEraseBody r s).hull = s.hull := by
  unfold kekEraseBody
  (repeat' (first | (simp; done) | split | (simp; split)))

@[simp] theorem serveSecKekErase_hull (a : MbReq) (s : State) : (serveSecKekErase a s).hull = s.hull := by
  unfold serveSecKekErase
  (repeat' (first | (simp; done) | split | (simp; split)))

@[simp] theorem keyLoadBody_hull (r : MbReq) (s : State) : (keyLoadBody r s).hull = s.hull := by
  unfold keyLoadBody
  (repeat' (first | (simp; done) | split | (simp; split)))

@[simp] theorem serveSecKeyLoad_hull (a : MbReq) (s : State) : (serveSecKeyLoad a s).hull = s.hull := by
  unfold serveSecKeyLoad
  (repeat' (first | (simp; done) | split | (simp; split)))

@[simp] theorem keyEraseBody_keel (r : MbReq) (s : State) : (keyEraseBody r s).keel = s.keel := by
  unfold keyEraseBody
  apply State.modSlot_keel
  intro k; rfl

@[simp] theorem keyEraseBody_hull (r : MbReq) (s : State) : (keyEraseBody r s).hull = s.hull := State.hull_of_keel (keyEraseBody_keel r s)

@[simp] theorem serveSecKeyErase_keel (a : MbReq) (s : State) : (serveSecKeyErase a s).keel = s.keel := by
  unfold serveSecKeyErase
  (repeat' (first | (simp; done) | split | (simp; split)))

@[simp] theorem serveSecKeyErase_hull (a : MbReq) (s : State) : (serveSecKeyErase a s).hull = s.hull :=
  State.hull_of_keel (serveSecKeyErase_keel a s)

@[simp] theorem doneAll_keel (a : List Nat) (s : State) : (doneAll a s).keel = s.keel := by
  induction a generalizing s <;> first | (simp [doneAll, *]; done) | (unfold doneAll; (repeat' (first | (simp [doneAll, *]; done) | split)))

@[simp] theorem doneAll_hull (a : List Nat) (s : State) : (doneAll a s).hull = s.hull :=
  State.hull_of_keel (doneAll_keel a s)

@[simp] theorem slotInfoBody_keel (r : MbReq) (s : State) : (slotInfoBody r s).keel = s.keel := by
  unfold slotInfoBody
  (repeat' (first | (simp; done) | split | (simp; split)))

@[simp] theorem slotInfoBody_hull (r : MbReq) (s : State) : (slotInfoBody r s).hull = s.hull :=
  State.hull_of_keel (slotInfoBody_keel r s)

@[simp] theorem serveSecSlotInfo_keel (a : MbReq) (s : State) : (serveSecSlotInfo a s).keel = s.keel := by
  unfold serveSecSlotInfo
  (repeat' (first | (simp; done) | split | (simp; split)))

@[simp] theorem serveSecSlotInfo_hull (a : MbReq) (s : State) : (serveSecSlotInfo a s).hull = s.hull :=
  State.hull_of_keel (serveSecSlotInfo_keel a s)

@[simp] theorem State.wipeSlots_hull (slots : List Nat) (s : State) : (State.wipeSlots slots s).hull = s.hull := by
  unfold State.wipeSlots
  (repeat' (first | (simp; done) | split | (simp; split)))

@[simp] theorem zeroOpen_keel (a : List Rec) (s : State) : (zeroOpen a s).keel = s.keel := by
  induction a generalizing s <;> first | (simp [zeroOpen, *]; done) | (unfold zeroOpen; (repeat' (first | (simp [zeroOpen, *]; done) | split)))

@[simp] theorem zeroOpen_hull (a : List Rec) (s : State) : (zeroOpen a s).hull = s.hull :=
  State.hull_of_keel (zeroOpen_keel a s)

@[simp] theorem zeroReads_keel (a : List ReadJob) (s : State) : (zeroReads a s).keel = s.keel := by
  induction a generalizing s <;> first | (simp [zeroReads, *]; done) | (unfold zeroReads; (repeat' (first | (simp [zeroReads, *]; done) | split)))

@[simp] theorem zeroReads_hull (a : List ReadJob) (s : State) : (zeroReads a s).hull = s.hull :=
  State.hull_of_keel (zeroReads_keel a s)

@[simp] theorem State.endUsers_keel (gone : List (Nat × BitVec 16)) (s : State) : (State.endUsers gone s).keel = s.keel := by
  unfold State.endUsers
  (repeat' (first | (simp; done) | split | (simp; split)))

@[simp] theorem State.endUsers_hull (gone : List (Nat × BitVec 16)) (s : State) : (State.endUsers gone s).hull = s.hull :=
  State.hull_of_keel (State.endUsers_keel gone s)

@[simp] theorem State.zeroizeSlot_hull (slot : Nat) (s : State) : (State.zeroizeSlot slot s).hull = s.hull := by
  unfold State.zeroizeSlot
  (repeat' (first | (simp; done) | split | (simp; split)))

@[simp] theorem State.zeroizeFull_hull (s : State) : (State.zeroizeFull s).hull = s.hull := by
  unfold State.zeroizeFull
  (repeat' (first | (simp; done) | split | (simp; split)))

@[simp] theorem State.wipeMode_hull (s : State) : (State.wipeMode s).hull = s.hull := by
  unfold State.wipeMode
  (repeat' (first | (simp; done) | split | (simp; split)))

@[simp] theorem setModeBody_hull (r : MbReq) (s : State) : (setModeBody r s).hull = s.hull := by
  unfold setModeBody
  (repeat' (first | (simp; done) | split | (simp; split)))

@[simp] theorem serveSecSetMode_hull (a : MbReq) (s : State) : (serveSecSetMode a s).hull = s.hull := by
  unfold serveSecSetMode
  (repeat' (first | (simp; done) | split | (simp; split)))

@[simp] theorem zeroizeBody_hull (r : MbReq) (s : State) : (zeroizeBody r s).hull = s.hull := by
  unfold zeroizeBody
  (repeat' (first | (simp; done) | split | (simp; split)))

@[simp] theorem serveSecZeroize_hull (a : MbReq) (s : State) : (serveSecZeroize a s).hull = s.hull := by
  unfold serveSecZeroize
  (repeat' (first | (simp; done) | split | (simp; split)))

@[simp] theorem State.pinEntry_keel (pin : Nat) (level : Bool) (s : State) : (State.pinEntry pin level s).keel = s.keel := by
  unfold State.pinEntry
  (repeat' (first | (simp; done) | split | (simp; split)))

@[simp] theorem State.pinEntry_hull (pin : Nat) (level : Bool) (s : State) : (State.pinEntry pin level s).hull = s.hull :=
  State.hull_of_keel (State.pinEntry_keel pin level s)

@[simp] theorem State.secError_keel (s : State) : (State.secError s).keel = s.keel := by
  unfold State.secError
  (repeat' (first | (simp; done) | split | (simp; split)))

@[simp] theorem State.secError_hull (s : State) : (State.secError s).hull = s.hull :=
  State.hull_of_keel (State.secError_keel s)

@[simp] theorem selftestBody_keel (r : MbReq) (s : State) : (selftestBody r s).keel = s.keel := by
  unfold selftestBody
  (repeat' (first | (simp; done) | split | (simp; split)))

@[simp] theorem selftestBody_hull (r : MbReq) (s : State) : (selftestBody r s).hull = s.hull :=
  State.hull_of_keel (selftestBody_keel r s)

@[simp] theorem serveSecSelftest_keel (a : MbReq) (s : State) : (serveSecSelftest a s).keel = s.keel := by
  unfold serveSecSelftest
  (repeat' (first | (simp; done) | split | (simp; split)))

@[simp] theorem serveSecSelftest_hull (a : MbReq) (s : State) : (serveSecSelftest a s).hull = s.hull :=
  State.hull_of_keel (serveSecSelftest_keel a s)

@[simp] theorem State.setPairs_keel (passed : List Nat) (s : State) : (State.setPairs passed s).keel = s.keel := by
  unfold State.setPairs
  (repeat' (first | (simp; done) | split | (simp; split)))

@[simp] theorem State.setPairs_hull (passed : List Nat) (s : State) : (State.setPairs passed s).hull = s.hull :=
  State.hull_of_keel (State.setPairs_keel passed s)

@[simp] theorem State.passTests_keel (s : State) : (State.passTests s).keel = s.keel := by
  unfold State.passTests
  (repeat' (first | (simp; done) | split | (simp; split)))

@[simp] theorem State.passTests_hull (s : State) : (State.passTests s).hull = s.hull :=
  State.hull_of_keel (State.passTests_keel s)

@[simp] theorem fwInfoBody_keel (r : MbReq) (s : State) : (fwInfoBody r s).keel = s.keel := by
  unfold fwInfoBody
  (repeat' (first | (simp; done) | split | (simp; split)))

@[simp] theorem fwInfoBody_hull (r : MbReq) (s : State) : (fwInfoBody r s).hull = s.hull :=
  State.hull_of_keel (fwInfoBody_keel r s)

@[simp] theorem serveFwInfo_keel (a : MbReq) (s : State) : (serveFwInfo a s).keel = s.keel := by
  unfold serveFwInfo
  (repeat' (first | (simp; done) | split | (simp; split)))

@[simp] theorem serveFwInfo_hull (a : MbReq) (s : State) : (serveFwInfo a s).hull = s.hull :=
  State.hull_of_keel (serveFwInfo_keel a s)

@[simp] theorem fwDownloadBody_keel (r : MbReq) (s : State) : (fwDownloadBody r s).keel = s.keel := by
  unfold fwDownloadBody
  (repeat' (first | (simp; done) | split | (simp; split)))

@[simp] theorem fwDownloadBody_hull (r : MbReq) (s : State) : (fwDownloadBody r s).hull = s.hull :=
  State.hull_of_keel (fwDownloadBody_keel r s)

@[simp] theorem serveFwDownload_keel (a : MbReq) (s : State) : (serveFwDownload a s).keel = s.keel := by
  unfold serveFwDownload
  (repeat' (first | (simp; done) | split | (simp; split)))

@[simp] theorem serveFwDownload_hull (a : MbReq) (s : State) : (serveFwDownload a s).hull = s.hull :=
  State.hull_of_keel (serveFwDownload_keel a s)

@[simp] theorem checkCommits_keel (l : List (Nat × Bool)) (s : State) : (checkCommits l s).keel = s.keel := by
  induction l generalizing s with
  | nil => unfold checkCommits; apply State.keel_upd <;> rfl
  | cons a r ih =>
    unfold checkCommits
    dsimp only
    split
    · simp [ih]
    · split
      · simp [ih]
      · split
        · apply State.keel_upd <;> rfl
        · simp [ih]

@[simp] theorem checkCommits_hull (l : List (Nat × Bool)) (s : State) : (checkCommits l s).hull = s.hull := State.hull_of_keel (checkCommits_keel l s)

@[simp] theorem fwCommitBody_keel (r : MbReq) (s : State) : (fwCommitBody r s).keel = s.keel := by
  unfold fwCommitBody
  (repeat' (first | (simp; done) | split | (simp; split)))

@[simp] theorem fwCommitBody_hull (r : MbReq) (s : State) : (fwCommitBody r s).hull = s.hull :=
  State.hull_of_keel (fwCommitBody_keel r s)

@[simp] theorem serveFwCommit_keel (a : MbReq) (s : State) : (serveFwCommit a s).keel = s.keel := by
  unfold serveFwCommit
  (repeat' (first | (simp; done) | split | (simp; split)))

@[simp] theorem serveFwCommit_hull (a : MbReq) (s : State) : (serveFwCommit a s).hull = s.hull :=
  State.hull_of_keel (serveFwCommit_keel a s)

@[simp] theorem State.markSlot_keel (one : Bool) (s : State) : (State.markSlot one s).keel = s.keel := by
  unfold State.markSlot
  (repeat' (first | (simp; done) | split | (simp; split)))

@[simp] theorem State.markSlot_hull (one : Bool) (s : State) : (State.markSlot one s).hull = s.hull :=
  State.hull_of_keel (State.markSlot_keel one s)

@[simp] theorem fwActivateBody_keel (r : MbReq) (s : State) : (fwActivateBody r s).keel = s.keel := by
  unfold fwActivateBody
  (repeat' (first | (simp; done) | split | (simp; split)))

@[simp] theorem fwActivateBody_hull (r : MbReq) (s : State) : (fwActivateBody r s).hull = s.hull :=
  State.hull_of_keel (fwActivateBody_keel r s)

@[simp] theorem serveFwActivate_keel (a : MbReq) (s : State) : (serveFwActivate a s).keel = s.keel := by
  unfold serveFwActivate
  (repeat' (first | (simp; done) | split | (simp; split)))

@[simp] theorem serveFwActivate_hull (a : MbReq) (s : State) : (serveFwActivate a s).hull = s.hull :=
  State.hull_of_keel (serveFwActivate_keel a s)

@[simp] theorem powerSetBody_keel (r : MbReq) (s : State) : (powerSetBody r s).keel = s.keel := by
  unfold powerSetBody
  (repeat' (first | (simp; done) | split | (simp; split)))

@[simp] theorem powerSetBody_hull (r : MbReq) (s : State) : (powerSetBody r s).hull = s.hull :=
  State.hull_of_keel (powerSetBody_keel r s)

@[simp] theorem servePowerSet_keel (a : MbReq) (s : State) : (servePowerSet a s).keel = s.keel := by
  unfold servePowerSet
  (repeat' (first | (simp; done) | split | (simp; split)))

@[simp] theorem servePowerSet_hull (a : MbReq) (s : State) : (servePowerSet a s).hull = s.hull :=
  State.hull_of_keel (servePowerSet_keel a s)

@[simp] theorem State.idleEntry_keel (id : Nat) (t : BitVec 2) (s : State) : (State.idleEntry id t s).keel = s.keel := by
  unfold State.idleEntry
  (repeat' (first | (simp; done) | split | (simp; split)))

@[simp] theorem State.idleEntry_hull (id : Nat) (t : BitVec 2) (s : State) : (State.idleEntry id t s).hull = s.hull :=
  State.hull_of_keel (State.idleEntry_keel id t s)

@[simp] theorem State.beginOrderly_keel (s : State) : (State.beginOrderly s).keel = s.keel := by
  unfold State.beginOrderly
  (repeat' (first | (simp; done) | split | (simp; split)))

@[simp] theorem State.beginOrderly_hull (s : State) : (State.beginOrderly s).hull = s.hull :=
  State.hull_of_keel (State.beginOrderly_keel s)

@[simp] theorem deletePairs_keel (a : List Nat) (s : State) : (deletePairs a s).keel = s.keel := by
  induction a generalizing s <;> first | (simp [deletePairs, *]; done) | (unfold deletePairs; (repeat' (first | (simp [deletePairs, *]; done) | split)))

@[simp] theorem deletePairs_hull (a : List Nat) (s : State) : (deletePairs a s).hull = s.hull :=
  State.hull_of_keel (deletePairs_keel a s)

@[simp] theorem State.beginAbrupt_keel (s : State) : (State.beginAbrupt s).keel = s.keel := by
  unfold State.beginAbrupt
  (repeat' (first | (simp; done) | split | (simp; split)))

@[simp] theorem State.beginAbrupt_hull (s : State) : (State.beginAbrupt s).hull = s.hull :=
  State.hull_of_keel (State.beginAbrupt_keel s)

@[simp] theorem State.requestShutdown_keel (abrupt : Bool) (s : State) : (State.requestShutdown abrupt s).keel = s.keel := by
  unfold State.requestShutdown
  (repeat' (first | (simp; done) | split | (simp; split)))

@[simp] theorem State.requestShutdown_hull (abrupt : Bool) (s : State) : (State.requestShutdown abrupt s).hull = s.hull :=
  State.hull_of_keel (State.requestShutdown_keel abrupt s)

@[simp] theorem State.resetRegisters_keel (s : State) : (State.resetRegisters s).keel = s.keel := by
  unfold State.resetRegisters
  apply State.keel_upd <;> first | rfl | simp [KeySlot.held, Function.comp_def]

@[simp] theorem State.resetRegisters_hull (s : State) : (State.resetRegisters s).hull = s.hull := State.hull_of_keel (State.resetRegisters_keel s)

@[simp] theorem State.resetMail_keel (s : State) : (State.resetMail s).keel = s.keel := by
  unfold State.resetMail
  (repeat' (first | (simp; done) | split | (simp; split)))

@[simp] theorem State.resetMail_hull (s : State) : (State.resetMail s).hull = s.hull :=
  State.hull_of_keel (State.resetMail_keel s)

@[simp] theorem dropReads_keel (a : List ReadJob) (s : State) : (dropReads a s).keel = s.keel := by
  induction a generalizing s <;> first | (simp [dropReads, *]; done) | (unfold dropReads; (repeat' (first | (simp [dropReads, *]; done) | split)))

@[simp] theorem dropReads_hull (a : List ReadJob) (s : State) : (dropReads a s).hull = s.hull :=
  State.hull_of_keel (dropReads_keel a s)

@[simp] theorem State.dropCommands_keel (s : State) : (State.dropCommands s).keel = s.keel := by
  unfold State.dropCommands
  (repeat' (first | (simp; done) | split | (simp; split)))

@[simp] theorem State.dropCommands_hull (s : State) : (State.dropCommands s).hull = s.hull :=
  State.hull_of_keel (State.dropCommands_keel s)

@[simp] theorem State.functionReset_keel (s : State) : (State.functionReset s).keel = s.keel := by
  unfold State.functionReset
  (repeat' (first | (simp; done) | split | (simp; split)))

@[simp] theorem State.functionReset_hull (s : State) : (State.functionReset s).hull = s.hull :=
  State.hull_of_keel (State.functionReset_keel s)

end Sys2Proof.Machine
end

