-- ==== Sys2Proof/Laws/KeelRead.lean ====
section
/-! SUPPORT. What the operations of the read path, servo and Tongs leave alone: keel and hull of the state. -/

set_option linter.unusedSimpArgs false

namespace Sys2Proof.Machine

open Sys2Proof

@[simp] theorem State.capture_keel (x : Capture) (s : State) : (State.capture x s).keel = s.keel := by
  unfold State.capture
  (repeat' (first | (simp; done) | split | (simp; split)))

@[simp] theorem State.capture_hull (x : Capture) (s : State) : (State.capture x s).hull = s.hull :=
  State.hull_of_keel (State.capture_keel x s)

@[simp] theorem State.takeFrame_keel (p : Nat) (l : Lane) (track : Bool) (m : Mark) (s : State) : (State.takeFrame p l track m s).keel = s.keel := by
  unfold State.takeFrame
  (repeat' (first | (simp; done) | split | (simp; split)))

@[simp] theorem State.takeFrame_hull (p : Nat) (l : Lane) (track : Bool) (m : Mark) (s : State) : (State.takeFrame p l track m s).hull = s.hull :=
  State.hull_of_keel (State.takeFrame_keel p l track m s)

@[simp] theorem State.skipSlag_keel (p : Nat) (l : Lane) (m : Mark) (s : State) : (State.skipSlag p l m s).keel = s.keel := by
  unfold State.skipSlag
  (repeat' (first | (simp; done) | split | (simp; split)))

@[simp] theorem State.skipSlag_hull (p : Nat) (l : Lane) (m : Mark) (s : State) : (State.skipSlag p l m s).hull = s.hull :=
  State.hull_of_keel (State.skipSlag_keel p l m s)

@[simp] theorem State.setAnchor_keel (p pos : Nat) (s : State) : (State.setAnchor p pos s).keel = s.keel := by
  unfold State.setAnchor
  (repeat' (first | (simp; done) | split | (simp; split)))

@[simp] theorem State.setAnchor_hull (p pos : Nat) (s : State) : (State.setAnchor p pos s).hull = s.hull :=
  State.hull_of_keel (State.setAnchor_keel p pos s)

@[simp] theorem State.takeMark_keel (p : Nat) (l : Lane) (track : Bool) (m : Mark) (s : State) : (State.takeMark p l track m s).keel = s.keel := by
  unfold State.takeMark
  (repeat' (first | (simp; done) | split | (simp; split)))

@[simp] theorem State.takeMark_hull (p : Nat) (l : Lane) (track : Bool) (m : Mark) (s : State) : (State.takeMark p l track m s).hull = s.hull :=
  State.hull_of_keel (State.takeMark_keel p l track m s)

@[simp] theorem State.missMark_keel (p : Nat) (l : Lane) (s : State) : (State.missMark p l s).keel = s.keel := by
  unfold State.missMark
  (repeat' (first | (simp; done) | split | (simp; split)))

@[simp] theorem State.missMark_hull (p : Nat) (l : Lane) (s : State) : (State.missMark p l s).hull = s.hull :=
  State.hull_of_keel (State.missMark_keel p l s)

@[simp] theorem State.dropCapture_keel (x : Capture) (s : State) : (State.dropCapture x s).keel = s.keel := by
  unfold State.dropCapture
  (repeat' (first | (simp; done) | split | (simp; split)))

@[simp] theorem State.dropCapture_hull (x : Capture) (s : State) : (State.dropCapture x s).hull = s.hull :=
  State.hull_of_keel (State.dropCapture_keel x s)

@[simp] theorem chanStatsBody_keel (r : MbReq) (s : State) : (chanStatsBody r s).keel = s.keel := by
  unfold chanStatsBody
  (repeat' (first | (simp; done) | split | (simp; split)))

@[simp] theorem chanStatsBody_hull (r : MbReq) (s : State) : (chanStatsBody r s).hull = s.hull :=
  State.hull_of_keel (chanStatsBody_keel r s)

@[simp] theorem serveReadChannelStats_keel (a : MbReq) (s : State) : (serveReadChannelStats a s).keel = s.keel := by
  unfold serveReadChannelStats
  (repeat' (first | (simp; done) | split | (simp; split)))

@[simp] theorem serveReadChannelStats_hull (a : MbReq) (s : State) : (serveReadChannelStats a s).hull = s.hull :=
  State.hull_of_keel (serveReadChannelStats_keel a s)

@[simp] theorem State.takeTable_keel (w cls : Nat) (s : State) : (State.takeTable w cls s).keel = s.keel := by
  unfold State.takeTable
  (repeat' (first | (simp; done) | split | (simp; split)))

@[simp] theorem State.takeTable_hull (w cls : Nat) (s : State) : (State.takeTable w cls s).hull = s.hull :=
  State.hull_of_keel (State.takeTable_keel w cls s)

@[simp] theorem State.completed_keel (b : RBillet) (s : State) : (State.completed b s).keel = s.keel := by
  unfold State.completed
  (repeat' (first | (simp; done) | split | (simp; split)))

@[simp] theorem State.completed_hull (b : RBillet) (s : State) : (State.completed b s).hull = s.hull :=
  State.hull_of_keel (State.completed_keel b s)

@[simp] theorem State.putBillet_keel (b : RBillet) (s : State) : (State.putBillet b s).keel = s.keel := by
  unfold State.putBillet
  (repeat' (first | (simp; done) | split | (simp; split)))

@[simp] theorem State.putBillet_hull (b : RBillet) (s : State) : (State.putBillet b s).hull = s.hull :=
  State.hull_of_keel (State.putBillet_keel b s)

@[simp] theorem putBillets_keel (a : List RBillet) (s : State) : (putBillets a s).keel = s.keel := by
  induction a generalizing s <;> first | (simp [putBillets, *]; done) | (unfold putBillets; (repeat' (first | (simp [putBillets, *]; done) | split)))

@[simp] theorem putBillets_hull (a : List RBillet) (s : State) : (putBillets a s).hull = s.hull :=
  State.hull_of_keel (putBillets_keel a s)

@[simp] theorem State.checkLimit_keel (s : State) : (State.checkLimit s).keel = s.keel := by
  unfold State.checkLimit
  (repeat' (first | (simp; done) | split | (simp; split)))

@[simp] theorem State.checkLimit_hull (s : State) : (State.checkLimit s).hull = s.hull :=
  State.hull_of_keel (State.checkLimit_keel s)

@[simp] theorem State.onBillets_keel (s : State) : (State.onBillets s).keel = s.keel := by
  unfold State.onBillets
  (repeat' (first | (simp; done) | split | (simp; split)))

@[simp] theorem State.onBillets_hull (s : State) : (State.onBillets s).hull = s.hull :=
  State.hull_of_keel (State.onBillets_keel s)

@[simp] theorem State.acceptFrame_keel (word : Bytes) (second : Bool) (lpos : Int) (s : State) : (State.acceptFrame word second lpos s).keel = s.keel := by
  unfold State.acceptFrame
  (repeat' (first | (simp; done) | split | (simp; split)))

@[simp] theorem State.acceptFrame_hull (word : Bytes) (second : Bool) (lpos : Int) (s : State) : (State.acceptFrame word second lpos s).hull = s.hull :=
  State.hull_of_keel (State.acceptFrame_keel word second lpos s)

@[simp] theorem State.stampLimit_keel (busy : Bool) (s : State) : (State.stampLimit busy s).keel = s.keel := by
  unfold State.stampLimit
  (repeat' (first | (simp; done) | split | (simp; split)))

@[simp] theorem State.stampLimit_hull (busy : Bool) (s : State) : (State.stampLimit busy s).hull = s.hull :=
  State.hull_of_keel (State.stampLimit_keel busy s)

@[simp] theorem State.c1Failed_keel (j : C1Job) (s : State) : (State.c1Failed j s).keel = s.keel := by
  unfold State.c1Failed
  (repeat' (first | (simp; done) | split | (simp; split)))

@[simp] theorem State.c1Failed_hull (j : C1Job) (s : State) : (State.c1Failed j s).hull = s.hull :=
  State.hull_of_keel (State.c1Failed_keel j s)

@[simp] theorem State.c1Passed_keel (j : C1Job) (r : C1Result) (s : State) : (State.c1Passed j r s).keel = s.keel := by
  unfold State.c1Passed
  (repeat' (first | (simp; done) | split | (simp; split)))

@[simp] theorem State.c1Passed_hull (j : C1Job) (r : C1Result) (s : State) : (State.c1Passed j r s).hull = s.hull :=
  State.hull_of_keel (State.c1Passed_keel j r s)

@[simp] theorem State.atHeat_keel (heat : Nat) (s : State) : (State.atHeat heat s).keel = s.keel := by
  unfold State.atHeat
  (repeat' (first | (simp; done) | split | (simp; split)))

@[simp] theorem State.atHeat_hull (heat : Nat) (s : State) : (State.atHeat heat s).hull = s.hull :=
  State.hull_of_keel (State.atHeat_keel heat s)

@[simp] theorem State.modJob_keel (j : ReadJob) (f : ReadJob → ReadJob) (s : State) : (State.modJob j f s).keel = s.keel := by
  unfold State.modJob
  (repeat' (first | (simp; done) | split | (simp; split)))

@[simp] theorem State.modJob_hull (j : ReadJob) (f : ReadJob → ReadJob) (s : State) : (State.modJob j f s).hull = s.hull :=
  State.hull_of_keel (State.modJob_keel j f s)

@[simp] theorem State.consumed_keel (p : ItemPos) (s : State) : (State.consumed p s).keel = s.keel := by
  unfold State.consumed
  (repeat' (first | (simp; done) | split | (simp; split)))

@[simp] theorem State.consumed_hull (p : ItemPos) (s : State) : (State.consumed p s).hull = s.hull :=
  State.hull_of_keel (State.consumed_keel p s)

@[simp] theorem State.dropBefore_keel (p : ItemPos) (s : State) : (State.dropBefore p s).keel = s.keel := by
  unfold State.dropBefore
  (repeat' (first | (simp; done) | split | (simp; split)))

@[simp] theorem State.dropBefore_hull (p : ItemPos) (s : State) : (State.dropBefore p s).hull = s.hull :=
  State.hull_of_keel (State.dropBefore_keel p s)

@[simp] theorem State.resumeReading_keel (s : State) : (State.resumeReading s).keel = s.keel := by
  unfold State.resumeReading
  (repeat' (first | (simp; done) | split | (simp; split)))

@[simp] theorem State.resumeReading_hull (s : State) : (State.resumeReading s).hull = s.hull :=
  State.hull_of_keel (State.resumeReading_keel s)

@[simp] theorem State.afterRead_keel (s : State) : (State.afterRead s).keel = s.keel := by
  unfold State.afterRead
  (repeat' (first | (simp; done) | split | (simp; split)))

@[simp] theorem State.afterRead_hull (s : State) : (State.afterRead s).hull = s.hull :=
  State.hull_of_keel (State.afterRead_keel s)

@[simp] theorem State.stopRead_keel (j : ReadJob) (st : BitVec 16) (outcome : Nat) (s : State) : (State.stopRead j st outcome s).keel = s.keel := by
  unfold State.stopRead
  (repeat' (first | (simp; done) | split | (simp; split)))

@[simp] theorem State.stopRead_hull (j : ReadJob) (st : BitVec 16) (outcome : Nat) (s : State) : (State.stopRead j st outcome s).hull = s.hull :=
  State.hull_of_keel (State.stopRead_keel j st outcome s)

@[simp] theorem State.rejectRead_keel (j : ReadJob) (st : BitVec 16) (res : Nat) (s : State) : (State.rejectRead j st res s).keel = s.keel := by
  unfold State.rejectRead
  (repeat' (first | (simp; done) | split | (simp; split)))

@[simp] theorem State.rejectRead_hull (j : ReadJob) (st : BitVec 16) (res : Nat) (s : State) : (State.rejectRead j st res s).hull = s.hull :=
  State.hull_of_keel (State.rejectRead_keel j st res s)

@[simp] theorem State.openRead_keel (j : ReadJob) (desc : Item) (s : State) : (State.openRead j desc s).keel = s.keel := by
  unfold State.openRead
  (repeat' (first | (simp; done) | split | (simp; split)))

@[simp] theorem State.openRead_hull (j : ReadJob) (desc : Item) (s : State) : (State.openRead j desc s).hull = s.hull :=
  State.hull_of_keel (State.openRead_keel j desc s)

@[simp] theorem State.place_keel (j : ReadJob) (o : Nat) (b : Bytes) (s : State) : (State.place j o b s).keel = s.keel := by
  unfold State.place
  (repeat' (first | (simp; done) | split | (simp; split)))

@[simp] theorem State.place_hull (j : ReadJob) (o : Nat) (b : Bytes) (s : State) : (State.place j o b s).hull = s.hull :=
  State.hull_of_keel (State.place_keel j o b s)

@[simp] theorem State.tagFail_keel (j : ReadJob) (s : State) : (State.tagFail j s).keel = s.keel := by
  unfold State.tagFail
  (repeat' (first | (simp; done) | split | (simp; split)))

@[simp] theorem State.tagFail_hull (j : ReadJob) (s : State) : (State.tagFail j s).hull = s.hull :=
  State.hull_of_keel (State.tagFail_keel j s)

@[simp] theorem State.deliverCu_keel (j : ReadJob) (desc i : Item) (io : Io) (s : State) : (State.deliverCu j desc i io s).keel = s.keel := by
  unfold State.deliverCu
  (repeat' (first | (simp; done) | split | (simp; split)))

@[simp] theorem State.deliverCu_hull (j : ReadJob) (desc i : Item) (io : Io) (s : State) : (State.deliverCu j desc i io s).hull = s.hull :=
  State.hull_of_keel (State.deliverCu_keel j desc i io s)

@[simp] theorem State.closeRead_keel (j : ReadJob) (r : RecItems) (desc t : Item) (s : State) : (State.closeRead j r desc t s).keel = s.keel := by
  unfold State.closeRead
  (repeat' (first | (simp; done) | split | (simp; split)))

@[simp] theorem State.closeRead_hull (j : ReadJob) (r : RecItems) (desc t : Item) (s : State) : (State.closeRead j r desc t s).hull = s.hull :=
  State.hull_of_keel (State.closeRead_keel j r desc t s)

@[simp] theorem State.reopen_keel (b : RBillet) (s : State) : (State.reopen b s).keel = s.keel := by
  unfold State.reopen
  (repeat' (first | (simp; done) | split | (simp; split)))

@[simp] theorem State.reopen_hull (b : RBillet) (s : State) : (State.reopen b s).hull = s.hull :=
  State.hull_of_keel (State.reopen_keel b s)

@[simp] theorem State.startPass_keel (r : Reread) (s : State) : (State.startPass r s).keel = s.keel := by
  unfold State.startPass
  (repeat' (first | (simp; done) | split | (simp; split)))

@[simp] theorem State.startPass_hull (r : Reread) (s : State) : (State.startPass r s).hull = s.hull :=
  State.hull_of_keel (State.startPass_keel r s)

@[simp] theorem State.beginReread_keel (b : RBillet) (s : State) : (State.beginReread b s).keel = s.keel := by
  unfold State.beginReread
  (repeat' (first | (simp; done) | split | (simp; split)))

@[simp] theorem State.beginReread_hull (b : RBillet) (s : State) : (State.beginReread b s).hull = s.hull :=
  State.hull_of_keel (State.beginReread_keel b s)

@[simp] theorem State.leaveTape_keel (s : State) : (State.leaveTape s).keel = s.keel := by
  unfold State.leaveTape
  (repeat' (first | (simp; done) | split | (simp; split)))

@[simp] theorem State.leaveTape_hull (s : State) : (State.leaveTape s).hull = s.hull :=
  State.hull_of_keel (State.leaveTape_keel s)

@[simp] theorem answerSearch_keel (a : List Nat) (s : State) : (answerSearch a s).keel = s.keel := by
  induction a generalizing s <;> first | (simp [answerSearch, *]; done) | (unfold answerSearch; (repeat' (first | (simp [answerSearch, *]; done) | split)))

@[simp] theorem answerSearch_hull (a : List Nat) (s : State) : (answerSearch a s).hull = s.hull :=
  State.hull_of_keel (answerSearch_keel a s)

@[simp] theorem State.readWrap_keel (s : State) : (State.readWrap s).keel = s.keel := by
  unfold State.readWrap
  (repeat' (first | (simp; done) | split | (simp; split)))

@[simp] theorem State.readWrap_hull (s : State) : (State.readWrap s).hull = s.hull :=
  State.hull_of_keel (State.readWrap_keel s)

@[simp] theorem State.quench_keel (s : State) : (State.quench s).keel = s.keel := by
  unfold State.quench
  (repeat' (first | (simp; done) | split | (simp; split)))

@[simp] theorem State.quench_hull (s : State) : (State.quench s).hull = s.hull :=
  State.hull_of_keel (State.quench_keel s)

@[simp] theorem State.checkQuench_keel (s : State) : (State.checkQuench s).keel = s.keel := by
  unfold State.checkQuench
  (repeat' (first | (simp; done) | split | (simp; split)))

@[simp] theorem State.checkQuench_hull (s : State) : (State.checkQuench s).hull = s.hull :=
  State.hull_of_keel (State.checkQuench_keel s)

@[simp] theorem State.fineLoop_keel (s : State) : (State.fineLoop s).keel = s.keel := by
  unfold State.fineLoop
  (repeat' (first | (simp; done) | split | (simp; split)))

@[simp] theorem State.fineLoop_hull (s : State) : (State.fineLoop s).hull = s.hull :=
  State.hull_of_keel (State.fineLoop_keel s)

@[simp] theorem State.steer_keel (f : BitVec 32) (s : State) : (State.steer f s).keel = s.keel := by
  unfold State.steer
  (repeat' (first | (simp; done) | split | (simp; split)))

@[simp] theorem State.steer_hull (f : BitVec 32) (s : State) : (State.steer f s).hull = s.hull :=
  State.hull_of_keel (State.steer_keel f s)

@[simp] theorem State.feedForward_keel (old : Int) (s : State) : (State.feedForward old s).keel = s.keel := by
  unfold State.feedForward
  (repeat' (first | (simp; done) | split | (simp; split)))

@[simp] theorem State.feedForward_hull (old : Int) (s : State) : (State.feedForward old s).hull = s.hull :=
  State.hull_of_keel (State.feedForward_keel old s)

@[simp] theorem servoStatusBody_keel (r : MbReq) (s : State) : (servoStatusBody r s).keel = s.keel := by
  unfold servoStatusBody
  (repeat' (first | (simp; done) | split | (simp; split)))

@[simp] theorem servoStatusBody_hull (r : MbReq) (s : State) : (servoStatusBody r s).hull = s.hull :=
  State.hull_of_keel (servoStatusBody_keel r s)

@[simp] theorem serveServoStatus_keel (a : MbReq) (s : State) : (serveServoStatus a s).keel = s.keel := by
  unfold serveServoStatus
  (repeat' (first | (simp; done) | split | (simp; split)))

@[simp] theorem serveServoStatus_hull (a : MbReq) (s : State) : (serveServoStatus a s).hull = s.hull :=
  State.hull_of_keel (serveServoStatus_keel a s)

@[simp] theorem State.firstAcquisition_keel (s : State) : (State.firstAcquisition s).keel = s.keel := by
  unfold State.firstAcquisition
  (repeat' (first | (simp; done) | split | (simp; split)))

@[simp] theorem State.firstAcquisition_hull (s : State) : (State.firstAcquisition s).hull = s.hull :=
  State.hull_of_keel (State.firstAcquisition_keel s)

@[simp] theorem State.moveTape_keel (s : State) : (State.moveTape s).keel = s.keel := by
  unfold State.moveTape
  (repeat' (first | (simp; done) | split | (simp; split)))

@[simp] theorem State.moveTape_hull (s : State) : (State.moveTape s).hull = s.hull :=
  State.hull_of_keel (State.moveTape_keel s)

@[simp] theorem failSearch_keel (st : BitVec 16) (b : List Nat) (s : State) : (failSearch st b s).keel = s.keel := by
  induction b generalizing st s <;> first | (simp [failSearch, *]; done) | (unfold failSearch; (repeat' (first | (simp [failSearch, *]; done) | split)))

@[simp] theorem failSearch_hull (st : BitVec 16) (b : List Nat) (s : State) : (failSearch st b s).hull = s.hull :=
  State.hull_of_keel (failSearch_keel st b s)

@[simp] theorem State.failTape_keel (st : BitVec 16) (s : State) : (State.failTape st s).keel = s.keel := by
  unfold State.failTape
  (repeat' (first | (simp; done) | split | (simp; split)))

@[simp] theorem State.failTape_hull (st : BitVec 16) (s : State) : (State.failTape st s).hull = s.hull :=
  State.hull_of_keel (State.failTape_keel st s)

@[simp] theorem State.readTrack_keel (s : State) : (State.readTrack s).keel = s.keel := by
  unfold State.readTrack
  split
  · apply State.keel_upd <;> rfl
  · dsimp only
    split <;> simp [State.keel_upd]

@[simp] theorem State.readTrack_hull (s : State) : (State.readTrack s).hull = s.hull :=
  State.hull_of_keel (State.readTrack_keel s)

@[simp] theorem State.takeBits_keel (i n : Nat) (s : State) : (State.takeBits i n s).keel = s.keel := by
  unfold State.takeBits
  (repeat' (first | (simp; done) | split | (simp; split)))

@[simp] theorem State.takeBits_hull (i n : Nat) (s : State) : (State.takeBits i n s).hull = s.hull :=
  State.hull_of_keel (State.takeBits_keel i n s)

@[simp] theorem State.retrain_keel (i : Nat) (s : State) : (State.retrain i s).keel = s.keel := by
  unfold State.retrain
  (repeat' (first | (simp; done) | split | (simp; split)))

@[simp] theorem State.retrain_hull (i : Nat) (s : State) : (State.retrain i s).hull = s.hull :=
  State.hull_of_keel (State.retrain_keel i s)

@[simp] theorem State.goDown_keel (i : Nat) (s : State) : (State.goDown i s).keel = s.keel := by
  unfold State.goDown
  (repeat' (first | (simp; done) | split | (simp; split)))

@[simp] theorem State.goDown_hull (i : Nat) (s : State) : (State.goDown i s).hull = s.hull :=
  State.hull_of_keel (State.goDown_keel i s)

@[simp] theorem State.beginSwap_keel (i l : Nat) (s : State) : (State.beginSwap i l s).keel = s.keel := by
  unfold State.beginSwap
  (repeat' (first | (simp; done) | split | (simp; split)))

@[simp] theorem State.beginSwap_hull (i l : Nat) (s : State) : (State.beginSwap i l s).hull = s.hull :=
  State.hull_of_keel (State.beginSwap_keel i l s)

@[simp] theorem State.reloadRegs_keel (s : State) : (State.reloadRegs s).keel = s.keel := by
  unfold State.reloadRegs
  (repeat' (first | (simp; done) | split | (simp; split)))

@[simp] theorem State.reloadRegs_hull (s : State) : (State.reloadRegs s).hull = s.hull :=
  State.hull_of_keel (State.reloadRegs_keel s)

@[simp] theorem State.finishTraining_keel (i : Nat) (aligned failed : List Nat) (s : State) : (State.finishTraining i aligned failed s).keel = s.keel := by
  unfold State.finishTraining
  (repeat' (first | (simp; done) | split | (simp; split)))

@[simp] theorem State.finishTraining_hull (i : Nat) (aligned failed : List Nat) (s : State) : (State.finishTraining i aligned failed s).hull = s.hull :=
  State.hull_of_keel (State.finishTraining_keel i aligned failed s)

@[simp] theorem State.readEeprom_keel (i : Nat) (b : Bytes) (s : State) : (State.readEeprom i b s).keel = s.keel := by
  unfold State.readEeprom
  split
  · dsimp only
    split
    · rfl
    · rw [State.reloadRegs_keel]
      apply State.keel_upd <;> rfl
  · rfl

@[simp] theorem State.readEeprom_hull (i : Nat) (b : Bytes) (s : State) : (State.readEeprom i b s).hull = s.hull := State.hull_of_keel (State.readEeprom_keel i b s)

@[simp] theorem calExportBody_keel (r : MbReq) (s : State) : (calExportBody r s).keel = s.keel := by
  unfold calExportBody
  (repeat' (first | (simp; done) | split | (simp; split)))

@[simp] theorem calExportBody_hull (r : MbReq) (s : State) : (calExportBody r s).hull = s.hull :=
  State.hull_of_keel (calExportBody_keel r s)

@[simp] theorem serveCalExport_keel (a : MbReq) (s : State) : (serveCalExport a s).keel = s.keel := by
  unfold serveCalExport
  (repeat' (first | (simp; done) | split | (simp; split)))

@[simp] theorem serveCalExport_hull (a : MbReq) (s : State) : (serveCalExport a s).hull = s.hull :=
  State.hull_of_keel (serveCalExport_keel a s)

@[simp] theorem calWriteBody_keel (r : MbReq) (s : State) : (calWriteBody r s).keel = s.keel := by
  unfold calWriteBody
  dsimp only
  split; · simp
  split; · simp
  split; · simp
  split; · simp
  split; · simp
  generalize (if r.aux = [] then fit 33280 r.io.data else fit 33280 (r.aux.map (fun x => byte (ofSigned 8 x)))) = back
  split
  · simp [State.keel_upd]
  · rw [State.done_keel, State.reloadRegs_keel]
    refine Eq.trans (b := (s.emit (.eeprom (fit 33280 r.io.data))).keel) ?_ (by simp)
    apply State.keel_upd <;> rfl

@[simp] theorem calWriteBody_hull (r : MbReq) (s : State) : (calWriteBody r s).hull = s.hull := State.hull_of_keel (calWriteBody_keel r s)

@[simp] theorem serveCalWrite_keel (a : MbReq) (s : State) : (serveCalWrite a s).keel = s.keel := by
  unfold serveCalWrite
  (repeat' (first | (simp; done) | split | (simp; split)))

@[simp] theorem serveCalWrite_hull (a : MbReq) (s : State) : (serveCalWrite a s).hull = s.hull :=
  State.hull_of_keel (serveCalWrite_keel a s)

@[simp] theorem laneStatusBody_keel (r : MbReq) (s : State) : (laneStatusBody r s).keel = s.keel := by
  unfold laneStatusBody
  (repeat' (first | (simp; done) | split | (simp; split)))

@[simp] theorem laneStatusBody_hull (r : MbReq) (s : State) : (laneStatusBody r s).hull = s.hull :=
  State.hull_of_keel (laneStatusBody_keel r s)

@[simp] theorem serveLaneStatus_keel (a : MbReq) (s : State) : (serveLaneStatus a s).keel = s.keel := by
  unfold serveLaneStatus
  (repeat' (first | (simp; done) | split | (simp; split)))

@[simp] theorem serveLaneStatus_hull (a : MbReq) (s : State) : (serveLaneStatus a s).hull = s.hull :=
  State.hull_of_keel (serveLaneStatus_keel a s)

@[simp] theorem State.testUnit_keel (cls num : Nat) (fails : Bool) (s : State) : (State.testUnit cls num fails s).keel = s.keel := by
  unfold State.testUnit
  (repeat' (first | (simp; done) | split | (simp; split)))

@[simp] theorem State.testUnit_hull (cls num : Nat) (fails : Bool) (s : State) : (State.testUnit cls num fails s).hull = s.hull :=
  State.hull_of_keel (State.testUnit_keel cls num fails s)

@[simp] theorem unitControlBody_keel (r : MbReq) (s : State) : (unitControlBody r s).keel = s.keel := by
  unfold unitControlBody
  (repeat' (first | (simp; done) | split | (simp; split)))

@[simp] theorem unitControlBody_hull (r : MbReq) (s : State) : (unitControlBody r s).hull = s.hull :=
  State.hull_of_keel (unitControlBody_keel r s)

@[simp] theorem serveUnitControl_keel (a : MbReq) (s : State) : (serveUnitControl a s).keel = s.keel := by
  unfold serveUnitControl
  (repeat' (first | (simp; done) | split | (simp; split)))

@[simp] theorem serveUnitControl_hull (a : MbReq) (s : State) : (serveUnitControl a s).hull = s.hull :=
  State.hull_of_keel (serveUnitControl_keel a s)

end Sys2Proof.Machine
end

