-- ==== Sys2Proof/Laws/KeelTwin.lean ====
section
/-! SUPPORT. What the operations of boot, motion, twin, replay, held requests, registers leave alone: keel and hull of the state. -/

set_option linter.unusedSimpArgs false

namespace Sys2Proof.Machine

open Sys2Proof

@[simp] theorem State.bootTests_keel (ok : Bool) (passed : List Nat) (s : State) : (State.bootTests ok passed s).keel = s.keel := by
  unfold State.bootTests
  (repeat' (first | (simp; done) | split | (simp; split)))

@[simp] theorem State.bootTests_hull (ok : Bool) (passed : List Nat) (s : State) : (State.bootTests ok passed s).hull = s.hull :=
  State.hull_of_keel (State.bootTests_keel ok passed s)

@[simp] theorem State.bootPorts_keel (ports : List PortTraining) (eeprom : Bytes) (s : State) : (State.bootPorts ports eeprom s).keel = s.keel := by
  unfold State.bootPorts
  (repeat' (first | (simp; done) | split | (simp; split)))

@[simp] theorem State.bootPorts_hull (ports : List PortTraining) (eeprom : Bytes) (s : State) : (State.bootPorts ports eeprom s).hull = s.hull :=
  State.hull_of_keel (State.bootPorts_keel ports eeprom s)

@[simp] theorem State.consumeReport_keel (q : Nat) (p : Pair) (s : State) : (State.consumeReport q p s).keel = s.keel := by
  unfold State.consumeReport
  (repeat' (first | (simp; done) | split | (simp; split)))

@[simp] theorem State.consumeReport_hull (q : Nat) (p : Pair) (s : State) : (State.consumeReport q p s).hull = s.hull :=
  State.hull_of_keel (State.consumeReport_keel q p s)

@[simp] theorem State.runAtTarget_keel (s : State) : (State.runAtTarget s).keel = s.keel := by
  unfold State.runAtTarget
  (repeat' (first | (simp; done) | split | (simp; split)))

@[simp] theorem State.runAtTarget_hull (s : State) : (State.runAtTarget s).hull = s.hull :=
  State.hull_of_keel (State.runAtTarget_keel s)

@[simp] theorem State.firstStreaming_keel (s : State) : (State.firstStreaming s).keel = s.keel := by
  unfold State.firstStreaming
  (repeat' (first | (simp; done) | split | (simp; split)))

@[simp] theorem State.firstStreaming_hull (s : State) : (State.firstStreaming s).hull = s.hull :=
  State.hull_of_keel (State.firstStreaming_keel s)

@[simp] theorem State.motionFault_keel (s : State) : (State.motionFault s).keel = s.keel := by
  unfold State.motionFault
  (repeat' (first | (simp; done) | split | (simp; split)))

@[simp] theorem State.motionFault_hull (s : State) : (State.motionFault s).hull = s.hull :=
  State.hull_of_keel (State.motionFault_keel s)

@[simp] theorem State.takeReport_keel (e : Bytes) (s : State) : (State.takeReport e s).keel = s.keel := by
  unfold State.takeReport
  (repeat' (first | (simp; done) | split | (simp; split)))

@[simp] theorem State.takeReport_hull (e : Bytes) (s : State) : (State.takeReport e s).hull = s.hull :=
  State.hull_of_keel (State.takeReport_keel e s)

@[simp] theorem State.peerIn_keel (s : State) : (State.peerIn s).keel = s.keel := by
  unfold State.peerIn
  (repeat' (first | (simp; done) | split | (simp; split)))

@[simp] theorem State.peerIn_hull (s : State) : (State.peerIn s).hull = s.hull :=
  State.hull_of_keel (State.peerIn_keel s)

@[simp] theorem State.takeDesc_keel (d : PackDesc) (s : State) : (State.takeDesc d s).keel = s.keel := by
  unfold State.takeDesc
  (repeat' (first | (simp; done) | split | (simp; split)))

@[simp] theorem State.takeDesc_hull (d : PackDesc) (s : State) : (State.takeDesc d s).hull = s.hull :=
  State.hull_of_keel (State.takeDesc_keel d s)

@[simp] theorem State.takeForming_keel (f : FormRec) (s : State) : (State.takeForming f s).keel = s.keel := by
  unfold State.takeForming
  (repeat' (first | (simp; done) | split | (simp; split)))

@[simp] theorem State.takeForming_hull (f : FormRec) (s : State) : (State.takeForming f s).hull = s.hull :=
  State.hull_of_keel (State.takeForming_keel f s)

@[simp] theorem State.takeHeat_keel (wrap h kind : Nat) (serials retired : List Nat) (s : State) : (State.takeHeat wrap h kind serials retired s).keel = s.keel := by
  unfold State.takeHeat
  (repeat' (first | (simp; done) | split | (simp; split)))

@[simp] theorem State.takeHeat_hull (wrap h kind : Nat) (serials retired : List Nat) (s : State) : (State.takeHeat wrap h kind serials retired s).hull = s.hull :=
  State.hull_of_keel (State.takeHeat_keel wrap h kind serials retired s)

@[simp] theorem State.takeOpened_keel (x : Rec) (s : State) : (State.takeOpened x s).keel = s.keel := by
  unfold State.takeOpened
  (repeat' (first | (simp; done) | split | (simp; split)))

@[simp] theorem State.takeOpened_hull (x : Rec) (s : State) : (State.takeOpened x s).hull = s.hull :=
  State.hull_of_keel (State.takeOpened_keel x s)

@[simp] theorem State.takeSealed_keel (r len : Nat) (s : State) : (State.takeSealed r len s).keel = s.keel := by
  unfold State.takeSealed
  (repeat' (first | (simp; done) | split | (simp; split)))

@[simp] theorem State.takeSealed_hull (r len : Nat) (s : State) : (State.takeSealed r len s).hull = s.hull :=
  State.hull_of_keel (State.takeSealed_keel r len s)

@[simp] theorem State.takeImage_keel (b : Bytes) (s : State) : (State.takeImage b s).keel = s.keel := by
  unfold State.takeImage
  (repeat' (first | (simp; done) | split | (simp; split)))

@[simp] theorem State.takeImage_hull (b : Bytes) (s : State) : (State.takeImage b s).hull = s.hull :=
  State.hull_of_keel (State.takeImage_keel b s)

@[simp] theorem State.takeDeferred_keel (r q : Nat) (st : BitVec 16) (s : State) : (State.takeDeferred r q st s).keel = s.keel := by
  unfold State.takeDeferred
  (repeat' (first | (simp; done) | split | (simp; split)))

@[simp] theorem State.takeDeferred_hull (r q : Nat) (st : BitVec 16) (s : State) : (State.takeDeferred r q st s).hull = s.hull :=
  State.hull_of_keel (State.takeDeferred_keel r q st s)

@[simp] theorem State.doubt_keel (m : MirrorItem) (s : State) : (State.doubt m s).keel = s.keel := by
  unfold State.doubt
  (repeat' (first | (simp; done) | split | (simp; split)))

@[simp] theorem State.doubt_hull (m : MirrorItem) (s : State) : (State.doubt m s).hull = s.hull :=
  State.hull_of_keel (State.doubt_keel m s)

@[simp] theorem State.claimPorts_keel (s : State) : (State.claimPorts s).keel = s.keel := by
  unfold State.claimPorts
  (repeat' (first | (simp; done) | split | (simp; split)))

@[simp] theorem State.claimPorts_hull (s : State) : (State.claimPorts s).hull = s.hull :=
  State.hull_of_keel (State.claimPorts_keel s)

@[simp] theorem State.beginTakeover_keel (s : State) : (State.beginTakeover s).keel = s.keel := by
  unfold State.beginTakeover
  (repeat' (first | (simp; done) | split | (simp; split)))

@[simp] theorem State.beginTakeover_hull (s : State) : (State.beginTakeover s).hull = s.hull :=
  State.hull_of_keel (State.beginTakeover_keel s)

@[simp] theorem settleOwn_keel (a : List (Nat × Frame)) (s : State) : (settleOwn a s).keel = s.keel := by
  induction a generalizing s <;> first | (simp [settleOwn, *]; done) | (unfold settleOwn; (repeat' (first | (simp [settleOwn, *]; done) | split)))

@[simp] theorem settleOwn_hull (a : List (Nat × Frame)) (s : State) : (settleOwn a s).hull = s.hull :=
  State.hull_of_keel (settleOwn_keel a s)

@[simp] theorem State.losePeer_keel (s : State) : (State.losePeer s).keel = s.keel := by
  unfold State.losePeer
  (repeat' (first | (simp; done) | split | (simp; split)))

@[simp] theorem State.losePeer_hull (s : State) : (State.losePeer s).hull = s.hull :=
  State.hull_of_keel (State.losePeer_keel s)

@[simp] theorem State.resumeWriting_keel (s : State) : (State.resumeWriting s).keel = s.keel := by
  unfold State.resumeWriting
  (repeat' (first | (simp; done) | split | (simp; split)))

@[simp] theorem State.resumeWriting_hull (s : State) : (State.resumeWriting s).hull = s.hull :=
  State.hull_of_keel (State.resumeWriting_keel s)

@[simp] theorem State.replay_keel (m : MirrorItem) (s : State) : (State.replay m s).keel = s.keel := by
  unfold State.replay
  (repeat' (first | (simp; done) | split | (simp; split)))

@[simp] theorem State.replay_hull (m : MirrorItem) (s : State) : (State.replay m s).hull = s.hull :=
  State.hull_of_keel (State.replay_keel m s)

@[simp] theorem twinPairBody_keel (r : MbReq) (s : State) : (twinPairBody r s).keel = s.keel := by
  unfold twinPairBody
  dsimp only
  generalize List.replicate 4096 (0xFF : Byte) = x
  (repeat' (first | (simp [State.keel_upd]; done) | split))

@[simp] theorem twinPairBody_hull (r : MbReq) (s : State) : (twinPairBody r s).hull = s.hull := State.hull_of_keel (twinPairBody_keel r s)

@[simp] theorem serveTwinPair_keel (a : MbReq) (s : State) : (serveTwinPair a s).keel = s.keel := by
  unfold serveTwinPair
  (repeat' (first | (simp; done) | split | (simp; split)))

@[simp] theorem serveTwinPair_hull (a : MbReq) (s : State) : (serveTwinPair a s).hull = s.hull :=
  State.hull_of_keel (serveTwinPair_keel a s)

@[simp] theorem twinSwapBody_keel (r : MbReq) (s : State) : (twinSwapBody r s).keel = s.keel := by
  unfold twinSwapBody
  (repeat' (first | (simp; done) | split | (simp; split)))

@[simp] theorem twinSwapBody_hull (r : MbReq) (s : State) : (twinSwapBody r s).hull = s.hull :=
  State.hull_of_keel (twinSwapBody_keel r s)

@[simp] theorem serveTwinSwap_keel (a : MbReq) (s : State) : (serveTwinSwap a s).keel = s.keel := by
  unfold serveTwinSwap
  (repeat' (first | (simp; done) | split | (simp; split)))

@[simp] theorem serveTwinSwap_hull (a : MbReq) (s : State) : (serveTwinSwap a s).hull = s.hull :=
  State.hull_of_keel (serveTwinSwap_keel a s)

@[simp] theorem twinStatusBody_keel (r : MbReq) (s : State) : (twinStatusBody r s).keel = s.keel := by
  unfold twinStatusBody
  (repeat' (first | (simp; done) | split | (simp; split)))

@[simp] theorem twinStatusBody_hull (r : MbReq) (s : State) : (twinStatusBody r s).hull = s.hull :=
  State.hull_of_keel (twinStatusBody_keel r s)

@[simp] theorem serveTwinStatus_keel (a : MbReq) (s : State) : (serveTwinStatus a s).keel = s.keel := by
  unfold serveTwinStatus
  (repeat' (first | (simp; done) | split | (simp; split)))

@[simp] theorem serveTwinStatus_hull (a : MbReq) (s : State) : (serveTwinStatus a s).hull = s.hull :=
  State.hull_of_keel (serveTwinStatus_keel a s)

@[simp] theorem State.unfreeze_keel (s : State) : (State.unfreeze s).keel = s.keel := by
  unfold State.unfreeze
  (repeat' (first | (simp; done) | split | (simp; split)))

@[simp] theorem State.unfreeze_hull (s : State) : (State.unfreeze s).hull = s.hull :=
  State.hull_of_keel (State.unfreeze_keel s)

@[simp] theorem snapshotReadBody_keel (r : MbReq) (s : State) : (snapshotReadBody r s).keel = s.keel := by
  unfold snapshotReadBody
  (repeat' (first | (simp; done) | split | (simp; split)))

@[simp] theorem snapshotReadBody_hull (r : MbReq) (s : State) : (snapshotReadBody r s).hull = s.hull :=
  State.hull_of_keel (snapshotReadBody_keel r s)

@[simp] theorem serveSnapshotRead_keel (a : MbReq) (s : State) : (serveSnapshotRead a s).keel = s.keel := by
  unfold serveSnapshotRead
  (repeat' (first | (simp; done) | split | (simp; split)))

@[simp] theorem serveSnapshotRead_hull (a : MbReq) (s : State) : (serveSnapshotRead a s).hull = s.hull :=
  State.hull_of_keel (serveSnapshotRead_keel a s)

@[simp] theorem benchAct_keel (a : Nat) (p : Bytes) (r : MbReq) (s : State) : (benchAct a p r s).keel = s.keel := by
  unfold benchAct
  (repeat' (first | (simp; done) | split | (simp; split)))

@[simp] theorem benchAct_hull (a : Nat) (p : Bytes) (r : MbReq) (s : State) : (benchAct a p r s).hull = s.hull :=
  State.hull_of_keel (benchAct_keel a p r s)

@[simp] theorem benchControlBody_keel (r : MbReq) (s : State) : (benchControlBody r s).keel = s.keel := by
  unfold benchControlBody
  (repeat' (first | (simp; done) | split | (simp; split)))

@[simp] theorem benchControlBody_hull (r : MbReq) (s : State) : (benchControlBody r s).hull = s.hull :=
  State.hull_of_keel (benchControlBody_keel r s)

@[simp] theorem serveBenchControl_keel (a : MbReq) (s : State) : (serveBenchControl a s).keel = s.keel := by
  unfold serveBenchControl
  (repeat' (first | (simp; done) | split | (simp; split)))

@[simp] theorem serveBenchControl_hull (a : MbReq) (s : State) : (serveBenchControl a s).hull = s.hull :=
  State.hull_of_keel (serveBenchControl_keel a s)

@[simp] theorem mbServe_hull (op : Nat) (r : MbReq) (s : State) : (mbServe op r s).hull = s.hull := by
  unfold mbServe
  split
  · rename_i f hf
    have : ∀ e ∈ services ++ services2, ∀ r s, (e.2 r s).hull = s.hull := by
      intro e he
      simp only [services, services2, List.cons_append, List.nil_append, List.mem_cons, List.not_mem_nil, or_false] at he
      rcases he with rfl | rfl | rfl | rfl | rfl | rfl | rfl | rfl | rfl | rfl | rfl | rfl | rfl | rfl | rfl | rfl | rfl | rfl | rfl | rfl | rfl | rfl | rfl | rfl | rfl | rfl | rfl | rfl | rfl | rfl | rfl | rfl | rfl | rfl | rfl | rfl | rfl | rfl | rfl | rfl | rfl | rfl | rfl | rfl | rfl | rfl | rfl | rfl <;> intro r s <;> simp
    have hm : ∃ e ∈ services ++ services2, e.2 = f := by
      simp only [assocGet, Option.map_eq_some_iff] at hf
      obtain ⟨e, he, rfl⟩ := hf
      exact ⟨e, List.mem_of_find?_eq_some he, rfl⟩
    obtain ⟨e, he, rfl⟩ := hm
    exact this e he r s
  · simp

@[simp] theorem serveHeldN_hull (l : List Nat) (s : State) : (serveHeldN l s).hull = s.hull := by
  induction l generalizing s with
  | nil => rfl
  | cons m r ih =>
    unfold serveHeldN
    dsimp only
    split
    · exact ih s
    · split
      · rw [ih]; apply State.hull_upd <;> rfl
      · rw [ih]; simp

@[simp] theorem State.serveHeld_hull (s : State) : (State.serveHeld s).hull = s.hull := by
  unfold State.serveHeld
  (repeat' (first | (simp; done) | split | (simp; split)))

@[simp] theorem State.endActivation_hull (st : BitVec 16) (detail : Nat) (s : State) : (State.endActivation st detail s).hull = s.hull := by
  unfold State.endActivation
  (repeat' (first | (simp; done) | split | (simp; split)))

@[simp] theorem State.afterEntry_hull (t : BitVec 2) (s : State) : (State.afterEntry t s).hull = s.hull := by
  unfold State.afterEntry
  (repeat' (first | (simp; done) | split | (simp; split)))

@[simp] theorem rejectTests_keel (a : List Nat) (s : State) : (rejectTests a s).keel = s.keel := by
  induction a generalizing s <;> first | (simp [rejectTests, *]; done) | (unfold rejectTests; (repeat' (first | (simp [rejectTests, *]; done) | split)))

@[simp] theorem rejectTests_hull (a : List Nat) (s : State) : (rejectTests a s).hull = s.hull :=
  State.hull_of_keel (rejectTests_keel a s)

@[simp] theorem serveTests_hull (a : List Nat) (s : State) : (serveTests a s).hull = s.hull := by
  induction a generalizing s <;> first | (simp [serveTests, *]; done) | (unfold serveTests; (repeat' (first | (simp [serveTests, *]; done) | split)))

@[simp] theorem State.timeIn_keel (kind v : Nat) (s : State) : (State.timeIn kind v s).keel = s.keel := by
  unfold State.timeIn
  (repeat' (first | (simp; done) | split | (simp; split)))

@[simp] theorem State.timeIn_hull (kind v : Nat) (s : State) : (State.timeIn kind v s).hull = s.hull :=
  State.hull_of_keel (State.timeIn_keel kind v s)

@[simp] theorem State.goWrite_hull (m : Fin 16) (v : Nat) (io : Io) (aux : List Int) (s : State) : (State.goWrite m v io aux s).hull = s.hull := by
  unfold State.goWrite
  (repeat' (first | (simp; done) | split | (simp; split)))

@[simp] theorem State.bufWrite_keel (off size v : Nat) (s : State) : (State.bufWrite off size v s).keel = s.keel := by
  unfold State.bufWrite
  (repeat' (first | (simp; done) | split | (simp; split)))

@[simp] theorem State.bufWrite_hull (off size v : Nat) (s : State) : (State.bufWrite off size v s).hull = s.hull :=
  State.hull_of_keel (State.bufWrite_keel off size v s)

@[simp] theorem State.msixWrite_keel (o v : Nat) (s : State) : (State.msixWrite o v s).keel = s.keel := by
  unfold State.msixWrite
  (repeat' (first | (simp; done) | split | (simp; split)))

@[simp] theorem State.msixWrite_hull (o v : Nat) (s : State) : (State.msixWrite o v s).hull = s.hull :=
  State.hull_of_keel (State.msixWrite_keel o v s)

@[simp] theorem State.evqBaseWrite_keel (v : Nat) (s : State) : (State.evqBaseWrite v s).keel = s.keel := by
  unfold State.evqBaseWrite
  (repeat' (first | (simp; done) | split | (simp; split)))

@[simp] theorem State.evqBaseWrite_hull (v : Nat) (s : State) : (State.evqBaseWrite v s).hull = s.hull :=
  State.hull_of_keel (State.evqBaseWrite_keel v s)

end Sys2Proof.Machine
end

