-- ==== Sys2Proof/Laws/Mem.lean ====
section
/-! SUPPORT. The Hearth's contents: every write keeps the canonical form, a read after a write. -/

namespace Sys2Proof.Machine

open Sys2Proof

/-- An address below every listed one is not listed: it reads zero. -/
theorem Mem.read_below {m : List Host.Cell} {x : Nat} (h : ∀ c ∈ m, x < c.1) : Mem.read m x = 0 := by
  induction m with
  | nil => rfl
  | cons c r ih =>
    have hx := h c (by simp)
    have hr : Mem.read r x = 0 := ih (fun d hd => h d (by simp [hd]))
    simp only [Mem.read]
    rw [if_neg (by omega), hr]

/-- The addresses after a write: those before, and the one written. -/
theorem Mem.write_addrs {m : List Host.Cell} {x : Nat} {v : Byte} {c : Host.Cell} (h : c ∈ Mem.write m x v) : c ∈ m ∨ c.1 = x := by
  induction m with
  | nil =>
    simp only [Mem.write] at h
    split at h <;> simp at h
    exact .inr (by simp [h])
  | cons a r ih =>
    simp only [Mem.write] at h
    split at h
    · split at h
      · exact .inl h
      · rcases List.mem_cons.1 h with rfl | h
        · exact .inr rfl
        · exact .inl h
    · split at h
      · split at h
        · exact .inl (by simp [h])
        · rcases List.mem_cons.1 h with rfl | h
          · exact .inr rfl
          · exact .inl (by simp [h])
      · rcases List.mem_cons.1 h with rfl | h
        · exact .inl (by simp)
        · rcases ih h with h | h
          · exact .inl (by simp [h])
          · exact .inr h

/-- The canonical form of a tail. -/
theorem Mem.wf_tail {c : Host.Cell} {r : List Host.Cell} (h : Mem.wf (c :: r)) : Mem.wf r :=
  ⟨(List.pairwise_cons.1 h.1).2, fun d hd => h.2 d (by simp [hd])⟩

/-- What is listed behind the first cell lies above it. -/
theorem Mem.wf_head {c : Host.Cell} {r : List Host.Cell} (h : Mem.wf (c :: r)) : ∀ d ∈ r, c.1 < d.1 :=
  fun d hd => (List.pairwise_cons.1 h.1).1 d.1 (List.mem_map_of_mem hd)

/-- A cell before a canonical list that lies above it. -/
theorem Mem.wf_cons {c : Host.Cell} {r : List Host.Cell} (h : Mem.wf r) (hc : c.2 ≠ 0) (hb : ∀ d ∈ r, c.1 < d.1) : Mem.wf (c :: r) := by
  refine ⟨List.pairwise_cons.2 ⟨?_, h.1⟩, ?_⟩
  · intro a ha
    obtain ⟨d, hd, rfl⟩ := List.mem_map.1 ha
    exact hb d hd
  · intro d hd
    rcases List.mem_cons.1 hd with rfl | hd
    · exact hc
    · exact h.2 d hd

/-- A write keeps the canonical form. -/
theorem Mem.write_wf {m : List Host.Cell} (h : Mem.wf m) (x : Nat) (v : Byte) : Mem.wf (Mem.write m x v) := by
  induction m with
  | nil =>
    simp only [Mem.write]
    split
    · exact h
    · exact Mem.wf_cons h ‹_› (by simp)
  | cons c r ih =>
    have ht := Mem.wf_tail h
    have hh := Mem.wf_head h
    have hc : c.2 ≠ 0 := h.2 c (by simp)
    simp only [Mem.write]
    split
    · split
      · exact h
      · refine Mem.wf_cons h ‹_› ?_
        intro d hd
        rcases List.mem_cons.1 hd with rfl | hd
        · assumption
        · have := hh d hd
          omega
    · split
      · rename_i hlt heq
        split
        · exact ht
        · exact Mem.wf_cons ht ‹_› (by simpa [heq] using hh)
      · refine Mem.wf_cons (ih ht) hc ?_
        intro d hd
        rcases Mem.write_addrs hd with hd | hd
        · exact hh d hd
        · omega

/-- A read after a write: the value written at its address, what was there before at any other. -/
theorem Mem.read_write {m : List Host.Cell} (h : Mem.wf m) (x y : Nat) (v : Byte) :
    Mem.read (Mem.write m x v) y = if y = x then v else Mem.read m y := by
  induction m with
  | nil =>
    simp only [Mem.write]
    by_cases hy : y = x
    · subst hy; split <;> simp_all [Mem.read]
    · split <;> simp [Mem.read, Ne.symm hy]
  | cons c r ih =>
    obtain ⟨a, b⟩ := c
    have hh := Mem.wf_head h
    have ht := ih (Mem.wf_tail h)
    simp only [Mem.write]
    split
    · rename_i hlt
      have hz : Mem.read ((a, b) :: r) x = 0 := Mem.read_below (by
        intro d hd
        rcases List.mem_cons.1 hd with rfl | hd
        · exact hlt
        · exact Nat.lt_trans hlt (hh d hd))
      split
      · split
        · subst_vars; exact hz
        · rfl
      · by_cases hy : y = x
        · simp [Mem.read, hy]
        · rw [if_neg hy, Mem.read, if_neg (Ne.symm hy)]
    · split
      · rename_i hxa
        subst hxa
        have hz : Mem.read r x = 0 := Mem.read_below hh
        split
        · by_cases hy : y = x
          · subst_vars; simp [hz]
          · rw [if_neg hy, Mem.read, if_neg (Ne.symm hy)]
        · by_cases hy : y = x
          · simp [Mem.read, hy]
          · simp only [Mem.read]
            rw [if_neg (Ne.symm hy), if_neg hy, if_neg (Ne.symm hy)]
      · simp only [Mem.read]
        split
        · subst_vars
          rw [if_neg (by omega)]
        · exact ht

/-- Writes of a byte string keep the canonical form. -/
theorem Mem.writes_wf {m : List Host.Cell} (h : Mem.wf m) (a : Nat) (b : Bytes) : Mem.wf (Mem.writes m a b) := by
  induction b generalizing m a with
  | nil => exact h
  | cons x r ih => exact ih (Mem.write_wf h a x) _

/-- A write of staged data keeps the canonical form. -/
theorem Hearth.stageWrite_wf (h : Hearth) (c : List (Nat × Nat)) (o : Nat) (d : Bytes) (w : Mem.wf h.mem) : Mem.wf (h.stageWrite c o d).mem := by
  induction d generalizing h o with
  | nil => exact w
  | cons b r ih =>
    simp only [Hearth.stageWrite]
    apply ih
    split
    · exact Mem.write_wf w _ _
    · exact w

end Sys2Proof.Machine
end

