-- ==== Sys2Proof/Laws/KeelRest.lean ====
section
/-! SUPPORT. The operations that do change the hull, each with all that it changes of it: FATAL and the gate lock, the time counter, the
Hearth's contents. -/

namespace Sys2Proof.Machine

open Sys2Proof

/-- What running operations may change of the hull: the Hearth's contents, in canonical form where they were; the time counter; FATAL and
the gate lock, set together and never cleared. -/
def Hull.Runs (a b : Hull) : Prop :=
  ∃ (m : List Host.Cell) (u : TimeUnit) (f : Bool),
    b = { a with mem := m, time := u, fatal := a.fatal || f, gateLocked := a.gateLocked || f } ∧ (Mem.wf a.mem → Mem.wf m)

theorem Hull.Runs.refl (a : Hull) : a.Runs a := ⟨a.mem, a.time, false, by simp, id⟩

theorem Hull.Runs.of_eq {a b : Hull} (h : b = a) : a.Runs b := h ▸ Hull.Runs.refl a

theorem Hull.Runs.trans {a b c : Hull} (h : a.Runs b) (k : b.Runs c) : a.Runs c := by
  obtain ⟨m, u, f, rfl, w⟩ := h
  obtain ⟨n, v, g, rfl, x⟩ := k
  exact ⟨n, v, f || g, by simp [Bool.or_assoc], fun y => x (w y)⟩

/-! ## FATAL -/

@[simp] theorem State.setFatal_hull (s : State) : s.setFatal.hull = { s.hull with fatal := true, gateLocked := true } := by
  simp [State.setFatal, State.hull]

@[simp] theorem State.stopFatal_hull (s : State) : s.stopFatal.hull = { s.hull with fatal := true, gateLocked := true } := by
  unfold State.stopFatal; split <;> simp

@[simp] theorem State.thermalTrip_hull (s : State) : s.thermalTrip.hull = { s.hull with fatal := true, gateLocked := true } := by
  unfold State.thermalTrip
  (repeat' (first | (simp; done) | split | (simp; split)))

theorem Hull.Runs.fatal {a b : Hull} (h : b = { a with fatal := true, gateLocked := true }) : a.Runs b :=
  ⟨a.mem, a.time, true, by simp [h], id⟩

/-- The owner of a region that meets an uncorrectable burst changes the hull by FATAL alone. -/
theorem State.ownerMeets_runs (req a : Nat) (s : State) : s.hull.Runs (s.ownerMeets req a).hull := by
  unfold State.ownerMeets
  split
  · exact .fatal (by simp)
  · apply Hull.Runs.of_eq
    (repeat' (first | (simp; done) | split | (simp; split)))

theorem State.meetBurst_runs (req a chan : Nat) (d : DramAddr) (e e' : List (Fin 80 × BitVec 8)) (s : State) :
    s.hull.Runs (s.meetBurst req a chan d e e').1.hull := by
  unfold State.meetBurst
  dsimp only
  split
  · exact .refl _
  · exact .of_eq (by simp)
  · generalize ((s.hearth.mirror || decide (a < journalBase)) && !s.hearth.bad.contains (a / 64) && _) = rescued
    cases rescued
    · exact .trans (.of_eq (by simp)) (State.ownerMeets_runs req (a / 64 * 64)
        (((s.modChan chan (HChan.countBad d.row s.hns)).markBad a).uncorrectable (a / 64 * 64) req))
    · cases classD a <;> exact .of_eq (by simp)

theorem scrubHit_runs (sc : Scrub) (x : ScrubHit) (s : State) : s.hull.Runs (scrubHit sc x s).2.hull := by
  unfold scrubHit
  split
  · exact .refl _
  · split
    · exact .refl _
    · dsimp only
      split
      · exact .refl _
      · exact State.meetBurst_runs ..
      · split <;> exact State.meetBurst_runs ..

theorem scrubHits_runs (l : List ScrubHit) (sc : Scrub) (s : State) : s.hull.Runs (scrubHits l sc s).2.hull := by
  induction l generalizing sc s with
  | nil => exact .refl _
  | cons x r ih => exact (scrubHit_runs sc x s).trans (ih _ _)

/-! ## The time counter -/

/-- One cycle of the time unit changes the hull by its counter alone. -/
@[simp] theorem State.tick_hull (s : State) : s.tick.hull = { s.hull with time := s.tick.time } := by
  unfold State.tick; split <;> simp [State.hull]

/-! ## The Hearth's contents -/

/-- An update of the Hearth's contents, as the hull sees it. -/
theorem State.hull_mem (s : State) (h : Hearth) (e : h.chans.length = s.hearth.chans.length) :
    ({ s with hearth := h } : State).hull = { s.hull with mem := h.mem } := by
  simp [State.hull, e]

theorem Hull.Runs.mem {a b : Hull} {m : List Host.Cell} (h : b = { a with mem := m }) (w : Mem.wf a.mem → Mem.wf m) : a.Runs b :=
  ⟨m, a.time, false, by simp [h], w⟩

/-- The contents of two Hearths with one hull are one. -/
theorem State.mem_of_hull {s t : State} (h : t.hull = s.hull) : t.hearth.mem = s.hearth.mem := congrArg Hull.mem h

/-- A write of staged data, after operations that keep the hull and before operations that keep it. -/
theorem State.hull_stage {s t u : State} {h : Hearth} {c : List (Nat × Nat)} {o : Nat} {d : Bytes} (e : t.hull = s.hull)
    (hc : h.chans = t.hearth.chans) (hm : h.mem = t.hearth.mem) (k : u.hull = ({ t with hearth := h.stageWrite c o d } : State).hull) :
    s.hull.Runs u.hull := by
  refine Hull.Runs.mem (m := (h.stageWrite c o d).mem) ?_ ?_
  · rw [k, State.hull_mem _ _ (by simp [hc]), e]
  · intro w
    apply Hearth.stageWrite_wf
    rw [hm, State.mem_of_hull e]
    exact w

/-- Staged data written by a SEGMENT WRITE keep the canonical form. -/
theorem segWriteData_runs (c : Cmd) (io : Io) (s : State) : s.hull.Runs (segWriteData c io s).hull := by
  unfold segWriteData
  dsimp only
  split
  · exact .refl _
  · split
    · exact .of_eq (by simp)
    · split
      · exact .of_eq (by simp)
      · apply State.hull_stage (t := (allocate c.num _ s).modCmd c.pair c.tag (fun (c : Cmd) => { c with waitChunks := false }))
        case k => simp only [Cmd.end_hull, State.mirror_hull, State.dmaDigests_hull, State.modRec_hull]; rfl
        case e => simp
        case hc => rfl
        case hm => rfl

/-- A SEGMENT WRITE that may proceed, wait, or be turned away. -/
theorem segWriteBody_runs (io : Io) (c : Cmd) (s : State) : s.hull.Runs (segWriteBody io c s).hull := by
  unfold segWriteBody
  dsimp only
  (repeat' (first | exact segWriteData_runs _ _ _ | (apply Hull.Runs.of_eq; simp; done) | split))

/-- Payload that reaches the standby's own staging. -/
theorem State.takePayload_runs (r off : Nat) (b : Bytes) (s : State) : s.hull.Runs (s.takePayload r off b).hull := by
  unfold State.takePayload
  dsimp only
  split
  · exact .refl _
  · apply State.hull_stage (t := allocate r _ s)
    case k => simp only [State.modRec_hull]; rfl
    case e => simp
    case hc => rfl
    case hm => rfl

/-- An item that reaches the standby. -/
theorem State.takeItem_runs (m : MirrorItem) (s : State) : s.hull.Runs (s.takeItem m).hull := by
  unfold State.takeItem
  dsimp only
  (repeat' (first | exact State.takePayload_runs .. | (apply Hull.Runs.of_eq; simp; done) | split))

/-! ## Register writes -/

/-- An update of the time unit, as the hull sees it. -/
theorem Hull.Runs.clock {a b : Hull} {u : TimeUnit} (h : b = { a with time := u }) : a.Runs b :=
  ⟨a.mem, u, false, by simp [h], id⟩

/-- An update of the time unit after operations that keep the hull. -/
@[simp] theorem State.hull_clock (s : State) (u : TimeUnit) : ({ s with time := u } : State).hull = { s.hull with time := u } := rfl

@[simp] theorem nextOf_next (s t : State) : nextOf (.next t) s = t := rfl

theorem State.plainWrite_runs (off v : Nat) (s : State) : s.hull.Runs (s.plainWrite off v).hull := by
  unfold State.plainWrite
  dsimp only
  split
  · split <;> exact .of_eq (by simp)
  · split
    · exact .of_eq (by simp)
    · split
      · exact .clock (State.hull_clock ..)
      · split <;> exact .of_eq (by simp)

theorem State.timeCommand_runs (v : Nat) (s : State) : s.hull.Runs (s.timeCommand v).hull := by
  unfold State.timeCommand execTimeSet execTimeStep execTimeSlew
  dsimp only
  split <;> simp only [nextOf_next, State.timeIn_hull, State.hull_clock, State.linkIn_hull] <;> first | exact .clock rfl | exact .refl _

@[simp] theorem State.zeroizeWrite_hull (v : Nat) (s : State) : (s.zeroizeWrite v).hull = s.hull := by
  unfold State.zeroizeWrite; split <;> (try split) <;> simp

@[simp] theorem State.controlWrite_hull (v : Nat) (s : State) : (s.controlWrite v).hull = s.hull := by
  unfold State.controlWrite execGlobalEnable execOrderlyShutdown
  dsimp only
  (repeat' (first | (simp; done) | split | (simp; split)))

theorem State.doorbellWrite_runs (o v : Nat) (io : Io) (aux : List Int) (s : State) : s.hull.Runs (s.doorbellWrite o v io aux).hull := by
  unfold State.doorbellWrite execSqTailDoorbell execCqHeadDoorbell execEvqHeadDoorbell
  dsimp only [nextOf_next]
  split
  · split <;> exact .of_eq (by (repeat' (first | (simp; done) | split | (simp; split))))
  · split
    · exact .of_eq (by (repeat' (first | (simp; done) | split | (simp; split))))
    · split
      · exact .of_eq (by simp)
      · have h := State.plainWrite_runs (0x30000 + o) v s.linkIn
        rwa [State.linkIn_hull] at h

end Sys2Proof.Machine
end

