-- ==== Sys2Proof/Laws/Only.lean ====
section
/-! SUPPORT. What the shared operations of the host side leave alone: one frame for each, to be cited and never unfolded. -/

namespace Sys2Proof.Machine

theorem Only.refl (bs : List Block) (s : State) : Only bs s s := ⟨List.prefix_refl _, fun b _ => by cases b <;> rfl⟩

theorem Block.same_trans {b : Block} {s t u : State} (h : b.same s t) (k : b.same t u) : b.same s u := by
  cases b <;> exact Eq.trans k h

/-- Two commands' frames joined. -/
theorem Only.trans {bs : List Block} {s t u : State} (h : Only bs s t) (k : Only bs t u) : Only bs s u :=
  ⟨h.1.trans k.1, fun b hb => Block.same_trans (h.2 b hb) (k.2 b hb)⟩

/-- A frame with more parts. -/
theorem Only.mono {bs cs : List Block} {s t : State} (h : Only bs s t) (hs : ∀ b ∈ bs, b ∈ cs) : Only cs s t :=
  ⟨h.1, fun b hb => h.2 b (fun x => hb (hs b x))⟩

theorem Only.ite {bs : List Block} {s t u : State} {c : Prop} [Decidable c] (h : Only bs s t) (k : Only bs s u) :
    Only bs s (if c then t else u) := by
  split
  · exact h
  · exact k

theorem only_foldl {bs : List Block} {α : Type} {f : State → α → State} (h : ∀ s a, Only bs s (f s a)) (l : List α) (s : State) :
    Only bs s (l.foldl f s) := by
  induction l generalizing s with
  | nil => exact .refl _ _
  | cons a r ih => exact (h s a).trans (ih _)

theorem State.emit_only (o : Output) (s : State) : Only [] s (s.emit o) :=
  ⟨List.prefix_append _ _, fun b _ => by cases b <;> rfl⟩

theorem State.drew_only (s : State) : Only [] s s.drew := ⟨List.prefix_refl _, fun b _ => by cases b <;> rfl⟩

theorem State.mirror_only (m : MirrorItem) (s : State) : Only [] s (s.mirror m) := by
  unfold State.mirror; exact .ite (State.emit_only _ _) (.refl _ _)

theorem State.modPair_only (q : Nat) (f : Pair → Pair) (s : State) : Only [.pairs] s (s.modPair q f) :=
  ⟨List.prefix_refl _, fun b h => by cases b <;> first | rfl | simp at h⟩

theorem State.modMbox_only (m : Nat) (f : Mailbox → Mailbox) (s : State) : Only [.mail] s (s.modMbox m f) :=
  ⟨List.prefix_refl _, fun b h => by cases b <;> first | rfl | simp at h⟩

theorem State.journal_only (a b : Nat) (p : Bytes) (s : State) : Only [] s (s.journal a b p) := by
  unfold State.journal
  split
  · dsimp only
    split <;> exact ⟨List.prefix_refl _, fun b _ => by cases b <;> rfl⟩
  · exact .refl _ _

theorem State.order_only (a : Nat) (p : Bytes) (s : State) : Only [] s (s.order a p) := State.journal_only ..

theorem State.linkIn_only (s : State) : Only [] s s.linkIn := (State.journal_only ..).trans (State.drew_only _)

theorem modAt_map {α β : Type} (g : α → β) {f : α → α} (h : ∀ a, g (f a) = g a) (l : List α) (i : Nat) :
    (modAt l i f).map g = l.map g := by
  induction l generalizing i with
  | nil => rfl
  | cons a r ih => cases i <;> simp [modAt, ih, h]

theorem State.signal_only (v : Nat) (s : State) : Only [] s (s.signal v) := by
  unfold State.signal
  split
  · exact .refl _ _
  · split
    · refine ⟨List.prefix_refl _, fun b _ => ?_⟩
      cases b <;> first | rfl | (simp [Block.same, Glob.quiet] <;> (apply modAt_map; intro _; rfl))
    · exact State.emit_only _ _

theorem State.cancelSignal_only (v : Nat) (s : State) : Only [] s (s.cancelSignal v) := by
  refine ⟨List.prefix_refl _, fun b _ => ?_⟩
  cases b <;> first | rfl | (simp [Block.same, Glob.quiet, State.cancelSignal] <;> (apply modAt_map; intro _; rfl))

theorem State.flushSignals_only (s : State) : Only [] s s.flushSignals := by
  unfold State.flushSignals
  apply only_foldl
  intro t v
  split
  · exact .ite ((State.cancelSignal_only _ _).trans (State.emit_only _ _)) (.refl _ _)
  · exact .refl _ _

theorem State.holdEvent_only (e : Event) (s : State) (h : e.code ≠ 0x0001) : Only [.evq] s (s.holdEvent e) := by
  unfold State.holdEvent
  simp only [h, if_false]
  exact ⟨List.prefix_refl _, fun b hb => by cases b <;> first | rfl | simp at hb⟩

theorem State.writeEvent_only (e : Event) (s : State) (h : e.code ≠ 0x0001) : Only [.evq] s (s.writeEvent e) := by
  unfold State.writeEvent
  simp only [h, if_false]
  refine .trans (t := { s with evq := { s.evq with tail := (s.evq.tail + 1) % s.evq.size, phase := if (s.evq.tail + 1) % s.evq.size = 0 then !s.evq.phase else s.evq.phase } }) ?_ ?_
  · exact ⟨List.prefix_refl _, fun b hb => by cases b <;> first | rfl | simp at hb⟩
  · refine Only.mono (bs := []) ?_ (by simp)
    exact (State.emit_only _ _).trans ((State.order_only _ _ _).trans ((State.mirror_only _ _).trans (State.signal_only _ _)))

/-- Every event but DEFERRED_ERROR changes nothing but the event queue. -/
theorem State.postEvent_only (e : Event) (s : State) (h : e.code ≠ 0x0001) : Only [.evq] s (s.postEvent e) := by
  unfold State.postEvent
  dsimp only
  refine .trans ((State.mirror_only (.event e.code e.status e.a e.b) s).mono (by simp)) ?_
  refine .ite (State.holdEvent_only _ _ h) (.ite ?_ (State.writeEvent_only _ _ h))
  refine .trans (t := { s.mirror (.event e.code e.status e.a e.b) with evq := { (s.mirror (.event e.code e.status e.a e.b)).evq with error := true } }) ?_ (State.holdEvent_only _ _ h)
  exact ⟨List.prefix_refl _, fun b hb => by cases b <;> first | rfl | simp at hb⟩

theorem State.event_only (code a b : Nat) (s : State) (h : BitVec.ofNat 16 code ≠ 0x0001) : Only [.evq] s (s.event code a b) :=
  State.postEvent_only _ _ h

theorem State.countError_only (s : State) : Only [.glob] s s.countError :=
  ⟨List.prefix_refl _, fun b hb => by cases b <;> first | rfl | simp at hb⟩

/-- A response changes its mailbox, and signals vector 256 where that is asked for. -/
theorem State.respond_only (m : Nat) (st : BitVec 16) (d : Nat) (p : Bytes) (s : State) : Only [.mail] s (s.respond m st d p) := by
  unfold State.respond
  dsimp only
  refine .trans (State.modMbox_only m (fun b => { b with
    state := 2, held := false, req := none, status := st, detail := BitVec.ofNat 16 d, payload := p }) s) ?_
  refine Only.mono (bs := []) ?_ (by simp)
  refine .trans (State.emit_only (.response m) _) (.ite ?_ (.refl _ _))
  refine .trans (t := ({ ((s.modMbox m (fun b => { b with
    state := 2, held := false, req := none, status := st, detail := BitVec.ofNat 16 d, payload := p })).emit (.response m)) with
    glob := { ((s.modMbox m (fun b => { b with
    state := 2, held := false, req := none, status := st, detail := BitVec.ofNat 16 d, payload := p })).emit (.response m)).glob with mbSignal := true } } : State)) ?_ (State.signal_only _ _)
  exact ⟨List.prefix_refl _, fun b _ => by cases b <;> rfl⟩

/-! ## Outputs and reports -/

theorem State.newOut_mono {s t u : State} {o : Output} (h : s.out <+: t.out) (k : t.out <+: u.out) (m : o ∈ s.newOut t) : o ∈ s.newOut u := by
  obtain ⟨a, ha⟩ := h
  obtain ⟨b, hb⟩ := k
  simp only [State.newOut, ← hb, ← ha, List.append_assoc, List.drop_left'] at m ⊢
  exact List.mem_append_left _ m

theorem State.newOut_late {s t u : State} {o : Output} (h : s.out <+: t.out) (m : o ∈ t.newOut u) (k : t.out <+: u.out) : o ∈ s.newOut u := by
  obtain ⟨a, ha⟩ := h
  obtain ⟨b, hb⟩ := k
  simp only [State.newOut, ← hb, ← ha, List.append_assoc, List.drop_left'] at m ⊢
  simp only [← List.append_assoc, List.drop_left'] at m
  exact List.mem_append_right _ m

/-- The entry that an event's writing puts out. -/
theorem State.writeEvent_out (e : Event) (s : State) :
    Output.event e s.evq.phase ∈ s.newOut (s.writeEvent e) ∧ s.out <+: (s.writeEvent e).out := by
  have go : ∀ (t : State) (o : Output) (n : Nat) (b : Bytes) (m : MirrorItem) (f : State → State), t.out = s.out → (∀ u, (f u).out = u.out) →
      o ∈ s.newOut ((f (((t.emit o).order n b).mirror m)).signal 256) ∧ s.out <+: ((f (((t.emit o).order n b).mirror m)).signal 256).out := by
    intro t o n b m f ht hf
    have h0 : o ∈ s.newOut (t.emit o) := by simp [State.newOut, State.emit, ht]
    have h1 : s.out <+: (t.emit o).out := by simp [State.emit, ht]
    have h2 := ((State.order_only n b (t.emit o)).trans (State.mirror_only m _)).1
    have h3 : (((t.emit o).order n b).mirror m).out <+: ((f (((t.emit o).order n b).mirror m)).signal 256).out := by
      have := (State.signal_only 256 (f (((t.emit o).order n b).mirror m))).1
      rwa [hf] at this
    exact ⟨State.newOut_mono h1 (h2.trans h3) h0, h1.trans (h2.trans h3)⟩
  unfold State.writeEvent
  dsimp only
  split
  · exact go { s with evq := _ } _ _ _ _ (fun u => { u with recs := { u.recs with deferred := markDeferred u.recs.deferred e.a e.status true } }) rfl (fun _ => rfl)
  · exact go { s with evq := _ } _ _ _ _ id rfl (fun _ => rfl)

/-- An event that occurs is reported. -/
theorem State.event_reported (code a b : Nat) (s : State) : Reported code a b s (s.event code a b) := by
  have hold : ∀ (u : State) (e : Event), e.code = BitVec.ofNat 16 code → e.a = a → e.b = b → e.count = 1 → u.evq.held = s.evq.held →
      Reported code a b s (u.holdEvent e) := by
    intro u e hc ha hb hn hu
    refine .inr ?_
    have key : ∃ x ∈ (if u.evq.held.any (fun h => h.code = e.code && e.code ≠ 0x0001) then
        u.evq.held.map (fun h => if h.code = e.code && e.code ≠ 0x0001 then { h with count := h.count + e.count } else h)
        else u.evq.held ++ [e]), x.code = BitVec.ofNat 16 code ∧ ((x.a = a ∧ x.b = b) ∨ ∃ g ∈ s.evq.held, g.code = x.code ∧ g.count < x.count) := by
      split
      · rename_i hany
        obtain ⟨g, hg, hs⟩ := List.any_eq_true.1 hany
        refine ⟨{ g with count := g.count + e.count }, List.mem_map.2 ⟨g, hg, if_pos hs⟩, ?_, .inr ⟨g, hu ▸ hg, rfl, by simp [hn]⟩⟩
        simp only [Bool.and_eq_true, decide_eq_true_eq] at hs
        exact hs.1.trans hc
      · exact ⟨e, by simp, hc, .inl ⟨ha, hb⟩⟩
    obtain ⟨x, hx, hy⟩ := key
    refine ⟨x, ?_, hy⟩
    unfold State.holdEvent
    dsimp only
    split <;> exact hx
  have mh : ∀ m, (s.mirror m).evq.held = s.evq.held := fun m => by rw [(State.mirror_only m s).2 .evq (by simp)]
  unfold State.event State.postEvent
  dsimp only
  split
  · exact hold _ _ rfl rfl rfl rfl (mh _)
  · split
    · exact hold _ _ rfl rfl rfl rfl (mh _)
    · refine .inl ⟨{ code := BitVec.ofNat 16 code, a := a, b := b, time := s.now }, (s.mirror (.event (BitVec.ofNat 16 code) 0 a b)).evq.phase, ?_, rfl, rfl, rfl⟩
      have w := State.writeEvent_out { code := BitVec.ofNat 16 code, a := a, b := b, time := s.now } (s.mirror (.event (BitVec.ofNat 16 code) 0 a b))
      exact State.newOut_late (State.mirror_only _ _).1 w.1 w.2

end Sys2Proof.Machine
end

