-- ==== Sys2Proof/Laws/State.lean ====
section
/-! SUPPORT. What the plain updates of the state do to each of its fields, and what the accessors read after them. -/

namespace Sys2Proof.Machine

/-! ## One field a line: what an update leaves, and what it sets -/

@[simp] theorem State.emit_pending (o : Output) (s : State) : (s.emit o).pending = s.pending := rfl
@[simp] theorem State.emit_pins (o : Output) (s : State) : (s.emit o).pins = s.pins := rfl
@[simp] theorem State.emit_time (o : Output) (s : State) : (s.emit o).time = s.time := rfl
@[simp] theorem State.emit_glob (o : Output) (s : State) : (s.emit o).glob = s.glob := rfl
@[simp] theorem State.emit_evq (o : Output) (s : State) : (s.emit o).evq = s.evq := rfl
@[simp] theorem State.emit_pairs (o : Output) (s : State) : (s.emit o).pairs = s.pairs := rfl
@[simp] theorem State.emit_arb (o : Output) (s : State) : (s.emit o).arb = s.arb := rfl
@[simp] theorem State.emit_motion (o : Output) (s : State) : (s.emit o).motion = s.motion := rfl
@[simp] theorem State.emit_mail (o : Output) (s : State) : (s.emit o).mail = s.mail := rfl
@[simp] theorem State.emit_params (o : Output) (s : State) : (s.emit o).params = s.params := rfl
@[simp] theorem State.emit_recs (o : Output) (s : State) : (s.emit o).recs = s.recs := rfl
@[simp] theorem State.emit_cart (o : Output) (s : State) : (s.emit o).cart = s.cart := rfl
@[simp] theorem State.emit_forge (o : Output) (s : State) : (s.emit o).forge = s.forge := rfl
@[simp] theorem State.emit_anvil (o : Output) (s : State) : (s.emit o).anvil = s.anvil := rfl
@[simp] theorem State.emit_heat (o : Output) (s : State) : (s.emit o).heat = s.heat := rfl
@[simp] theorem State.emit_blw (o : Output) (s : State) : (s.emit o).blw = s.blw := rfl
@[simp] theorem State.emit_rd (o : Output) (s : State) : (s.emit o).rd = s.rd := rfl
@[simp] theorem State.emit_servo (o : Output) (s : State) : (s.emit o).servo = s.servo := rfl
@[simp] theorem State.emit_tongs (o : Output) (s : State) : (s.emit o).tongs = s.tongs := rfl
@[simp] theorem State.emit_hearth (o : Output) (s : State) : (s.emit o).hearth = s.hearth := rfl
@[simp] theorem State.emit_sec (o : Output) (s : State) : (s.emit o).sec = s.sec := rfl
@[simp] theorem State.emit_comp (o : Output) (s : State) : (s.emit o).comp = s.comp := rfl
@[simp] theorem State.emit_units (o : Output) (s : State) : (s.emit o).units = s.units := rfl
@[simp] theorem State.emit_twin (o : Output) (s : State) : (s.emit o).twin = s.twin := rfl
@[simp] theorem State.emit_jnl (o : Output) (s : State) : (s.emit o).jnl = s.jnl := rfl
@[simp] theorem State.emit_bench (o : Output) (s : State) : (s.emit o).bench = s.bench := rfl
@[simp] theorem State.emit_fw (o : Output) (s : State) : (s.emit o).fw = s.fw := rfl
@[simp] theorem State.emit_pwr (o : Output) (s : State) : (s.emit o).pwr = s.pwr := rfl
@[simp] theorem State.emit_pvt (o : Output) (s : State) : (s.emit o).pvt = s.pvt := rfl
@[simp] theorem State.emit_out (o : Output) (s : State) : (s.emit o).out = s.out ++ [o] := rfl
@[simp] theorem State.emit_env (o : Output) (s : State) : (s.emit o).env = s.env := rfl
@[simp] theorem State.emit_free (o : Output) (s : State) : (s.emit o).free = s.free := rfl

@[simp] theorem State.drew_pending (s : State) : (s.drew).pending = s.pending := rfl
@[simp] theorem State.drew_pins (s : State) : (s.drew).pins = s.pins := rfl
@[simp] theorem State.drew_time (s : State) : (s.drew).time = s.time := rfl
@[simp] theorem State.drew_glob (s : State) : (s.drew).glob = s.glob := rfl
@[simp] theorem State.drew_evq (s : State) : (s.drew).evq = s.evq := rfl
@[simp] theorem State.drew_pairs (s : State) : (s.drew).pairs = s.pairs := rfl
@[simp] theorem State.drew_arb (s : State) : (s.drew).arb = s.arb := rfl
@[simp] theorem State.drew_motion (s : State) : (s.drew).motion = s.motion := rfl
@[simp] theorem State.drew_mail (s : State) : (s.drew).mail = s.mail := rfl
@[simp] theorem State.drew_params (s : State) : (s.drew).params = s.params := rfl
@[simp] theorem State.drew_recs (s : State) : (s.drew).recs = s.recs := rfl
@[simp] theorem State.drew_cart (s : State) : (s.drew).cart = s.cart := rfl
@[simp] theorem State.drew_forge (s : State) : (s.drew).forge = s.forge := rfl
@[simp] theorem State.drew_anvil (s : State) : (s.drew).anvil = s.anvil := rfl
@[simp] theorem State.drew_heat (s : State) : (s.drew).heat = s.heat := rfl
@[simp] theorem State.drew_blw (s : State) : (s.drew).blw = s.blw := rfl
@[simp] theorem State.drew_rd (s : State) : (s.drew).rd = s.rd := rfl
@[simp] theorem State.drew_servo (s : State) : (s.drew).servo = s.servo := rfl
@[simp] theorem State.drew_tongs (s : State) : (s.drew).tongs = s.tongs := rfl
@[simp] theorem State.drew_hearth (s : State) : (s.drew).hearth = s.hearth := rfl
@[simp] theorem State.drew_sec (s : State) : (s.drew).sec = s.sec := rfl
@[simp] theorem State.drew_comp (s : State) : (s.drew).comp = s.comp := rfl
@[simp] theorem State.drew_units (s : State) : (s.drew).units = s.units := rfl
@[simp] theorem State.drew_twin (s : State) : (s.drew).twin = s.twin := rfl
@[simp] theorem State.drew_jnl (s : State) : (s.drew).jnl = s.jnl := rfl
@[simp] theorem State.drew_bench (s : State) : (s.drew).bench = s.bench := rfl
@[simp] theorem State.drew_fw (s : State) : (s.drew).fw = s.fw := rfl
@[simp] theorem State.drew_pwr (s : State) : (s.drew).pwr = s.pwr := rfl
@[simp] theorem State.drew_pvt (s : State) : (s.drew).pvt = s.pvt := rfl
@[simp] theorem State.drew_out (s : State) : (s.drew).out = s.out := rfl
@[simp] theorem State.drew_env (s : State) : (s.drew).env = s.env := rfl
@[simp] theorem State.drew_free (s : State) : (s.drew).free = s.free + 1 := rfl

@[simp] theorem State.modPair_pending (q : Nat) (f : Pair → Pair) (s : State) : (s.modPair q f).pending = s.pending := rfl
@[simp] theorem State.modPair_pins (q : Nat) (f : Pair → Pair) (s : State) : (s.modPair q f).pins = s.pins := rfl
@[simp] theorem State.modPair_time (q : Nat) (f : Pair → Pair) (s : State) : (s.modPair q f).time = s.time := rfl
@[simp] theorem State.modPair_glob (q : Nat) (f : Pair → Pair) (s : State) : (s.modPair q f).glob = s.glob := rfl
@[simp] theorem State.modPair_evq (q : Nat) (f : Pair → Pair) (s : State) : (s.modPair q f).evq = s.evq := rfl
@[simp] theorem State.modPair_pairs (q : Nat) (f : Pair → Pair) (s : State) : (s.modPair q f).pairs = modAt s.pairs q (Option.map f) := rfl
@[simp] theorem State.modPair_arb (q : Nat) (f : Pair → Pair) (s : State) : (s.modPair q f).arb = s.arb := rfl
@[simp] theorem State.modPair_motion (q : Nat) (f : Pair → Pair) (s : State) : (s.modPair q f).motion = s.motion := rfl
@[simp] theorem State.modPair_mail (q : Nat) (f : Pair → Pair) (s : State) : (s.modPair q f).mail = s.mail := rfl
@[simp] theorem State.modPair_params (q : Nat) (f : Pair → Pair) (s : State) : (s.modPair q f).params = s.params := rfl
@[simp] theorem State.modPair_recs (q : Nat) (f : Pair → Pair) (s : State) : (s.modPair q f).recs = s.recs := rfl
@[simp] theorem State.modPair_cart (q : Nat) (f : Pair → Pair) (s : State) : (s.modPair q f).cart = s.cart := rfl
@[simp] theorem State.modPair_forge (q : Nat) (f : Pair → Pair) (s : State) : (s.modPair q f).forge = s.forge := rfl
@[simp] theorem State.modPair_anvil (q : Nat) (f : Pair → Pair) (s : State) : (s.modPair q f).anvil = s.anvil := rfl
@[simp] theorem State.modPair_heat (q : Nat) (f : Pair → Pair) (s : State) : (s.modPair q f).heat = s.heat := rfl
@[simp] theorem State.modPair_blw (q : Nat) (f : Pair → Pair) (s : State) : (s.modPair q f).blw = s.blw := rfl
@[simp] theorem State.modPair_rd (q : Nat) (f : Pair → Pair) (s : State) : (s.modPair q f).rd = s.rd := rfl
@[simp] theorem State.modPair_servo (q : Nat) (f : Pair → Pair) (s : State) : (s.modPair q f).servo = s.servo := rfl
@[simp] theorem State.modPair_tongs (q : Nat) (f : Pair → Pair) (s : State) : (s.modPair q f).tongs = s.tongs := rfl
@[simp] theorem State.modPair_hearth (q : Nat) (f : Pair → Pair) (s : State) : (s.modPair q f).hearth = s.hearth := rfl
@[simp] theorem State.modPair_sec (q : Nat) (f : Pair → Pair) (s : State) : (s.modPair q f).sec = s.sec := rfl
@[simp] theorem State.modPair_comp (q : Nat) (f : Pair → Pair) (s : State) : (s.modPair q f).comp = s.comp := rfl
@[simp] theorem State.modPair_units (q : Nat) (f : Pair → Pair) (s : State) : (s.modPair q f).units = s.units := rfl
@[simp] theorem State.modPair_twin (q : Nat) (f : Pair → Pair) (s : State) : (s.modPair q f).twin = s.twin := rfl
@[simp] theorem State.modPair_jnl (q : Nat) (f : Pair → Pair) (s : State) : (s.modPair q f).jnl = s.jnl := rfl
@[simp] theorem State.modPair_bench (q : Nat) (f : Pair → Pair) (s : State) : (s.modPair q f).bench = s.bench := rfl
@[simp] theorem State.modPair_fw (q : Nat) (f : Pair → Pair) (s : State) : (s.modPair q f).fw = s.fw := rfl
@[simp] theorem State.modPair_pwr (q : Nat) (f : Pair → Pair) (s : State) : (s.modPair q f).pwr = s.pwr := rfl
@[simp] theorem State.modPair_pvt (q : Nat) (f : Pair → Pair) (s : State) : (s.modPair q f).pvt = s.pvt := rfl
@[simp] theorem State.modPair_out (q : Nat) (f : Pair → Pair) (s : State) : (s.modPair q f).out = s.out := rfl
@[simp] theorem State.modPair_env (q : Nat) (f : Pair → Pair) (s : State) : (s.modPair q f).env = s.env := rfl
@[simp] theorem State.modPair_free (q : Nat) (f : Pair → Pair) (s : State) : (s.modPair q f).free = s.free := rfl

@[simp] theorem State.modMbox_pending (m : Nat) (f : Mailbox → Mailbox) (s : State) : (s.modMbox m f).pending = s.pending := rfl
@[simp] theorem State.modMbox_pins (m : Nat) (f : Mailbox → Mailbox) (s : State) : (s.modMbox m f).pins = s.pins := rfl
@[simp] theorem State.modMbox_time (m : Nat) (f : Mailbox → Mailbox) (s : State) : (s.modMbox m f).time = s.time := rfl
@[simp] theorem State.modMbox_glob (m : Nat) (f : Mailbox → Mailbox) (s : State) : (s.modMbox m f).glob = s.glob := rfl
@[simp] theorem State.modMbox_evq (m : Nat) (f : Mailbox → Mailbox) (s : State) : (s.modMbox m f).evq = s.evq := rfl
@[simp] theorem State.modMbox_pairs (m : Nat) (f : Mailbox → Mailbox) (s : State) : (s.modMbox m f).pairs = s.pairs := rfl
@[simp] theorem State.modMbox_arb (m : Nat) (f : Mailbox → Mailbox) (s : State) : (s.modMbox m f).arb = s.arb := rfl
@[simp] theorem State.modMbox_motion (m : Nat) (f : Mailbox → Mailbox) (s : State) : (s.modMbox m f).motion = s.motion := rfl
@[simp] theorem State.modMbox_mail (m : Nat) (f : Mailbox → Mailbox) (s : State) : (s.modMbox m f).mail = modAt s.mail m f := rfl
@[simp] theorem State.modMbox_params (m : Nat) (f : Mailbox → Mailbox) (s : State) : (s.modMbox m f).params = s.params := rfl
@[simp] theorem State.modMbox_recs (m : Nat) (f : Mailbox → Mailbox) (s : State) : (s.modMbox m f).recs = s.recs := rfl
@[simp] theorem State.modMbox_cart (m : Nat) (f : Mailbox → Mailbox) (s : State) : (s.modMbox m f).cart = s.cart := rfl
@[simp] theorem State.modMbox_forge (m : Nat) (f : Mailbox → Mailbox) (s : State) : (s.modMbox m f).forge = s.forge := rfl
@[simp] theorem State.modMbox_anvil (m : Nat) (f : Mailbox → Mailbox) (s : State) : (s.modMbox m f).anvil = s.anvil := rfl
@[simp] theorem State.modMbox_heat (m : Nat) (f : Mailbox → Mailbox) (s : State) : (s.modMbox m f).heat = s.heat := rfl
@[simp] theorem State.modMbox_blw (m : Nat) (f : Mailbox → Mailbox) (s : State) : (s.modMbox m f).blw = s.blw := rfl
@[simp] theorem State.modMbox_rd (m : Nat) (f : Mailbox → Mailbox) (s : State) : (s.modMbox m f).rd = s.rd := rfl
@[simp] theorem State.modMbox_servo (m : Nat) (f : Mailbox → Mailbox) (s : State) : (s.modMbox m f).servo = s.servo := rfl
@[simp] theorem State.modMbox_tongs (m : Nat) (f : Mailbox → Mailbox) (s : State) : (s.modMbox m f).tongs = s.tongs := rfl
@[simp] theorem State.modMbox_hearth (m : Nat) (f : Mailbox → Mailbox) (s : State) : (s.modMbox m f).hearth = s.hearth := rfl
@[simp] theorem State.modMbox_sec (m : Nat) (f : Mailbox → Mailbox) (s : State) : (s.modMbox m f).sec = s.sec := rfl
@[simp] theorem State.modMbox_comp (m : Nat) (f : Mailbox → Mailbox) (s : State) : (s.modMbox m f).comp = s.comp := rfl
@[simp] theorem State.modMbox_units (m : Nat) (f : Mailbox → Mailbox) (s : State) : (s.modMbox m f).units = s.units := rfl
@[simp] theorem State.modMbox_twin (m : Nat) (f : Mailbox → Mailbox) (s : State) : (s.modMbox m f).twin = s.twin := rfl
@[simp] theorem State.modMbox_jnl (m : Nat) (f : Mailbox → Mailbox) (s : State) : (s.modMbox m f).jnl = s.jnl := rfl
@[simp] theorem State.modMbox_bench (m : Nat) (f : Mailbox → Mailbox) (s : State) : (s.modMbox m f).bench = s.bench := rfl
@[simp] theorem State.modMbox_fw (m : Nat) (f : Mailbox → Mailbox) (s : State) : (s.modMbox m f).fw = s.fw := rfl
@[simp] theorem State.modMbox_pwr (m : Nat) (f : Mailbox → Mailbox) (s : State) : (s.modMbox m f).pwr = s.pwr := rfl
@[simp] theorem State.modMbox_pvt (m : Nat) (f : Mailbox → Mailbox) (s : State) : (s.modMbox m f).pvt = s.pvt := rfl
@[simp] theorem State.modMbox_out (m : Nat) (f : Mailbox → Mailbox) (s : State) : (s.modMbox m f).out = s.out := rfl
@[simp] theorem State.modMbox_env (m : Nat) (f : Mailbox → Mailbox) (s : State) : (s.modMbox m f).env = s.env := rfl
@[simp] theorem State.modMbox_free (m : Nat) (f : Mailbox → Mailbox) (s : State) : (s.modMbox m f).free = s.free := rfl

@[simp] theorem State.modCmd_pending (q tag : Nat) (f : Cmd → Cmd) (s : State) : (s.modCmd q tag f).pending = s.pending := rfl
@[simp] theorem State.modCmd_pins (q tag : Nat) (f : Cmd → Cmd) (s : State) : (s.modCmd q tag f).pins = s.pins := rfl
@[simp] theorem State.modCmd_time (q tag : Nat) (f : Cmd → Cmd) (s : State) : (s.modCmd q tag f).time = s.time := rfl
@[simp] theorem State.modCmd_glob (q tag : Nat) (f : Cmd → Cmd) (s : State) : (s.modCmd q tag f).glob = s.glob := rfl
@[simp] theorem State.modCmd_evq (q tag : Nat) (f : Cmd → Cmd) (s : State) : (s.modCmd q tag f).evq = s.evq := rfl
@[simp] theorem State.modCmd_pairs (q tag : Nat) (f : Cmd → Cmd) (s : State) : (s.modCmd q tag f).pairs = s.pairs := rfl
@[simp] theorem State.modCmd_arb (q tag : Nat) (f : Cmd → Cmd) (s : State) : (s.modCmd q tag f).arb = s.arb := rfl
@[simp] theorem State.modCmd_motion (q tag : Nat) (f : Cmd → Cmd) (s : State) : (s.modCmd q tag f).motion = s.motion := rfl
@[simp] theorem State.modCmd_mail (q tag : Nat) (f : Cmd → Cmd) (s : State) : (s.modCmd q tag f).mail = s.mail := rfl
@[simp] theorem State.modCmd_params (q tag : Nat) (f : Cmd → Cmd) (s : State) : (s.modCmd q tag f).params = s.params := rfl
@[simp] theorem State.modCmd_cart (q tag : Nat) (f : Cmd → Cmd) (s : State) : (s.modCmd q tag f).cart = s.cart := rfl
@[simp] theorem State.modCmd_forge (q tag : Nat) (f : Cmd → Cmd) (s : State) : (s.modCmd q tag f).forge = s.forge := rfl
@[simp] theorem State.modCmd_anvil (q tag : Nat) (f : Cmd → Cmd) (s : State) : (s.modCmd q tag f).anvil = s.anvil := rfl
@[simp] theorem State.modCmd_heat (q tag : Nat) (f : Cmd → Cmd) (s : State) : (s.modCmd q tag f).heat = s.heat := rfl
@[simp] theorem State.modCmd_blw (q tag : Nat) (f : Cmd → Cmd) (s : State) : (s.modCmd q tag f).blw = s.blw := rfl
@[simp] theorem State.modCmd_rd (q tag : Nat) (f : Cmd → Cmd) (s : State) : (s.modCmd q tag f).rd = s.rd := rfl
@[simp] theorem State.modCmd_servo (q tag : Nat) (f : Cmd → Cmd) (s : State) : (s.modCmd q tag f).servo = s.servo := rfl
@[simp] theorem State.modCmd_tongs (q tag : Nat) (f : Cmd → Cmd) (s : State) : (s.modCmd q tag f).tongs = s.tongs := rfl
@[simp] theorem State.modCmd_hearth (q tag : Nat) (f : Cmd → Cmd) (s : State) : (s.modCmd q tag f).hearth = s.hearth := rfl
@[simp] theorem State.modCmd_sec (q tag : Nat) (f : Cmd → Cmd) (s : State) : (s.modCmd q tag f).sec = s.sec := rfl
@[simp] theorem State.modCmd_comp (q tag : Nat) (f : Cmd → Cmd) (s : State) : (s.modCmd q tag f).comp = s.comp := rfl
@[simp] theorem State.modCmd_units (q tag : Nat) (f : Cmd → Cmd) (s : State) : (s.modCmd q tag f).units = s.units := rfl
@[simp] theorem State.modCmd_twin (q tag : Nat) (f : Cmd → Cmd) (s : State) : (s.modCmd q tag f).twin = s.twin := rfl
@[simp] theorem State.modCmd_jnl (q tag : Nat) (f : Cmd → Cmd) (s : State) : (s.modCmd q tag f).jnl = s.jnl := rfl
@[simp] theorem State.modCmd_bench (q tag : Nat) (f : Cmd → Cmd) (s : State) : (s.modCmd q tag f).bench = s.bench := rfl
@[simp] theorem State.modCmd_fw (q tag : Nat) (f : Cmd → Cmd) (s : State) : (s.modCmd q tag f).fw = s.fw := rfl
@[simp] theorem State.modCmd_pwr (q tag : Nat) (f : Cmd → Cmd) (s : State) : (s.modCmd q tag f).pwr = s.pwr := rfl
@[simp] theorem State.modCmd_pvt (q tag : Nat) (f : Cmd → Cmd) (s : State) : (s.modCmd q tag f).pvt = s.pvt := rfl
@[simp] theorem State.modCmd_out (q tag : Nat) (f : Cmd → Cmd) (s : State) : (s.modCmd q tag f).out = s.out := rfl
@[simp] theorem State.modCmd_env (q tag : Nat) (f : Cmd → Cmd) (s : State) : (s.modCmd q tag f).env = s.env := rfl
@[simp] theorem State.modCmd_free (q tag : Nat) (f : Cmd → Cmd) (s : State) : (s.modCmd q tag f).free = s.free := rfl

@[simp] theorem State.dropCmd_pending (q tag : Nat) (s : State) : (s.dropCmd q tag).pending = s.pending := rfl
@[simp] theorem State.dropCmd_pins (q tag : Nat) (s : State) : (s.dropCmd q tag).pins = s.pins := rfl
@[simp] theorem State.dropCmd_time (q tag : Nat) (s : State) : (s.dropCmd q tag).time = s.time := rfl
@[simp] theorem State.dropCmd_glob (q tag : Nat) (s : State) : (s.dropCmd q tag).glob = s.glob := rfl
@[simp] theorem State.dropCmd_evq (q tag : Nat) (s : State) : (s.dropCmd q tag).evq = s.evq := rfl
@[simp] theorem State.dropCmd_pairs (q tag : Nat) (s : State) : (s.dropCmd q tag).pairs = s.pairs := rfl
@[simp] theorem State.dropCmd_arb (q tag : Nat) (s : State) : (s.dropCmd q tag).arb = s.arb := rfl
@[simp] theorem State.dropCmd_motion (q tag : Nat) (s : State) : (s.dropCmd q tag).motion = s.motion := rfl
@[simp] theorem State.dropCmd_mail (q tag : Nat) (s : State) : (s.dropCmd q tag).mail = s.mail := rfl
@[simp] theorem State.dropCmd_params (q tag : Nat) (s : State) : (s.dropCmd q tag).params = s.params := rfl
@[simp] theorem State.dropCmd_cart (q tag : Nat) (s : State) : (s.dropCmd q tag).cart = s.cart := rfl
@[simp] theorem State.dropCmd_forge (q tag : Nat) (s : State) : (s.dropCmd q tag).forge = s.forge := rfl
@[simp] theorem State.dropCmd_anvil (q tag : Nat) (s : State) : (s.dropCmd q tag).anvil = s.anvil := rfl
@[simp] theorem State.dropCmd_heat (q tag : Nat) (s : State) : (s.dropCmd q tag).heat = s.heat := rfl
@[simp] theorem State.dropCmd_blw (q tag : Nat) (s : State) : (s.dropCmd q tag).blw = s.blw := rfl
@[simp] theorem State.dropCmd_rd (q tag : Nat) (s : State) : (s.dropCmd q tag).rd = s.rd := rfl
@[simp] theorem State.dropCmd_servo (q tag : Nat) (s : State) : (s.dropCmd q tag).servo = s.servo := rfl
@[simp] theorem State.dropCmd_tongs (q tag : Nat) (s : State) : (s.dropCmd q tag).tongs = s.tongs := rfl
@[simp] theorem State.dropCmd_hearth (q tag : Nat) (s : State) : (s.dropCmd q tag).hearth = s.hearth := rfl
@[simp] theorem State.dropCmd_sec (q tag : Nat) (s : State) : (s.dropCmd q tag).sec = s.sec := rfl
@[simp] theorem State.dropCmd_comp (q tag : Nat) (s : State) : (s.dropCmd q tag).comp = s.comp := rfl
@[simp] theorem State.dropCmd_units (q tag : Nat) (s : State) : (s.dropCmd q tag).units = s.units := rfl
@[simp] theorem State.dropCmd_twin (q tag : Nat) (s : State) : (s.dropCmd q tag).twin = s.twin := rfl
@[simp] theorem State.dropCmd_jnl (q tag : Nat) (s : State) : (s.dropCmd q tag).jnl = s.jnl := rfl
@[simp] theorem State.dropCmd_bench (q tag : Nat) (s : State) : (s.dropCmd q tag).bench = s.bench := rfl
@[simp] theorem State.dropCmd_fw (q tag : Nat) (s : State) : (s.dropCmd q tag).fw = s.fw := rfl
@[simp] theorem State.dropCmd_pwr (q tag : Nat) (s : State) : (s.dropCmd q tag).pwr = s.pwr := rfl
@[simp] theorem State.dropCmd_pvt (q tag : Nat) (s : State) : (s.dropCmd q tag).pvt = s.pvt := rfl
@[simp] theorem State.dropCmd_out (q tag : Nat) (s : State) : (s.dropCmd q tag).out = s.out := rfl
@[simp] theorem State.dropCmd_env (q tag : Nat) (s : State) : (s.dropCmd q tag).env = s.env := rfl
@[simp] theorem State.dropCmd_free (q tag : Nat) (s : State) : (s.dropCmd q tag).free = s.free := rfl

@[simp] theorem State.modRec_pending (r : Nat) (f : Rec → Rec) (s : State) : (s.modRec r f).pending = s.pending := rfl
@[simp] theorem State.modRec_pins (r : Nat) (f : Rec → Rec) (s : State) : (s.modRec r f).pins = s.pins := rfl
@[simp] theorem State.modRec_time (r : Nat) (f : Rec → Rec) (s : State) : (s.modRec r f).time = s.time := rfl
@[simp] theorem State.modRec_glob (r : Nat) (f : Rec → Rec) (s : State) : (s.modRec r f).glob = s.glob := rfl
@[simp] theorem State.modRec_evq (r : Nat) (f : Rec → Rec) (s : State) : (s.modRec r f).evq = s.evq := rfl
@[simp] theorem State.modRec_pairs (r : Nat) (f : Rec → Rec) (s : State) : (s.modRec r f).pairs = s.pairs := rfl
@[simp] theorem State.modRec_arb (r : Nat) (f : Rec → Rec) (s : State) : (s.modRec r f).arb = s.arb := rfl
@[simp] theorem State.modRec_motion (r : Nat) (f : Rec → Rec) (s : State) : (s.modRec r f).motion = s.motion := rfl
@[simp] theorem State.modRec_mail (r : Nat) (f : Rec → Rec) (s : State) : (s.modRec r f).mail = s.mail := rfl
@[simp] theorem State.modRec_params (r : Nat) (f : Rec → Rec) (s : State) : (s.modRec r f).params = s.params := rfl
@[simp] theorem State.modRec_cart (r : Nat) (f : Rec → Rec) (s : State) : (s.modRec r f).cart = s.cart := rfl
@[simp] theorem State.modRec_forge (r : Nat) (f : Rec → Rec) (s : State) : (s.modRec r f).forge = s.forge := rfl
@[simp] theorem State.modRec_anvil (r : Nat) (f : Rec → Rec) (s : State) : (s.modRec r f).anvil = s.anvil := rfl
@[simp] theorem State.modRec_heat (r : Nat) (f : Rec → Rec) (s : State) : (s.modRec r f).heat = s.heat := rfl
@[simp] theorem State.modRec_blw (r : Nat) (f : Rec → Rec) (s : State) : (s.modRec r f).blw = s.blw := rfl
@[simp] theorem State.modRec_rd (r : Nat) (f : Rec → Rec) (s : State) : (s.modRec r f).rd = s.rd := rfl
@[simp] theorem State.modRec_servo (r : Nat) (f : Rec → Rec) (s : State) : (s.modRec r f).servo = s.servo := rfl
@[simp] theorem State.modRec_tongs (r : Nat) (f : Rec → Rec) (s : State) : (s.modRec r f).tongs = s.tongs := rfl
@[simp] theorem State.modRec_hearth (r : Nat) (f : Rec → Rec) (s : State) : (s.modRec r f).hearth = s.hearth := rfl
@[simp] theorem State.modRec_sec (r : Nat) (f : Rec → Rec) (s : State) : (s.modRec r f).sec = s.sec := rfl
@[simp] theorem State.modRec_comp (r : Nat) (f : Rec → Rec) (s : State) : (s.modRec r f).comp = s.comp := rfl
@[simp] theorem State.modRec_units (r : Nat) (f : Rec → Rec) (s : State) : (s.modRec r f).units = s.units := rfl
@[simp] theorem State.modRec_twin (r : Nat) (f : Rec → Rec) (s : State) : (s.modRec r f).twin = s.twin := rfl
@[simp] theorem State.modRec_jnl (r : Nat) (f : Rec → Rec) (s : State) : (s.modRec r f).jnl = s.jnl := rfl
@[simp] theorem State.modRec_bench (r : Nat) (f : Rec → Rec) (s : State) : (s.modRec r f).bench = s.bench := rfl
@[simp] theorem State.modRec_fw (r : Nat) (f : Rec → Rec) (s : State) : (s.modRec r f).fw = s.fw := rfl
@[simp] theorem State.modRec_pwr (r : Nat) (f : Rec → Rec) (s : State) : (s.modRec r f).pwr = s.pwr := rfl
@[simp] theorem State.modRec_pvt (r : Nat) (f : Rec → Rec) (s : State) : (s.modRec r f).pvt = s.pvt := rfl
@[simp] theorem State.modRec_out (r : Nat) (f : Rec → Rec) (s : State) : (s.modRec r f).out = s.out := rfl
@[simp] theorem State.modRec_env (r : Nat) (f : Rec → Rec) (s : State) : (s.modRec r f).env = s.env := rfl
@[simp] theorem State.modRec_free (r : Nat) (f : Rec → Rec) (s : State) : (s.modRec r f).free = s.free := rfl

@[simp] theorem State.modImage_pending (f : LedgerImage → LedgerImage) (s : State) : (s.modImage f).pending = s.pending := rfl
@[simp] theorem State.modImage_pins (f : LedgerImage → LedgerImage) (s : State) : (s.modImage f).pins = s.pins := rfl
@[simp] theorem State.modImage_time (f : LedgerImage → LedgerImage) (s : State) : (s.modImage f).time = s.time := rfl
@[simp] theorem State.modImage_glob (f : LedgerImage → LedgerImage) (s : State) : (s.modImage f).glob = s.glob := rfl
@[simp] theorem State.modImage_evq (f : LedgerImage → LedgerImage) (s : State) : (s.modImage f).evq = s.evq := rfl
@[simp] theorem State.modImage_pairs (f : LedgerImage → LedgerImage) (s : State) : (s.modImage f).pairs = s.pairs := rfl
@[simp] theorem State.modImage_arb (f : LedgerImage → LedgerImage) (s : State) : (s.modImage f).arb = s.arb := rfl
@[simp] theorem State.modImage_motion (f : LedgerImage → LedgerImage) (s : State) : (s.modImage f).motion = s.motion := rfl
@[simp] theorem State.modImage_mail (f : LedgerImage → LedgerImage) (s : State) : (s.modImage f).mail = s.mail := rfl
@[simp] theorem State.modImage_params (f : LedgerImage → LedgerImage) (s : State) : (s.modImage f).params = s.params := rfl
@[simp] theorem State.modImage_recs (f : LedgerImage → LedgerImage) (s : State) : (s.modImage f).recs = s.recs := rfl
@[simp] theorem State.modImage_forge (f : LedgerImage → LedgerImage) (s : State) : (s.modImage f).forge = s.forge := rfl
@[simp] theorem State.modImage_anvil (f : LedgerImage → LedgerImage) (s : State) : (s.modImage f).anvil = s.anvil := rfl
@[simp] theorem State.modImage_heat (f : LedgerImage → LedgerImage) (s : State) : (s.modImage f).heat = s.heat := rfl
@[simp] theorem State.modImage_blw (f : LedgerImage → LedgerImage) (s : State) : (s.modImage f).blw = s.blw := rfl
@[simp] theorem State.modImage_rd (f : LedgerImage → LedgerImage) (s : State) : (s.modImage f).rd = s.rd := rfl
@[simp] theorem State.modImage_servo (f : LedgerImage → LedgerImage) (s : State) : (s.modImage f).servo = s.servo := rfl
@[simp] theorem State.modImage_tongs (f : LedgerImage → LedgerImage) (s : State) : (s.modImage f).tongs = s.tongs := rfl
@[simp] theorem State.modImage_hearth (f : LedgerImage → LedgerImage) (s : State) : (s.modImage f).hearth = s.hearth := rfl
@[simp] theorem State.modImage_sec (f : LedgerImage → LedgerImage) (s : State) : (s.modImage f).sec = s.sec := rfl
@[simp] theorem State.modImage_comp (f : LedgerImage → LedgerImage) (s : State) : (s.modImage f).comp = s.comp := rfl
@[simp] theorem State.modImage_units (f : LedgerImage → LedgerImage) (s : State) : (s.modImage f).units = s.units := rfl
@[simp] theorem State.modImage_twin (f : LedgerImage → LedgerImage) (s : State) : (s.modImage f).twin = s.twin := rfl
@[simp] theorem State.modImage_jnl (f : LedgerImage → LedgerImage) (s : State) : (s.modImage f).jnl = s.jnl := rfl
@[simp] theorem State.modImage_bench (f : LedgerImage → LedgerImage) (s : State) : (s.modImage f).bench = s.bench := rfl
@[simp] theorem State.modImage_fw (f : LedgerImage → LedgerImage) (s : State) : (s.modImage f).fw = s.fw := rfl
@[simp] theorem State.modImage_pwr (f : LedgerImage → LedgerImage) (s : State) : (s.modImage f).pwr = s.pwr := rfl
@[simp] theorem State.modImage_pvt (f : LedgerImage → LedgerImage) (s : State) : (s.modImage f).pvt = s.pvt := rfl
@[simp] theorem State.modImage_out (f : LedgerImage → LedgerImage) (s : State) : (s.modImage f).out = s.out := rfl
@[simp] theorem State.modImage_env (f : LedgerImage → LedgerImage) (s : State) : (s.modImage f).env = s.env := rfl
@[simp] theorem State.modImage_free (f : LedgerImage → LedgerImage) (s : State) : (s.modImage f).free = s.free := rfl

@[simp] theorem State.modAnvil_pending (p : Nat) (f : Chan → Chan) (s : State) : (s.modAnvil p f).pending = s.pending := rfl
@[simp] theorem State.modAnvil_pins (p : Nat) (f : Chan → Chan) (s : State) : (s.modAnvil p f).pins = s.pins := rfl
@[simp] theorem State.modAnvil_time (p : Nat) (f : Chan → Chan) (s : State) : (s.modAnvil p f).time = s.time := rfl
@[simp] theorem State.modAnvil_glob (p : Nat) (f : Chan → Chan) (s : State) : (s.modAnvil p f).glob = s.glob := rfl
@[simp] theorem State.modAnvil_evq (p : Nat) (f : Chan → Chan) (s : State) : (s.modAnvil p f).evq = s.evq := rfl
@[simp] theorem State.modAnvil_pairs (p : Nat) (f : Chan → Chan) (s : State) : (s.modAnvil p f).pairs = s.pairs := rfl
@[simp] theorem State.modAnvil_arb (p : Nat) (f : Chan → Chan) (s : State) : (s.modAnvil p f).arb = s.arb := rfl
@[simp] theorem State.modAnvil_motion (p : Nat) (f : Chan → Chan) (s : State) : (s.modAnvil p f).motion = s.motion := rfl
@[simp] theorem State.modAnvil_mail (p : Nat) (f : Chan → Chan) (s : State) : (s.modAnvil p f).mail = s.mail := rfl
@[simp] theorem State.modAnvil_params (p : Nat) (f : Chan → Chan) (s : State) : (s.modAnvil p f).params = s.params := rfl
@[simp] theorem State.modAnvil_recs (p : Nat) (f : Chan → Chan) (s : State) : (s.modAnvil p f).recs = s.recs := rfl
@[simp] theorem State.modAnvil_cart (p : Nat) (f : Chan → Chan) (s : State) : (s.modAnvil p f).cart = s.cart := rfl
@[simp] theorem State.modAnvil_forge (p : Nat) (f : Chan → Chan) (s : State) : (s.modAnvil p f).forge = s.forge := rfl
@[simp] theorem State.modAnvil_anvil (p : Nat) (f : Chan → Chan) (s : State) : (s.modAnvil p f).anvil = { s.anvil with chans := modAt s.anvil.chans p f } := rfl
@[simp] theorem State.modAnvil_heat (p : Nat) (f : Chan → Chan) (s : State) : (s.modAnvil p f).heat = s.heat := rfl
@[simp] theorem State.modAnvil_blw (p : Nat) (f : Chan → Chan) (s : State) : (s.modAnvil p f).blw = s.blw := rfl
@[simp] theorem State.modAnvil_rd (p : Nat) (f : Chan → Chan) (s : State) : (s.modAnvil p f).rd = s.rd := rfl
@[simp] theorem State.modAnvil_servo (p : Nat) (f : Chan → Chan) (s : State) : (s.modAnvil p f).servo = s.servo := rfl
@[simp] theorem State.modAnvil_tongs (p : Nat) (f : Chan → Chan) (s : State) : (s.modAnvil p f).tongs = s.tongs := rfl
@[simp] theorem State.modAnvil_hearth (p : Nat) (f : Chan → Chan) (s : State) : (s.modAnvil p f).hearth = s.hearth := rfl
@[simp] theorem State.modAnvil_sec (p : Nat) (f : Chan → Chan) (s : State) : (s.modAnvil p f).sec = s.sec := rfl
@[simp] theorem State.modAnvil_comp (p : Nat) (f : Chan → Chan) (s : State) : (s.modAnvil p f).comp = s.comp := rfl
@[simp] theorem State.modAnvil_units (p : Nat) (f : Chan → Chan) (s : State) : (s.modAnvil p f).units = s.units := rfl
@[simp] theorem State.modAnvil_twin (p : Nat) (f : Chan → Chan) (s : State) : (s.modAnvil p f).twin = s.twin := rfl
@[simp] theorem State.modAnvil_jnl (p : Nat) (f : Chan → Chan) (s : State) : (s.modAnvil p f).jnl = s.jnl := rfl
@[simp] theorem State.modAnvil_bench (p : Nat) (f : Chan → Chan) (s : State) : (s.modAnvil p f).bench = s.bench := rfl
@[simp] theorem State.modAnvil_fw (p : Nat) (f : Chan → Chan) (s : State) : (s.modAnvil p f).fw = s.fw := rfl
@[simp] theorem State.modAnvil_pwr (p : Nat) (f : Chan → Chan) (s : State) : (s.modAnvil p f).pwr = s.pwr := rfl
@[simp] theorem State.modAnvil_pvt (p : Nat) (f : Chan → Chan) (s : State) : (s.modAnvil p f).pvt = s.pvt := rfl
@[simp] theorem State.modAnvil_out (p : Nat) (f : Chan → Chan) (s : State) : (s.modAnvil p f).out = s.out := rfl
@[simp] theorem State.modAnvil_env (p : Nat) (f : Chan → Chan) (s : State) : (s.modAnvil p f).env = s.env := rfl
@[simp] theorem State.modAnvil_free (p : Nat) (f : Chan → Chan) (s : State) : (s.modAnvil p f).free = s.free := rfl

@[simp] theorem State.modChan_pending (c : Nat) (f : HChan → HChan) (s : State) : (s.modChan c f).pending = s.pending := rfl
@[simp] theorem State.modChan_pins (c : Nat) (f : HChan → HChan) (s : State) : (s.modChan c f).pins = s.pins := rfl
@[simp] theorem State.modChan_time (c : Nat) (f : HChan → HChan) (s : State) : (s.modChan c f).time = s.time := rfl
@[simp] theorem State.modChan_glob (c : Nat) (f : HChan → HChan) (s : State) : (s.modChan c f).glob = s.glob := rfl
@[simp] theorem State.modChan_evq (c : Nat) (f : HChan → HChan) (s : State) : (s.modChan c f).evq = s.evq := rfl
@[simp] theorem State.modChan_pairs (c : Nat) (f : HChan → HChan) (s : State) : (s.modChan c f).pairs = s.pairs := rfl
@[simp] theorem State.modChan_arb (c : Nat) (f : HChan → HChan) (s : State) : (s.modChan c f).arb = s.arb := rfl
@[simp] theorem State.modChan_motion (c : Nat) (f : HChan → HChan) (s : State) : (s.modChan c f).motion = s.motion := rfl
@[simp] theorem State.modChan_mail (c : Nat) (f : HChan → HChan) (s : State) : (s.modChan c f).mail = s.mail := rfl
@[simp] theorem State.modChan_params (c : Nat) (f : HChan → HChan) (s : State) : (s.modChan c f).params = s.params := rfl
@[simp] theorem State.modChan_recs (c : Nat) (f : HChan → HChan) (s : State) : (s.modChan c f).recs = s.recs := rfl
@[simp] theorem State.modChan_cart (c : Nat) (f : HChan → HChan) (s : State) : (s.modChan c f).cart = s.cart := rfl
@[simp] theorem State.modChan_forge (c : Nat) (f : HChan → HChan) (s : State) : (s.modChan c f).forge = s.forge := rfl
@[simp] theorem State.modChan_anvil (c : Nat) (f : HChan → HChan) (s : State) : (s.modChan c f).anvil = s.anvil := rfl
@[simp] theorem State.modChan_heat (c : Nat) (f : HChan → HChan) (s : State) : (s.modChan c f).heat = s.heat := rfl
@[simp] theorem State.modChan_blw (c : Nat) (f : HChan → HChan) (s : State) : (s.modChan c f).blw = s.blw := rfl
@[simp] theorem State.modChan_rd (c : Nat) (f : HChan → HChan) (s : State) : (s.modChan c f).rd = s.rd := rfl
@[simp] theorem State.modChan_servo (c : Nat) (f : HChan → HChan) (s : State) : (s.modChan c f).servo = s.servo := rfl
@[simp] theorem State.modChan_tongs (c : Nat) (f : HChan → HChan) (s : State) : (s.modChan c f).tongs = s.tongs := rfl
@[simp] theorem State.modChan_hearth (c : Nat) (f : HChan → HChan) (s : State) : (s.modChan c f).hearth = { s.hearth with chans := modAt s.hearth.chans c f } := rfl
@[simp] theorem State.modChan_sec (c : Nat) (f : HChan → HChan) (s : State) : (s.modChan c f).sec = s.sec := rfl
@[simp] theorem State.modChan_comp (c : Nat) (f : HChan → HChan) (s : State) : (s.modChan c f).comp = s.comp := rfl
@[simp] theorem State.modChan_units (c : Nat) (f : HChan → HChan) (s : State) : (s.modChan c f).units = s.units := rfl
@[simp] theorem State.modChan_twin (c : Nat) (f : HChan → HChan) (s : State) : (s.modChan c f).twin = s.twin := rfl
@[simp] theorem State.modChan_jnl (c : Nat) (f : HChan → HChan) (s : State) : (s.modChan c f).jnl = s.jnl := rfl
@[simp] theorem State.modChan_bench (c : Nat) (f : HChan → HChan) (s : State) : (s.modChan c f).bench = s.bench := rfl
@[simp] theorem State.modChan_fw (c : Nat) (f : HChan → HChan) (s : State) : (s.modChan c f).fw = s.fw := rfl
@[simp] theorem State.modChan_pwr (c : Nat) (f : HChan → HChan) (s : State) : (s.modChan c f).pwr = s.pwr := rfl
@[simp] theorem State.modChan_pvt (c : Nat) (f : HChan → HChan) (s : State) : (s.modChan c f).pvt = s.pvt := rfl
@[simp] theorem State.modChan_out (c : Nat) (f : HChan → HChan) (s : State) : (s.modChan c f).out = s.out := rfl
@[simp] theorem State.modChan_env (c : Nat) (f : HChan → HChan) (s : State) : (s.modChan c f).env = s.env := rfl
@[simp] theorem State.modChan_free (c : Nat) (f : HChan → HChan) (s : State) : (s.modChan c f).free = s.free := rfl

@[simp] theorem State.modPort_pending (p : Nat) (f : Port → Port) (s : State) : (s.modPort p f).pending = s.pending := rfl
@[simp] theorem State.modPort_pins (p : Nat) (f : Port → Port) (s : State) : (s.modPort p f).pins = s.pins := rfl
@[simp] theorem State.modPort_time (p : Nat) (f : Port → Port) (s : State) : (s.modPort p f).time = s.time := rfl
@[simp] theorem State.modPort_glob (p : Nat) (f : Port → Port) (s : State) : (s.modPort p f).glob = s.glob := rfl
@[simp] theorem State.modPort_evq (p : Nat) (f : Port → Port) (s : State) : (s.modPort p f).evq = s.evq := rfl
@[simp] theorem State.modPort_pairs (p : Nat) (f : Port → Port) (s : State) : (s.modPort p f).pairs = s.pairs := rfl
@[simp] theorem State.modPort_arb (p : Nat) (f : Port → Port) (s : State) : (s.modPort p f).arb = s.arb := rfl
@[simp] theorem State.modPort_motion (p : Nat) (f : Port → Port) (s : State) : (s.modPort p f).motion = s.motion := rfl
@[simp] theorem State.modPort_mail (p : Nat) (f : Port → Port) (s : State) : (s.modPort p f).mail = s.mail := rfl
@[simp] theorem State.modPort_params (p : Nat) (f : Port → Port) (s : State) : (s.modPort p f).params = s.params := rfl
@[simp] theorem State.modPort_recs (p : Nat) (f : Port → Port) (s : State) : (s.modPort p f).recs = s.recs := rfl
@[simp] theorem State.modPort_cart (p : Nat) (f : Port → Port) (s : State) : (s.modPort p f).cart = s.cart := rfl
@[simp] theorem State.modPort_forge (p : Nat) (f : Port → Port) (s : State) : (s.modPort p f).forge = s.forge := rfl
@[simp] theorem State.modPort_anvil (p : Nat) (f : Port → Port) (s : State) : (s.modPort p f).anvil = s.anvil := rfl
@[simp] theorem State.modPort_heat (p : Nat) (f : Port → Port) (s : State) : (s.modPort p f).heat = s.heat := rfl
@[simp] theorem State.modPort_blw (p : Nat) (f : Port → Port) (s : State) : (s.modPort p f).blw = s.blw := rfl
@[simp] theorem State.modPort_rd (p : Nat) (f : Port → Port) (s : State) : (s.modPort p f).rd = s.rd := rfl
@[simp] theorem State.modPort_servo (p : Nat) (f : Port → Port) (s : State) : (s.modPort p f).servo = s.servo := rfl
@[simp] theorem State.modPort_tongs (p : Nat) (f : Port → Port) (s : State) : (s.modPort p f).tongs = { s.tongs with ports := modAt s.tongs.ports p f } := rfl
@[simp] theorem State.modPort_hearth (p : Nat) (f : Port → Port) (s : State) : (s.modPort p f).hearth = s.hearth := rfl
@[simp] theorem State.modPort_sec (p : Nat) (f : Port → Port) (s : State) : (s.modPort p f).sec = s.sec := rfl
@[simp] theorem State.modPort_comp (p : Nat) (f : Port → Port) (s : State) : (s.modPort p f).comp = s.comp := rfl
@[simp] theorem State.modPort_units (p : Nat) (f : Port → Port) (s : State) : (s.modPort p f).units = s.units := rfl
@[simp] theorem State.modPort_twin (p : Nat) (f : Port → Port) (s : State) : (s.modPort p f).twin = s.twin := rfl
@[simp] theorem State.modPort_jnl (p : Nat) (f : Port → Port) (s : State) : (s.modPort p f).jnl = s.jnl := rfl
@[simp] theorem State.modPort_bench (p : Nat) (f : Port → Port) (s : State) : (s.modPort p f).bench = s.bench := rfl
@[simp] theorem State.modPort_fw (p : Nat) (f : Port → Port) (s : State) : (s.modPort p f).fw = s.fw := rfl
@[simp] theorem State.modPort_pwr (p : Nat) (f : Port → Port) (s : State) : (s.modPort p f).pwr = s.pwr := rfl
@[simp] theorem State.modPort_pvt (p : Nat) (f : Port → Port) (s : State) : (s.modPort p f).pvt = s.pvt := rfl
@[simp] theorem State.modPort_out (p : Nat) (f : Port → Port) (s : State) : (s.modPort p f).out = s.out := rfl
@[simp] theorem State.modPort_env (p : Nat) (f : Port → Port) (s : State) : (s.modPort p f).env = s.env := rfl
@[simp] theorem State.modPort_free (p : Nat) (f : Port → Port) (s : State) : (s.modPort p f).free = s.free := rfl

@[simp] theorem State.modStats_pending (p : Nat) (f : ChanStats → ChanStats) (s : State) : (s.modStats p f).pending = s.pending := rfl
@[simp] theorem State.modStats_pins (p : Nat) (f : ChanStats → ChanStats) (s : State) : (s.modStats p f).pins = s.pins := rfl
@[simp] theorem State.modStats_time (p : Nat) (f : ChanStats → ChanStats) (s : State) : (s.modStats p f).time = s.time := rfl
@[simp] theorem State.modStats_glob (p : Nat) (f : ChanStats → ChanStats) (s : State) : (s.modStats p f).glob = s.glob := rfl
@[simp] theorem State.modStats_evq (p : Nat) (f : ChanStats → ChanStats) (s : State) : (s.modStats p f).evq = s.evq := rfl
@[simp] theorem State.modStats_pairs (p : Nat) (f : ChanStats → ChanStats) (s : State) : (s.modStats p f).pairs = s.pairs := rfl
@[simp] theorem State.modStats_arb (p : Nat) (f : ChanStats → ChanStats) (s : State) : (s.modStats p f).arb = s.arb := rfl
@[simp] theorem State.modStats_motion (p : Nat) (f : ChanStats → ChanStats) (s : State) : (s.modStats p f).motion = s.motion := rfl
@[simp] theorem State.modStats_mail (p : Nat) (f : ChanStats → ChanStats) (s : State) : (s.modStats p f).mail = s.mail := rfl
@[simp] theorem State.modStats_params (p : Nat) (f : ChanStats → ChanStats) (s : State) : (s.modStats p f).params = s.params := rfl
@[simp] theorem State.modStats_recs (p : Nat) (f : ChanStats → ChanStats) (s : State) : (s.modStats p f).recs = s.recs := rfl
@[simp] theorem State.modStats_cart (p : Nat) (f : ChanStats → ChanStats) (s : State) : (s.modStats p f).cart = s.cart := rfl
@[simp] theorem State.modStats_forge (p : Nat) (f : ChanStats → ChanStats) (s : State) : (s.modStats p f).forge = s.forge := rfl
@[simp] theorem State.modStats_anvil (p : Nat) (f : ChanStats → ChanStats) (s : State) : (s.modStats p f).anvil = s.anvil := rfl
@[simp] theorem State.modStats_heat (p : Nat) (f : ChanStats → ChanStats) (s : State) : (s.modStats p f).heat = s.heat := rfl
@[simp] theorem State.modStats_blw (p : Nat) (f : ChanStats → ChanStats) (s : State) : (s.modStats p f).blw = s.blw := rfl
@[simp] theorem State.modStats_rd (p : Nat) (f : ChanStats → ChanStats) (s : State) : (s.modStats p f).rd = { s.rd with stats := modAt s.rd.stats p f } := rfl
@[simp] theorem State.modStats_servo (p : Nat) (f : ChanStats → ChanStats) (s : State) : (s.modStats p f).servo = s.servo := rfl
@[simp] theorem State.modStats_tongs (p : Nat) (f : ChanStats → ChanStats) (s : State) : (s.modStats p f).tongs = s.tongs := rfl
@[simp] theorem State.modStats_hearth (p : Nat) (f : ChanStats → ChanStats) (s : State) : (s.modStats p f).hearth = s.hearth := rfl
@[simp] theorem State.modStats_sec (p : Nat) (f : ChanStats → ChanStats) (s : State) : (s.modStats p f).sec = s.sec := rfl
@[simp] theorem State.modStats_comp (p : Nat) (f : ChanStats → ChanStats) (s : State) : (s.modStats p f).comp = s.comp := rfl
@[simp] theorem State.modStats_units (p : Nat) (f : ChanStats → ChanStats) (s : State) : (s.modStats p f).units = s.units := rfl
@[simp] theorem State.modStats_twin (p : Nat) (f : ChanStats → ChanStats) (s : State) : (s.modStats p f).twin = s.twin := rfl
@[simp] theorem State.modStats_jnl (p : Nat) (f : ChanStats → ChanStats) (s : State) : (s.modStats p f).jnl = s.jnl := rfl
@[simp] theorem State.modStats_bench (p : Nat) (f : ChanStats → ChanStats) (s : State) : (s.modStats p f).bench = s.bench := rfl
@[simp] theorem State.modStats_fw (p : Nat) (f : ChanStats → ChanStats) (s : State) : (s.modStats p f).fw = s.fw := rfl
@[simp] theorem State.modStats_pwr (p : Nat) (f : ChanStats → ChanStats) (s : State) : (s.modStats p f).pwr = s.pwr := rfl
@[simp] theorem State.modStats_pvt (p : Nat) (f : ChanStats → ChanStats) (s : State) : (s.modStats p f).pvt = s.pvt := rfl
@[simp] theorem State.modStats_out (p : Nat) (f : ChanStats → ChanStats) (s : State) : (s.modStats p f).out = s.out := rfl
@[simp] theorem State.modStats_env (p : Nat) (f : ChanStats → ChanStats) (s : State) : (s.modStats p f).env = s.env := rfl
@[simp] theorem State.modStats_free (p : Nat) (f : ChanStats → ChanStats) (s : State) : (s.modStats p f).free = s.free := rfl

@[simp] theorem State.modSlot_pending (n : Nat) (f : KeySlot → KeySlot) (s : State) : (s.modSlot n f).pending = s.pending := rfl
@[simp] theorem State.modSlot_pins (n : Nat) (f : KeySlot → KeySlot) (s : State) : (s.modSlot n f).pins = s.pins := rfl
@[simp] theorem State.modSlot_time (n : Nat) (f : KeySlot → KeySlot) (s : State) : (s.modSlot n f).time = s.time := rfl
@[simp] theorem State.modSlot_glob (n : Nat) (f : KeySlot → KeySlot) (s : State) : (s.modSlot n f).glob = s.glob := rfl
@[simp] theorem State.modSlot_evq (n : Nat) (f : KeySlot → KeySlot) (s : State) : (s.modSlot n f).evq = s.evq := rfl
@[simp] theorem State.modSlot_pairs (n : Nat) (f : KeySlot → KeySlot) (s : State) : (s.modSlot n f).pairs = s.pairs := rfl
@[simp] theorem State.modSlot_arb (n : Nat) (f : KeySlot → KeySlot) (s : State) : (s.modSlot n f).arb = s.arb := rfl
@[simp] theorem State.modSlot_motion (n : Nat) (f : KeySlot → KeySlot) (s : State) : (s.modSlot n f).motion = s.motion := rfl
@[simp] theorem State.modSlot_mail (n : Nat) (f : KeySlot → KeySlot) (s : State) : (s.modSlot n f).mail = s.mail := rfl
@[simp] theorem State.modSlot_params (n : Nat) (f : KeySlot → KeySlot) (s : State) : (s.modSlot n f).params = s.params := rfl
@[simp] theorem State.modSlot_recs (n : Nat) (f : KeySlot → KeySlot) (s : State) : (s.modSlot n f).recs = s.recs := rfl
@[simp] theorem State.modSlot_cart (n : Nat) (f : KeySlot → KeySlot) (s : State) : (s.modSlot n f).cart = s.cart := rfl
@[simp] theorem State.modSlot_forge (n : Nat) (f : KeySlot → KeySlot) (s : State) : (s.modSlot n f).forge = s.forge := rfl
@[simp] theorem State.modSlot_anvil (n : Nat) (f : KeySlot → KeySlot) (s : State) : (s.modSlot n f).anvil = s.anvil := rfl
@[simp] theorem State.modSlot_heat (n : Nat) (f : KeySlot → KeySlot) (s : State) : (s.modSlot n f).heat = s.heat := rfl
@[simp] theorem State.modSlot_blw (n : Nat) (f : KeySlot → KeySlot) (s : State) : (s.modSlot n f).blw = s.blw := rfl
@[simp] theorem State.modSlot_rd (n : Nat) (f : KeySlot → KeySlot) (s : State) : (s.modSlot n f).rd = s.rd := rfl
@[simp] theorem State.modSlot_servo (n : Nat) (f : KeySlot → KeySlot) (s : State) : (s.modSlot n f).servo = s.servo := rfl
@[simp] theorem State.modSlot_tongs (n : Nat) (f : KeySlot → KeySlot) (s : State) : (s.modSlot n f).tongs = s.tongs := rfl
@[simp] theorem State.modSlot_hearth (n : Nat) (f : KeySlot → KeySlot) (s : State) : (s.modSlot n f).hearth = s.hearth := rfl
@[simp] theorem State.modSlot_sec (n : Nat) (f : KeySlot → KeySlot) (s : State) : (s.modSlot n f).sec = { s.sec with slots := modAt s.sec.slots n f } := rfl
@[simp] theorem State.modSlot_comp (n : Nat) (f : KeySlot → KeySlot) (s : State) : (s.modSlot n f).comp = s.comp := rfl
@[simp] theorem State.modSlot_units (n : Nat) (f : KeySlot → KeySlot) (s : State) : (s.modSlot n f).units = s.units := rfl
@[simp] theorem State.modSlot_twin (n : Nat) (f : KeySlot → KeySlot) (s : State) : (s.modSlot n f).twin = s.twin := rfl
@[simp] theorem State.modSlot_jnl (n : Nat) (f : KeySlot → KeySlot) (s : State) : (s.modSlot n f).jnl = s.jnl := rfl
@[simp] theorem State.modSlot_bench (n : Nat) (f : KeySlot → KeySlot) (s : State) : (s.modSlot n f).bench = s.bench := rfl
@[simp] theorem State.modSlot_fw (n : Nat) (f : KeySlot → KeySlot) (s : State) : (s.modSlot n f).fw = s.fw := rfl
@[simp] theorem State.modSlot_pwr (n : Nat) (f : KeySlot → KeySlot) (s : State) : (s.modSlot n f).pwr = s.pwr := rfl
@[simp] theorem State.modSlot_pvt (n : Nat) (f : KeySlot → KeySlot) (s : State) : (s.modSlot n f).pvt = s.pvt := rfl
@[simp] theorem State.modSlot_out (n : Nat) (f : KeySlot → KeySlot) (s : State) : (s.modSlot n f).out = s.out := rfl
@[simp] theorem State.modSlot_env (n : Nat) (f : KeySlot → KeySlot) (s : State) : (s.modSlot n f).env = s.env := rfl
@[simp] theorem State.modSlot_free (n : Nat) (f : KeySlot → KeySlot) (s : State) : (s.modSlot n f).free = s.free := rfl

@[simp] theorem State.dropSpeedRequest_pending (s : State) : (s.dropSpeedRequest).pending = s.pending := rfl
@[simp] theorem State.dropSpeedRequest_pins (s : State) : (s.dropSpeedRequest).pins = s.pins := rfl
@[simp] theorem State.dropSpeedRequest_time (s : State) : (s.dropSpeedRequest).time = s.time := rfl
@[simp] theorem State.dropSpeedRequest_glob (s : State) : (s.dropSpeedRequest).glob = s.glob := rfl
@[simp] theorem State.dropSpeedRequest_evq (s : State) : (s.dropSpeedRequest).evq = s.evq := rfl
@[simp] theorem State.dropSpeedRequest_pairs (s : State) : (s.dropSpeedRequest).pairs = s.pairs := rfl
@[simp] theorem State.dropSpeedRequest_arb (s : State) : (s.dropSpeedRequest).arb = s.arb := rfl
@[simp] theorem State.dropSpeedRequest_motion (s : State) : (s.dropSpeedRequest).motion = s.motion := rfl
@[simp] theorem State.dropSpeedRequest_mail (s : State) : (s.dropSpeedRequest).mail = s.mail := rfl
@[simp] theorem State.dropSpeedRequest_params (s : State) : (s.dropSpeedRequest).params = s.params := rfl
@[simp] theorem State.dropSpeedRequest_recs (s : State) : (s.dropSpeedRequest).recs = s.recs := rfl
@[simp] theorem State.dropSpeedRequest_cart (s : State) : (s.dropSpeedRequest).cart = s.cart := rfl
@[simp] theorem State.dropSpeedRequest_forge (s : State) : (s.dropSpeedRequest).forge = s.forge := rfl
@[simp] theorem State.dropSpeedRequest_anvil (s : State) : (s.dropSpeedRequest).anvil = s.anvil := rfl
@[simp] theorem State.dropSpeedRequest_heat (s : State) : (s.dropSpeedRequest).heat = s.heat := rfl
@[simp] theorem State.dropSpeedRequest_blw (s : State) : (s.dropSpeedRequest).blw = { s.blw with ackPending := false, fell := false } := rfl
@[simp] theorem State.dropSpeedRequest_rd (s : State) : (s.dropSpeedRequest).rd = s.rd := rfl
@[simp] theorem State.dropSpeedRequest_servo (s : State) : (s.dropSpeedRequest).servo = s.servo := rfl
@[simp] theorem State.dropSpeedRequest_tongs (s : State) : (s.dropSpeedRequest).tongs = s.tongs := rfl
@[simp] theorem State.dropSpeedRequest_hearth (s : State) : (s.dropSpeedRequest).hearth = s.hearth := rfl
@[simp] theorem State.dropSpeedRequest_sec (s : State) : (s.dropSpeedRequest).sec = s.sec := rfl
@[simp] theorem State.dropSpeedRequest_comp (s : State) : (s.dropSpeedRequest).comp = s.comp := rfl
@[simp] theorem State.dropSpeedRequest_units (s : State) : (s.dropSpeedRequest).units = s.units := rfl
@[simp] theorem State.dropSpeedRequest_twin (s : State) : (s.dropSpeedRequest).twin = s.twin := rfl
@[simp] theorem State.dropSpeedRequest_jnl (s : State) : (s.dropSpeedRequest).jnl = s.jnl := rfl
@[simp] theorem State.dropSpeedRequest_bench (s : State) : (s.dropSpeedRequest).bench = s.bench := rfl
@[simp] theorem State.dropSpeedRequest_fw (s : State) : (s.dropSpeedRequest).fw = s.fw := rfl
@[simp] theorem State.dropSpeedRequest_pwr (s : State) : (s.dropSpeedRequest).pwr = s.pwr := rfl
@[simp] theorem State.dropSpeedRequest_pvt (s : State) : (s.dropSpeedRequest).pvt = s.pvt := rfl
@[simp] theorem State.dropSpeedRequest_out (s : State) : (s.dropSpeedRequest).out = s.out := rfl
@[simp] theorem State.dropSpeedRequest_env (s : State) : (s.dropSpeedRequest).env = s.env := rfl
@[simp] theorem State.dropSpeedRequest_free (s : State) : (s.dropSpeedRequest).free = s.free := rfl

/-! ## The accessors after them -/

theorem State.pair?_modPair (q q' : Nat) (f : Pair → Pair) (s : State) :
    (s.modPair q f).pair? q' = if q = q' then (s.pair? q').map f else s.pair? q' := by
  simp only [State.pair?, State.modPair_pairs, getElem?_modAt]
  split <;> cases s.pairs[q']? <;> simp

@[simp] theorem State.pair?_modPair_self (q : Nat) (f : Pair → Pair) (s : State) : (s.modPair q f).pair? q = (s.pair? q).map f := by
  simp [State.pair?_modPair]

theorem State.pair?_modPair_other {q q' : Nat} (h : q' ≠ q) (f : Pair → Pair) (s : State) : (s.modPair q f).pair? q' = s.pair? q' := by
  rw [State.pair?_modPair, if_neg (Ne.symm h)]

theorem State.mbox_modMbox_self {m : Nat} {s : State} (h : m < s.mail.length) (f : Mailbox → Mailbox) : (s.modMbox m f).mbox m = f (s.mbox m) := by
  simp [State.mbox, getElem?_modAt, List.getElem?_eq_getElem h]

theorem State.mbox_modMbox_other {m k : Nat} (h : k ≠ m) (f : Mailbox → Mailbox) (s : State) : (s.modMbox m f).mbox k = s.mbox k := by
  simp [State.mbox, getElem?_modAt, Ne.symm h]

theorem State.port_modPort_other {p k : Nat} (h : k ≠ p) (f : Port → Port) (s : State) : (s.modPort p f).port k = s.port k := by
  simp [State.port, getElem?_modAt, Ne.symm h]

theorem State.chan_modAnvil_other {p k : Nat} (h : k ≠ p) (f : Chan → Chan) (s : State) : (s.modAnvil p f).chan k = s.chan k := by
  simp [State.chan, getElem?_modAt, Ne.symm h]

/-- Outputs, free values, the pairs and the mailboxes do not bear on one another. -/
@[simp] theorem State.pair?_emit (o : Output) (q : Nat) (s : State) : (s.emit o).pair? q = s.pair? q := rfl
@[simp] theorem State.mbox_emit (o : Output) (m : Nat) (s : State) : (s.emit o).mbox m = s.mbox m := rfl
@[simp] theorem State.cmd?_emit (o : Output) (q tag : Nat) (s : State) : (s.emit o).cmd? q tag = s.cmd? q tag := rfl
@[simp] theorem State.rec?_emit (o : Output) (r : Nat) (s : State) : (s.emit o).rec? r = s.rec? r := rfl
@[simp] theorem State.mbox_modPair (q : Nat) (f : Pair → Pair) (m : Nat) (s : State) : (s.modPair q f).mbox m = s.mbox m := rfl
@[simp] theorem State.pair?_modMbox (m : Nat) (f : Mailbox → Mailbox) (q : Nat) (s : State) : (s.modMbox m f).pair? q = s.pair? q := rfl
@[simp] theorem State.cmd?_modPair (q' : Nat) (f : Pair → Pair) (q tag : Nat) (s : State) : (s.modPair q' f).cmd? q tag = s.cmd? q tag := rfl
@[simp] theorem State.rec?_modPair (q' : Nat) (f : Pair → Pair) (r : Nat) (s : State) : (s.modPair q' f).rec? r = s.rec? r := rfl

/-- A dropped command is outstanding no longer; others stay. -/
theorem State.cmd?_dropCmd_self (q tag : Nat) (s : State) : (s.dropCmd q tag).cmd? q tag = none := by
  simp only [State.cmd?, State.dropCmd, List.find?_eq_none, List.mem_filter]
  rintro c ⟨-, h⟩
  cases hx : (decide (c.pair = q) && decide (c.tag = tag)) <;> simp_all

/-! ## Outputs -/

@[simp] theorem State.newOut_self (s : State) : s.newOut s = [] := by simp [State.newOut]

@[simp] theorem State.newOut_emit (o : Output) (s : State) : s.newOut (s.emit o) = [o] := by simp [State.newOut]

/-- What two steps put out is what the first put out, then the second. -/
theorem State.newOut_trans {s t u : State} (h : s.out <+: t.out) (k : t.out <+: u.out) : s.newOut u = s.newOut t ++ t.newOut u := by
  obtain ⟨a, ha⟩ := h
  obtain ⟨b, hb⟩ := k
  simp [State.newOut, ← hb, ← ha, List.append_assoc]

theorem State.newOut_left {s t u : State} (h : s.out <+: t.out) (k : t.out <+: u.out) {o : Output} (m : o ∈ s.newOut t) : o ∈ s.newOut u := by
  rw [State.newOut_trans h k]; exact List.mem_append_left _ m

theorem State.newOut_right {s t u : State} (h : s.out <+: t.out) (k : t.out <+: u.out) {o : Output} (m : o ∈ t.newOut u) : o ∈ s.newOut u := by
  rw [State.newOut_trans h k]; exact List.mem_append_right _ m

end Sys2Proof.Machine
end

