-- ==== Sys2Proof/Laws/Mail.lean ====
section
/-! SUPPORT. What a GO does that is served at once, and what an answer and a completion entry leave behind: to be cited where a mailbox
command's or a record command's whole effect is stated. -/

namespace Sys2Proof.Machine

/-- The state in which a request that is served at once is served: the GO is journalled, the mailbox BUSY with it. -/
def State.accepted' (op : Nat) (r : MbReq) (s : State) : State := ((s.linkIn).withIo r.io).acceptGo op r

theorem State.journal_field {α : Type} (g : State → α) (h : ∀ (u : State) (j : Journal), g { u with jnl := j } = g u) (a b : Nat) (p : Bytes)
    (s : State) : g (s.journal a b p) = g s := by
  unfold State.journal
  split
  · dsimp only
    split <;> exact h _ _
  · rfl

/-- A header that comes in changes the journal and the count of free values only. -/
theorem State.linkIn_field {α : Type} (g : State → α) (h : ∀ (u : State) (j : Journal), g { u with jnl := j } = g u)
    (k : ∀ u : State, g u.drew = g u) (s : State) : g s.linkIn = g s := by
  unfold State.linkIn
  rw [k, State.journal_field g h]

theorem State.acceptGo_field {α : Type} (g : State → α) (h : ∀ (u : State) (j : Journal), g { u with jnl := j } = g u)
    (k : ∀ (m : Nat) (f : Mailbox → Mailbox) (u : State), g (u.modMbox m f) = g u) (op : Nat) (r : MbReq) (s : State) :
    g (s.acceptGo op r) = g s := by
  unfold State.acceptGo State.order
  rw [State.journal_field g h, State.journal_field g h, k]

/-- A GO that is served at once is served in the accepted state. -/
theorem mbGo_serves {op : Nat} {r : MbReq} {s : State} (h : s.Serves op r) (serve : MbReq → State → State) :
    mbGo op r serve s = serve r (s.accepted' op r) := by
  have f1 : s.linkIn.glob = s.glob := State.linkIn_field _ (fun _ _ => rfl) (fun _ => rfl) s
  have f2 : s.linkIn.mail = s.mail := State.linkIn_field _ (fun _ _ => rfl) (fun _ => rfl) s
  have f3 : (s.accepted' op r).pwr = s.pwr :=
    (State.acceptGo_field _ (fun _ _ => rfl) (fun _ _ _ => rfl) op r _).trans (State.linkIn_field (fun u => u.pwr) (fun _ _ => rfl) (fun _ => rfl) s)
  have f4 : (s.accepted' op r).fw = s.fw :=
    (State.acceptGo_field _ (fun _ _ => rfl) (fun _ _ _ => rfl) op r _).trans (State.linkIn_field (fun u => u.fw) (fun _ _ => rfl) (fun _ => rfl) s)
  have w : (s.accepted' op r).goWakes op = false := by rw [← h.awake]; simp only [State.goWakes, f3]
  have n : (s.accepted' op r).mbWaits op = false := by rw [← h.now]; simp only [State.mbWaits, f3, f4]
  have i : (s.linkIn.mbox r.mb).state ≠ 1 := by simpa only [State.mbox, f2] using h.idle
  unfold State.accepted' at w n
  unfold mbGo State.accepted'
  dsimp only
  simp only [f1, h.ready, h.alive, i, w, n, Bool.not_true, Bool.or_self, Bool.false_eq_true, if_false]

theorem State.accepted'_only (op : Nat) (r : MbReq) (s : State) : Only [.mail] s (s.accepted' op r) := by
  refine ((State.linkIn_only s).mono (by simp)).trans ?_
  refine .trans (t := s.linkIn.withIo r.io) ⟨List.prefix_refl _, fun b _ => by cases b <;> rfl⟩ ?_
  change Only [.mail] (s.linkIn.withIo r.io) ((s.linkIn.withIo r.io).acceptGo op r)
  unfold State.acceptGo State.order
  exact (State.modMbox_only _ _ _).trans (((State.journal_only ..).trans (State.journal_only ..)).mono (by simp))

theorem State.accepted'_mail (op : Nat) (r : MbReq) (s : State) : (s.accepted' op r).mail = modAt s.mail r.mb (Mailbox.busy op r) := by
  unfold State.accepted' State.acceptGo State.order
  dsimp only
  rw [State.journal_field (fun u => u.mail) (fun _ _ => rfl), State.journal_field (fun u => u.mail) (fun _ _ => rfl), State.modMbox_mail]
  rw [show ((s.linkIn).withIo r.io).mail = s.mail from State.linkIn_field (fun u => u.mail) (fun _ _ => rfl) (fun _ => rfl) s]
  rfl

theorem State.accepted'_out (op : Nat) (r : MbReq) (s : State) : (s.accepted' op r).out = s.out := by
  unfold State.accepted'
  rw [State.acceptGo_field (fun u => u.out) (fun _ _ => rfl) (fun _ _ _ => rfl)]
  exact State.linkIn_field (fun u => u.out) (fun _ _ => rfl) (fun _ => rfl) s

/-- A request that is accepted and not answered is under way. -/
theorem State.accepted'_underway (op : Nat) (r : MbReq) (s : State) : Underway op r s (s.accepted' op r) :=
  ⟨State.accepted'_mail op r s, fun m => by simp [State.newOut, State.accepted'_out]⟩

theorem modAt_modAt {α : Type} (l : List α) (i : Nat) (f g : α → α) : modAt (modAt l i f) i g = modAt l i (fun a => g (f a)) := by
  induction l generalizing i with
  | nil => rfl
  | cons a t ih => cases i <;> simp [modAt, ih]

theorem modAt_congr {α : Type} {l : List α} {i : Nat} {f g : α → α} (h : ∀ a, f a = g a) : modAt l i f = modAt l i g :=
  congrArg (modAt l i) (funext h)

theorem State.signal_field {α : Type} (g : State → α) (h : ∀ (u : State) (x : Glob), g { u with glob := x } = g u)
    (k : ∀ (o : Output) (u : State), g (u.emit o) = g u) (v : Nat) (s : State) : g (s.signal v) = g s := by
  unfold State.signal
  split
  · rfl
  · split
    · exact h _ _
    · exact k _ _

theorem State.signal_mbSignal (v : Nat) (s : State) : (s.signal v).glob.mbSignal = s.glob.mbSignal := by
  unfold State.signal
  split
  · rfl
  · split <;> rfl

theorem State.signal_prefix (v : Nat) (x : Glob) (s : State) : s.out <+: (({ s with glob := x } : State).signal v).out :=
  (State.signal_only v { s with glob := x }).1

/-- Everything a response does. -/
theorem State.respond_spec (m : Nat) (st : BitVec 16) (d : Nat) (p : Bytes) (s : State) :
    (s.respond m st d p).mail = modAt s.mail m (fun b => { b with
      state := 2, held := false, req := none, status := st, detail := BitVec.ofNat 16 d, payload := p }) ∧
    Output.response m ∈ s.newOut (s.respond m st d p) ∧
    (m < s.mail.length → (s.mbox m).intEnable = true → (s.respond m st d p).glob.mbSignal = true) := by
  refine ⟨?_, ?_, ?_⟩
  · unfold State.respond
    dsimp only
    split
    · rw [State.signal_field (fun u => u.mail) (fun _ _ => rfl) (fun _ _ => rfl)]; rfl
    · rfl
  · have h0 : Output.response m ∈ s.newOut ((s.modMbox m (fun b => { b with
      state := 2, held := false, req := none, status := st, detail := BitVec.ofNat 16 d, payload := p })).emit (.response m)) := by
      simp [State.newOut]
    have hp : s.out <+: ((s.modMbox m (fun b => { b with
      state := 2, held := false, req := none, status := st, detail := BitVec.ofNat 16 d, payload := p })).emit (.response m)).out := by simp
    unfold State.respond
    dsimp only
    split
    · exact State.newOut_mono hp (State.signal_prefix 256 _ _) h0
    · exact h0
  · intro hm hi
    have hb : ((s.modMbox m (fun b => { b with
      state := 2, held := false, req := none, status := st, detail := BitVec.ofNat 16 d, payload := p })).emit (.response m)).mbox m =
        { s.mbox m with state := 2, held := false, req := none, status := st, detail := BitVec.ofNat 16 d, payload := p } := by
      rw [State.mbox_emit, State.mbox_modMbox_self hm]
    unfold State.respond
    dsimp only
    rw [hb]
    simp only [hi, if_true, State.signal_mbSignal]

/-- A GO that is served at once and answered without any other effect: its answer and its frame. -/
theorem mbGo_answers {op : Nat} {r : MbReq} {s : State} (h : s.Serves op r) {serve : MbReq → State → State} {st : BitVec 16} {d : Nat} {p : Bytes}
    (hs : serve r (s.accepted' op r) = (s.accepted' op r).respond r.mb st d p) :
    Answered op r st d p s (mbGo op r serve s) ∧ Only [.mail] s (mbGo op r serve s) := by
  have e : mbGo op r serve s = (s.accepted' op r).respond r.mb st d p := (mbGo_serves h serve).trans hs
  rw [e]
  obtain ⟨a, b, c⟩ := State.respond_spec r.mb st d p (s.accepted' op r)
  have hm : r.mb.val < s.mail.length := by rw [h.mail]; exact r.mb.isLt
  have o : s.out <+: (s.accepted' op r).out := ⟨[], by rw [List.append_nil, State.accepted'_out]⟩
  refine ⟨⟨?_, ?_, ?_⟩, (State.accepted'_only op r s).trans (State.respond_only _ _ _ _ _)⟩
  · rw [a, State.accepted'_mail, modAt_modAt]
    exact modAt_congr (fun _ => rfl)
  · exact State.newOut_late o b (State.respond_only _ _ _ _ _).1
  · intro hi
    refine c (by rw [State.accepted'_mail, length_modAt]; exact hm) ?_
    have : (s.accepted' op r).mbox r.mb = Mailbox.busy op r (s.mbox r.mb) := by
      simp [State.mbox, State.accepted'_mail, getElem?_modAt, List.getElem?_eq_getElem hm]
    rw [this]; exact hi

/-! ## Completion entries -/

theorem State.mirror_field {α : Type} (g : State → α) (k : ∀ (o : Output) (u : State), g (u.emit o) = g u) (m : MirrorItem) (s : State) :
    g (s.mirror m) = g s := by
  unfold State.mirror
  split
  · exact k _ _
  · rfl

/-- The entry that a pair that can take it gets. -/
theorem State.writeEntry_spec {q : Nat} {p : Pair} {s : State} (h : s.pair? q = some p) (e : p.error = false) (c : q ∉ s.env.cqFail) (tag : Nat)
    (ctx : BitVec 32) (st : BitVec 16) (res : BitVec 64) (ext : BitVec 32) (rep : Bool) :
    let t := s.writeEntry q tag ctx st res ext rep
    (∃ now, Output.completion (p.entryFor q tag ctx st res ext now rep) ∈ s.newOut t) ∧ t.recs = s.recs ∧ (∀ q', q' ≠ q → t.pair? q' = s.pair? q') ∧
    t.pairError q = false ∧ Only [.pairs] s t := by
  dsimp only
  have go : ∀ (x : Pair → Pair) (o : Output), (∀ y : Pair, (x y).error = y.error) →
      let u := (((s.modPair q x).mirror (.completion q tag st res ext)).emit o).mirror (.written q tag)
      ∀ t, (t = u ∨ t = u.signal q) → o ∈ s.newOut t ∧ t.recs = s.recs ∧ (∀ q', q' ≠ q → t.pair? q' = s.pair? q') ∧ t.pairError q = false ∧
        Only [.pairs] s t := by
    intro x o hx
    dsimp only
    intro t ht
    have f : ∀ {α : Type} (g : State → α), (∀ (o : Output) (u : State), g (u.emit o) = g u) → (∀ (u : State) (y : Glob), g { u with glob := y } = g u) →
        g t = g (s.modPair q x) := by
      intro α g k k'
      rcases ht with rfl | rfl
      · rw [State.mirror_field g k, k, State.mirror_field g k]
      · rw [State.signal_field g k' k, State.mirror_field g k, k, State.mirror_field g k]
    have o1 : Only [.pairs] s ((s.modPair q x).mirror (.completion q tag st res ext)) := (State.modPair_only q x s).trans ((State.mirror_only _ _).mono (by simp))
    have o2 := o1.trans ((State.emit_only o _).mono (by simp))
    have o3 := o2.trans ((State.mirror_only (.written q tag) _).mono (by simp))
    have m : o ∈ s.newOut (((s.modPair q x).mirror (.completion q tag st res ext)).emit o) :=
      State.newOut_right o1.1 (State.emit_only _ _).1 (by simp)
    have m3 := State.newOut_mono o2.1 (State.mirror_only (.written q tag) _).1 m
    refine ⟨?_, f (fun u => u.recs) (fun _ _ => rfl) (fun _ _ => rfl), ?_, ?_, ?_⟩
    · rcases ht with rfl | rfl
      · exact m3
      · exact State.newOut_mono o3.1 (State.signal_only q _).1 m3
    · intro q' hq
      rw [f (fun u => u.pair? q') (fun _ _ => rfl) (fun _ _ => rfl), State.pair?_modPair_other hq]
    · rw [f (fun u => u.pairError q) (fun _ _ => rfl) (fun _ _ => rfl)]
      simp [State.pairError, h, hx, e]
    · rcases ht with rfl | rfl
      · exact o3
      · exact o3.trans ((State.signal_only q _).mono (by simp))
  have key := go (fun p' => { p'.advanceCq with unsignalled := if p.signalsNow st then 0 else p'.unsignalled + 1 })
    (.completion (p.entryFor q tag ctx st res ext (((s.modPair q (fun p' => { p'.advanceCq with unsignalled := if p.signalsNow st then 0 else p'.unsignalled + 1 })).mirror
      (.completion q tag st res ext)).now) rep)) (fun _ => rfl)
  unfold State.writeEntry
  simp only [h, e, c, if_false, Bool.false_eq_true]
  have r := fun t ht => (fun (x : _ ∧ _) => (⟨⟨_, x.1⟩, x.2⟩ : (∃ now, Output.completion (p.entryFor q tag ctx st res ext now rep) ∈ s.newOut t) ∧ _)) (key t ht)
  refine r _ ?_
  split
  · exact .inr rfl
  · exact .inl rfl

/-- A command of a live pair completes: its entry, and its frame. -/
theorem State.complete_spec {q tag : Nat} {cmd : Cmd} {p : Pair} {s : State} (h : s.pair? q = some p) (k : s.cmd? q tag = some cmd) (e : p.error = false)
    (c : q ∉ s.env.cqFail) (st : BitVec 16) (res ext : Nat) :
    let t := s.complete q tag st (BitVec.ofNat 64 res) (BitVec.ofNat 32 ext)
    Completed q tag st res ext s t ∧ t.recs = (s.dropCmd q tag).recs ∧ Only [.pairs, .recs] s t := by
  dsimp only
  obtain ⟨⟨now, a⟩, b, d, f, o⟩ := State.writeEntry_spec h e c tag (BitVec.ofNat 32 (getLe cmd.entry 4 4)) st (BitVec.ofNat 64 res) (BitVec.ofNat 32 ext) cmd.inDoubt
  have hc : s.complete q tag st (BitVec.ofNat 64 res) (BitVec.ofNat 32 ext) =
      (s.writeEntry q tag (BitVec.ofNat 32 (getLe cmd.entry 4 4)) st (BitVec.ofNat 64 res) (BitVec.ofNat 32 ext) cmd.inDoubt).dropCmd q tag := by
    simp [State.complete, k, State.writeCompletion, f]
  rw [hc]
  have op : Only [.recs] (s.writeEntry q tag (BitVec.ofNat 32 (getLe cmd.entry 4 4)) st (BitVec.ofNat 64 res) (BitVec.ofNat 32 ext) cmd.inDoubt)
      ((s.writeEntry q tag (BitVec.ofNat 32 (getLe cmd.entry 4 4)) st (BitVec.ofNat 64 res) (BitVec.ofNat 32 ext) cmd.inDoubt).dropCmd q tag) :=
    ⟨List.prefix_refl _, fun b hb => by cases b <;> first | rfl | simp at hb⟩
  refine ⟨⟨⟨_, a, rfl, rfl, rfl, rfl, ?_⟩, State.cmd?_dropCmd_self _ _ _, fun q' hq => d q' hq⟩, ?_, (o.mono (by simp)).trans (op.mono (by simp))⟩
  · intro p' hp' hr
    rw [h] at hp'
    obtain rfl := Option.some.inj hp'
    simp [Pair.entryFor, hr]
  · simp only [State.dropCmd, b]

end Sys2Proof.Machine
end

