-- ==== Sys2Proof/Machine/LaneCode.lean ====
section
/-! DEFINITION. How the payload words of a superframe lie on the lanes of a port, and how sample flits lie on its receive lanes: PAM4
levels, scrambler, marker words, spare lanes (R401, R402, R405 to R407, R410, R416, R418, R419). The step sends and takes payload words and
flits; these functions say what the lanes carry for them (log 102). -/

namespace Sys2Proof.Machine

/-- Level of a PAM4 symbol, its first bit the most significant (R401). -/
def pamLevel (hi lo : Bool) : Int :=
  match hi, lo with
  | false, false => -3
  | false, true => -1
  | true, true => 1
  | true, false => 3

/-- The symbols of a word, sent from bit 63 down (R401, R402). -/
def wordLevels (w : BitVec 64) : List Int :=
  (List.range 32).map (fun i => pamLevel (w.getLsbD (63 - 2 * i)) (w.getLsbD (62 - 2 * i)))

/-! ## Scrambler (R402) -/

/-- The scrambler's state at the first bit after the marker of a superframe. -/
def linkSeed (super lane : Nat) : Nat := super % 2 ^ 15 * 2 ^ 8 + lane % 16 * 2 ^ 4 + 15

/-- A word scrambled, `n` bits still to go, and the scrambler's state after it. -/
def scrambleBits (w : BitVec 64) : Nat → Nat → Nat → Nat × Nat
  | 0, r, acc => (acc, r)
  | n + 1, r, acc =>
    let o := r / 2 ^ 22 % 2 ^^^ r / 2 ^ 17 % 2
    scrambleBits w n ((2 * r + o) % 2 ^ 23) (2 * acc + ((w.getLsbD n).toNat ^^^ o))

/-- The words behind a marker, scrambled one after the other. -/
def scrambleWords : Nat → List (BitVec 64) → List (BitVec 64)
  | _, [] => []
  | r, w :: rest =>
    let x := scrambleBits w 64 r 0
    BitVec.ofNat 64 x.1 :: scrambleWords x.2 rest

/-! ## Marker words (R405, R406, Table 14-3) -/

/-- BIP-8 over the 34 scrambled words of a superframe. -/
def bip8 (ws : List (BitVec 64)) : Nat :=
  ws.foldl (fun a w => (List.range 8).foldl (fun a i => a ^^^ bitsOf w.toNat (8 * i) 8) a) 0

/-- The marker's pattern, bits [63:24]. -/
def markerPattern : Nat := 0xA5C396F00F

/-- The marker word of a superframe on a physical lane, with the BIP-8 of the superframe before. -/
def markerWord (super lane bip : Nat) : BitVec 64 :=
  BitVec.ofNat 64 (markerPattern * 2 ^ 24 + super % 2 ^ 8 * 2 ^ 16 + lane % 16 * 2 ^ 12 + bip % 2 ^ 8)

/-- A received word matches the marker's pattern: at most 2 of its 40 bits are wrong (R406). -/
def isMarker (w : BitVec 64) : Bool :=
  ((List.range 40).filter (fun i => w.getLsbD (24 + i) != markerPattern.testBit i)).length ≤ 2

/-- The 35 words of a superframe on a physical lane: the marker, then 34 payload words scrambled (R402, R405). -/
def laneSuperframe (super lane bip : Nat) (payload : List (BitVec 64)) : List (BitVec 64) :=
  markerWord super lane bip :: scrambleWords (linkSeed super lane) payload

/-! ## Transmit lanes of a port (R410, R416, R418, R419) -/

/-- Payload words on transmit logical lane `l` of port `i`: word j of a head port lies on lane j mod 2 (R410), a servo port has one lane
(R416). -/
def lanePayload (i l : Nat) (words : List (BitVec 64)) : List (BitVec 64) :=
  if i < 16 then (List.range 34).map (fun k => words.getD (2 * k + l) 0) else words.take 34

/-- What the physical transmit lane carries of a superframe: a logical lane's words, on the spare the words of a lane that a swap copies
from s + 16 on, on an idle spare zero words; none on any other lane (R418, R419). -/
def Port.transmitLane (i : Nat) (p : Port) (words : List (BitVec 64)) (lane : Nat) : Option (List (BitVec 64)) :=
  match (List.range 2).find? (fun l => p.map[9 + l]? = some lane) with
  | some l => some (lanePayload i l words)
  | none =>
    if p.txSpare = some lane then
      match p.swap with
      | some w =>
        if w.transmit && 16 ≤ (p.superframe.toNat + 65536 - w.start) % 65536 then some (lanePayload i (w.logical - 9) words)
        else some (List.replicate 34 0)
      | none => some (List.replicate 34 0)
    else none

/-! ## Sample flits on the receive lanes (R407) -/

/-- Payload bit `k` of a lane, counted from the first bit sent, from its words 1 to 33. -/
def lanePayloadBit (ws : List (BitVec 64)) (k : Nat) : Bool := (ws.getD (1 + k / 64) 0).getLsbD (63 - k % 64)

/-- The 3,168 bits of flit `k` from the nine logical lanes of a superframe, in order of transmission. -/
def flitBits (lanes : List (List (BitVec 64))) (k : Nat) : List Bool :=
  (List.range 3168).map (fun b => let m := 3168 * k + b; lanePayloadBit (lanes.getD (m % 9) []) (m / 9))

end Sys2Proof.Machine
end

