-- ==== Sys2Proof/WellFormed.lean ====
section
/-! DEFINITION. Well-formed commands: operands that what arrives from outside always satisfies and that no operand type says by itself
(lengths of received words, readings and requests, the ranges of numbers). A command that is not well-formed stands for nothing that
the hardware can receive; every command has its meaning nevertheless. -/

namespace Sys2Proof

/-- A mailbox request's payload lies in the request buffer (R339). -/
def MbReq.wf (r : MbReq) : Bool := decide (r.payload.length ≤ 4080)

/-- A fetched entry has the size of an SQ entry: 32, 64 or 128 bytes (Table 10-9). -/
def FetchIo.wf : FetchIo → Bool
  | .entry b _ _ => b.length = 32 || b.length = 64 || b.length = 128
  | .readFailed => true

/-- Boot trains 18 ports and 8 channels, and the link runs at a rate of R276; serials are 16 bytes. -/
def BootEnv.wf (e : BootEnv) : Bool :=
  e.ports.length = 18 && e.chans.length = 8 && (e.rate = 16 || e.rate = 24 || e.rate = 32) && e.serial.length = 16
    && e.pairing.all (fun p => p.1.length = 16 && p.2.length = 16)

/-- Bytes that the mirror carries have their fixed sizes: entries, QP_CREATE payloads, ledger images (Table 15-4). -/
def MirrorItem.wf : MirrorItem → Bool
  | .entry _ _ b => b.length = 64 || b.length = 128
  | .image b => b.length = 65536
  | .qpCreate p => p.length = 32
  | _ => true

/-- A command is well-formed. -/
def Instr.wf : Instr → Bool
  | .boot e => e.wf
  | .pvtSample readings => readings.length = 16
  | .registerWrite _ size _ _ _ => size = 1 || size = 2 || size = 4 || size = 8
  | .fetchGrant f => f.wf
  | .stateSummary r => r.wf
  | .paramGet r => r.wf
  | .paramSet r => r.wf
  | .qpCreate r => r.wf
  | .qpDelete r => r.wf
  | .cartLoad r => r.wf
  | .cartUnload r => r.wf
  | .ledgerGet r => r.wf
  | .ledgerStored r => r.wf
  | .eodSearch r => r.wf
  | .readChannelStats r => r.wf
  | .servoStatus r => r.wf
  | .compressStats r => r.wf
  | .scrub r => r.wf
  | .scaleLogRead r => r.wf
  | .hearthChannelStatus r => r.wf
  | .secGetIdentity r => r.wf
  | .secChallenge r => r.wf
  | .secLogin r => r.wf
  | .secLogout r => r.wf
  | .secKeyAgree r => r.wf
  | .secCommission r => r.wf
  | .secSetAuth r => r.wf
  | .secKekLoad r => r.wf
  | .secKekErase r => r.wf
  | .secKeyLoad r => r.wf
  | .secKeyErase r => r.wf
  | .secSlotInfo r => r.wf
  | .secSetMode r => r.wf
  | .secZeroize r => r.wf
  | .secSelftest r => r.wf
  | .secSelftestEnd _ pairs _ => decide pairs.Nodup
  | .fwInfo r => r.wf
  | .fwDownload r => r.wf
  | .fwCommit r => r.wf
  | .fwActivate r => r.wf
  | .powerSet r => r.wf
  | .selftestStart r => r.wf
  | .selftestAbort r => r.wf
  | .selftestResult r => r.wf
  | .selftestDone failed => failed.all (fun u => 1 ≤ u.1 && u.1 ≤ 0x1B)
  | .singletonTestSlice cls _ => 0x10 ≤ cls && cls ≤ 0x1B
  | .bistIntervalTick failed => failed.all (fun c => 1 ≤ c && c ≤ 9)
  | .calExport r => r.wf
  | .calWrite r => r.wf
  | .laneStatus r => r.wf
  | .unitControl r => r.wf
  | .twinPair r => r.wf
  | .twinSwap r => r.wf
  | .twinStatus r => r.wf
  | .benchControl r => r.wf
  | .snapshotRead r => r.wf
  | .hearthAccess req _ _ _ _ _ _ => 1 ≤ req && req ≤ 13
  | .reform wrong _ => decide wrong.Nodup
  | .servoFlit _ a b => a.length = 336 && b.length = 336
  | .sampleFlit _ b _ => b.length = 396
  | .portTrainingComplete _ aligned failed _ => decide aligned.Nodup && decide failed.Nodup
  | .motionReport e => e.length = 32
  | .mirrorItem m => m.wf
  | .m2TrainingComplete rate _ _ => rate = 16 || rate = 24 || rate = 32
  | .dailySingletonTest failed => decide failed.Nodup
  | .powerOnReset _ => true
  | .tamperNAssert => true
  | .tamperNRelease => true
  | .functionReset => true
  | .d3hotEntry => true
  | .d0Transition => true
  | .clockMonitorFault => true
  | .railFault => true
  | .ppsInEdge _ => true
  | .ppsInMissed => true
  | .ppsOutPulse => true
  | .spdAckRise => true
  | .spdAckFall => true
  | .speedRequest => true
  | .speedTimeout => true
  | .starveStop => true
  | .starveResume => true
  | .ucieModuleLoss _ => true
  | .sqTailDoorbell _ _ => true
  | .cqHeadDoorbell _ _ => true
  | .evqHeadDoorbell _ => true
  | .evqConfigWrite _ => true
  | .lockAdmission _ _ => true
  | .stagingChunkGrant _ => true
  | .coalescingTimeExpiry _ => true
  | .openRec _ _ _ => true
  | .segmentWrite _ _ _ => true
  | .segmentRead _ _ _ => true
  | .seal _ _ _ => true
  | .abandon _ _ _ => true
  | .sync _ _ _ => true
  | .syncCompletion _ => true
  | .locate _ _ _ => true
  | .recordRead _ _ _ => true
  | .mark _ _ _ => true
  | .query _ _ _ => true
  | .abort _ _ _ => true
  | .sessionFirstFrame => true
  | .eodBlockCheck _ _ => true
  | .eodSearchEnd _ _ => true
  | .scrubDone _ => true
  | .keyEraseComplete _ => true
  | .entropyHealthFail => true
  | .nonceExpiry _ => true
  | .lockoutEnd => true
  | .secZeroizeFullWrite => true
  | .secZeroizeSlotWrite _ => true
  | .activationDrain => true
  | .blackoutStart => true
  | .firmwareReady => true
  | .activationFallback => true
  | .actDrainMaxExpiry => true
  | .pwrIdleP1Expiry => true
  | .pwrIdleP2Expiry => true
  | .pwrIdleP3Expiry => true
  | .wakeEvent => true
  | .powerEntryComplete => true
  | .globalEnable => true
  | .orderlyShutdown _ => true
  | .abruptShutdown => true
  | .shutdownComplete => true
  | .timeSet => true
  | .timeStep => true
  | .timeSlew => true
  | .slewEnd => true
  | .timeFreqWrite _ => true
  | .timeNsRead => true
  | .jnlTrigger => true
  | .jnlResume => true
  | .snapPostEnd => true
  | .journalMarker => true
  | .refreshDue _ _ => true
  | .refreshRateIndicatorRead _ _ => true
  | .hotRowWindowClear _ _ => true
  | .rankPowerDown _ _ => true
  | .dqsOscillator _ _ _ => true
  | .fullRetrainingStart _ => true
  | .fullRetrainingEnd _ _ _ => true
  | .formBilletHeat => true
  | .cuCompress _ _ _ => true
  | .cuSeal _ _ => true
  | .anvilPush _ => true
  | .anvilPop _ _ _ => true
  | .heatBoundary => true
  | .wrapChange => true
  | .verifyVerdict _ _ _ _ => true
  | .verifyTimeout _ => true
  | .servoEstimate => true
  | .fastPathEstimate => true
  | .quenchRelease => true
  | .tiltUpdate => true
  | .tensionHint => true
  | .laneStatusWord _ _ _ => true
  | .managementResponse _ _ => true
  | .managementTimeout _ => true
  | .transmitSuperframe _ => true
  | .laneAlignmentLoss _ _ => true
  | .laneSwap _ _ _ => true
  | .laneSwapComplete _ _ => true
  | .portDown _ => true
  | .retrainMaxExpiry _ => true
  | .syncMarkWindow _ => true
  | .c1DecodeDone => true
  | .secondLookTry _ => true
  | .captureExpiry _ => true
  | .c2Attempt _ => true
  | .billetFinal _ => true
  | .c3Decode => true
  | .temperSegmentEnd => true
  | .raIdleExpiry => true
  | .rereadStart => true
  | .rereadPassEnd => true
  | .cuDelivery _ => true
  | .motionFault => true
  | .heartbeat => true
  | .standbyVerdict _ _ _ _ => true
  | .twinArmed _ => true
  | .peerSilentAtBoot => true
  | .m2Silence => true
  | .peerFault => true
  | .handover => true
  | .claimRefusedTimeout => true
  | .twinTakeover => true
  | .replayedCompletions => true
  | .debugUnlock => true
  | .acquireMarkAccepted _ => true
  | .streamingSingletonFault _ => true
  | .smithyLockstepFault _ => true
  | .fwCommitComplete => true

end Sys2Proof
end

