-- ==== Sys2Proof/Tests/Slice0.lean ====
section
/-! SUPPORT. Own tests: ill-formed commands are refused, worked examples of the spec, and for every statement states and operands that
meet its hypotheses, clause by clause. -/

open Sys2Proof Sys2Proof.Machine

namespace Sys2Proof.Tests

/-- The state a command leads to. -/
def after (c : Instr) (s : State) : State :=
  match exec c s with
  | .next t => t
  | _ => s

/-- Equality of states put to the kernel part by part would be long; the tests compare a few fields. -/
def outOf (s t : State) : List Output := t.out.drop s.out.length

/-! ## Small states -/

/-- A pair with 16-entry rings. -/
def pair0 : Pair :=
  { rev := 3, motion := false, urgent := false, weight := 1, sqLog := 4, cqLog := 4, coCount := 1, coTime := 0, sqBase := 0x10000, cqBase := 0x20000 }

/-- A head port that carries traffic, lanes in order, with spares. -/
def port0 : Port :=
  { state := 2, map := [0, 1, 2, 3, 4, 5, 6, 7, 8, 10, 11], rxSpare := some 9, txSpare := some 12, aligned := List.range 13, owner := true, f := 0x01000000 }

/-- The formatter booted, enabled, operational; pair 0 is the motion pair, pair 1 a command pair. -/
def up : State :=
  { State.reset with
    glob := { State.reset.glob with phase := .running, ready := true, enable := true, enabled := true, m0Up := true, m1Up := true, rate := 32 }
    pins := { pwrgood := true, refs := true }
    evq := { base := 0x1000, baseWritten := true, enable := true, log2 := 6 }
    pairs := some { pair0 with rev := 1, motion := true } :: some pair0 :: List.replicate 254 none
    sec := { State.reset.sec with state := .operational, postPassed := true, identity := true, drbg := true }
    tongs := { ports := List.replicate 18 port0, calFailed := false }
    hearth := { State.reset.hearth with chans := List.replicate 8 { state := 0 }, nwork := 8, filled := true, rot := (List.range 8).map some } }

/-- A cartridge with a good image of format GK4 and its EOD block found. -/
def loaded : State :=
  { up with cart := { loaded := true, image := { eodValid := true, recordLimit := 5 }, eodChecked := true },
            params := { accepted := [(0x06050800, 1)] }, recs := { up.recs with next := 5 } }

/-- A state that writes. -/
def writes : State :=
  { loaded with forge := { loaded.forge with writing := true }, motion := { loaded.motion with state := 4 },
                servo := { loaded.servo with mode := 0, wrap := some 0, valid := 0x3FF },
                heat := { loaded.heat with map := initialMap 4, gate := true, left := 1000 } }

/-- A state that reads. -/
def reads : State :=
  { loaded with rd := { loaded.rd with reading := true, streaming := true }, motion := { loaded.motion with state := 4 } }

/-- A mailbox request without flags. -/
def ask (m : Fin 16) (p : Bytes) (io : Io := {}) (aux : List Int := []) : MbReq :=
  { mb := m, seq := 7, len := BitVec.ofNat 32 p.length, payload := p, io := io, aux := aux }

/-- An SQ entry of revision 3: opcode, tag, record, data address and length, dwords A and B, report address. -/
def entry (op tag num addr len a b report : Nat) : Bytes :=
  leBytes 1 op ++ [0] ++ leBytes 2 tag ++ leBytes 4 0 ++ leBytes 8 num ++ leBytes 8 addr ++ leBytes 4 len ++ leBytes 4 a ++ leBytes 8 report
    ++ leBytes 4 b ++ zeros 84

/-- A command of pair 1, admitted. -/
def cmdAt (op tag num addr len a b report arrival : Nat) : Cmd :=
  { cmdOf 1 arrival (entry op tag num addr len a b report) [] true with admitted := true }

theorem executes {s : State} {op : Nat} {q : Fin 256} {tag : BitVec 16} {io : Io} {c : Cmd} {p : Pair}
    (h : s.cmd? q tag.toNat = some c ∧ s.pair? q = some p ∧ c.op = op ∧ c.admitted = true ∧ p.error = false ∧ s.sec.state ≠ .selfTest ∧
      io.cqFail = false ∧ s.commonCheck c p.rev = none) : s.Executes op q tag io c p :=
  ⟨h.1, h.2.1, h.2.2.1, h.2.2.2.1, h.2.2.2.2.1, h.2.2.2.2.2.1, h.2.2.2.2.2.2.1, h.2.2.2.2.2.2.2⟩

theorem serves {s : State} {op : Nat} {r : MbReq}
    (h : s.mail.length = 16 ∧ s.glob.ready = true ∧ s.glob.fatal = false ∧ (s.mbox r.mb).state ≠ 1 ∧ s.goWakes op = false ∧ s.mbWaits op = false) :
    s.Serves op r := ⟨h.1, h.2.1, h.2.2.1, h.2.2.2.1, h.2.2.2.2.1, h.2.2.2.2.2⟩

/-- The commands outstanding. -/
def withCmds (s : State) (l : List Cmd) : State := { s with recs := { s.recs with cmds := l } }

/-- The records of this load. -/
def withRecs (s : State) (l : List Rec) : State := { s with recs := { s.recs with recs := l, next := 8 } }

/-! ## A firmware image (R353), signed with a key made for it -/

/-- Header, certificate area, signature and a body of 16 zero bytes. -/
def image : Bytes :=
  ascii "DXFW" ++ leBytes 2 1 ++ leBytes 2 1 ++ leBytes 8 0x0102030405060708 ++ leBytes 4 3 ++ [0x21] ++ zeros 3 ++ leBytes 4 16 ++ leBytes 4 1
    ++ beBytes 48 0xae40659da1193cdec8df474b5e36416a82473b83d32dbbe1dd6df8ec9499d24902ca08c334876bc8e69e818beecc046a
    ++ leBytes 4 1 ++ zeros 4 ++ [0x5] ++ zeros 2047
    ++ beBytes 48 0xe70acd9d6806bc5f8148bd5d19db1d5701ab5c3e36168b77994ffecf27a575b35bdfbffa1f4b913879040be06614d2f9
    ++ beBytes 48 0xe70acd9d6806bc5f8148bd5d19db1d5701ab5c3e36168b77994ffecf27a575b35bdfbffa1f4b913879040be06614d2f9
    ++ zeros 1864 ++ zeros 16

/-- Its certificate. -/
def imageCert : CertFacts :=
  { trusted := true, x := 0x973c4d116b6a6a1013b04249cfafad07a666a101f1ac38baaefdad4cc5c8e267659abfade51eecbedfed6cd666738ee2,
    y := 0xfa5ef7afe32fc8a58b58360319bff1ee515054034d2dfabd244f93fa4db5958644c81090d7b078562f3f8205dc29960f }

theorem test_image_header : fwHeaderOk image = true ∧ fwVersion image = 0x0102030405060708 ∧ getLe image 20 1 = 0x21 := by decide +kernel
theorem test_image_digest : sha384 (slice image 4096 (getLe image 24 4)) = slice image 32 48 := by decide +kernel
theorem test_image_signature : ecdsaOk (imageCert.x, imageCert.y) (slice image 0 2136) (slice image 2136 96) = true := by decide +kernel

theorem test_image_good (s : State) (h : s.fw.floor ≤ 3) : s.fwFault imageCert image = none := by
  have d := test_image_digest
  have g := test_image_signature
  have e : (sha384 (slice image 4096 (getLe image 24 4)) != slice image 32 48) = false := by rw [d]; exact bne_self_eq_false _
  have c : getLe image 6 2 = 1 := by decide +kernel
  have v : getLe image 16 4 = 3 := by decide +kernel
  have k : imageCert.trusted = true := rfl
  simp [State.fwFault, test_image_header.1, test_image_header.2.2, g, e, c, v, k, h]

/-- What BOOT finds: the image in slot 0, every channel trained. -/
def good : BootEnv := { image0 := image, cert0 := imageCert, chans := List.replicate 8 {}, ports := List.replicate 18 {}, serial := zeros 16 }

/-! ## Witnesses: the machine, its pins and its time (statements O1 to O20) -/

theorem test_step_front : step { up with pending := [.ppsInMissed, .ppsOutPulse] } = exec .ppsInMissed { up with pending := [.ppsOutPulse] } := rfl

/-- One clock cycle of 400 MHz advances the counter by 2.5 ns; with a slew of +7 ns under way its share is added. -/
theorem test_wit_EmptyQueueTick : State.reset.pending = [] ∧ State.reset.glob.phase = .inReset ∧ up.pending = [] ∧ up.glob.phase ≠ .inReset ∧
    0 ≤ up.time.total + up.time.slewStep ∧
    up.time.total + (163840 * 2 ^ 24 + up.time.adj.toInt) * 125 + up.time.slewStep < 2 ^ 48 * 1000000000 * subPerNs := by decide +kernel

theorem test_wit_ShapeKept : step up = .next up.tick := rfl

theorem test_wit_FatalHoldsGate : State.reset.glob.fatal = false ∧ exec .functionReset up.setFatal = .next up.setFatal.functionReset ∧
    up.setFatal.glob.fatal = true ∧ up.setFatal.pins.gateLocked = true := by
  refine ⟨rfl, rfl, ?_⟩
  decide +kernel

theorem test_wit_TimeKept_KeysKept_QueueUntouched : exec .railFault up = .next up.setFatal := rfl

/-- The last byte of one chunk and the first of the next; no chunk for the third. -/
theorem test_wit_StagedWriteReads :
    let h : Hearth := up.hearth
    let chunks := [(0, 7), (1, 3)]
    Mem.wf h.mem ∧ (∀ i < 2, (assocGet chunks ((4095 + i) / h.G)).isSome) ∧ (chunks.map Prod.snd).Nodup ∧
      (∀ i < 2, ∀ c, assocGet chunks ((4095 + i) / h.G) = some c → 5 ≠ c * h.G + (4095 + i) % h.G) ∧
      (h.stageWrite chunks 4095 [0xAA, 0x55]).mem = [(0x3000, 0x55), (0x7FFF, 0xAA)] := by decide +kernel

theorem test_wit_BootRunsOrStops :
    let u := (State.reset.cleared true).bootInputs good
    State.reset.glob.phase = .inReset ∧ u.fwFault good.cert0 (u.fw.slot false) = none ∧ u.fw.bootSlot = false ∧
      4 ≤ ((List.range 8).filter (fun c => (good.chans.getD c {}).ok)).length ∧ u.hearth.mirror = false ∧
      -- three channels are too few; a boot while running changes nothing
      ¬ 4 ≤ ((List.range 8).filter (fun c => ((List.replicate 3 ({} : ChanTraining) ++ List.replicate 5 ({ ok := false } : ChanTraining)).getD c {}).ok)).length ∧
      up.glob.phase ≠ .inReset ∧ up.fwFault ({} : CertFacts) [] ≠ none := by
  refine ⟨rfl, test_image_good _ (by decide), rfl, by decide, by decide +kernel, by decide, by decide, by decide +kernel⟩

/-- A slot generation, a KEK and a User key to be erased. -/
def keyed : State :=
  { up with sec := { up.sec with userKey := some (zeros 32), keks := some (zeros 32, zeros 8) :: List.replicate 3 none,
                                 slots := { cur := some { key := zeros 32, label := zeros 8, gen := 1 } } :: List.replicate 63 {} } }

theorem test_wit_TamperPinZeroizes : keyed.sec.slots.length = 64 ∧ (after .tamperNAssert keyed).sec.userKey = none ∧
    (after .tamperNAssert keyed).sec.state = .uncommissioned ∧ (after .debugUnlock keyed).sec.debug = true := by decide +kernel

/-- An active of an armed twin. -/
def active : State := { up with twin := { up.twin with role := 1, peer := 2, paired := true, m2Up := true } }

theorem test_wit_ClockAndRailFaultsStop : up.pins.pwrgood = true ∧ up.glob.phase ≠ .inReset ∧ up.armedActive = false ∧ active.armedActive = true ∧
    active.pins.pwrgood = true ∧ (after .railFault active).alertLow = true ∧ (after .clockMonitorFault active).twin.role = 2 := by decide +kernel

/-- Readings at 100 °C, 105 °C and 115 °C in units of 0.125 °C, and one unit below each. -/
theorem test_wit_TemperatureLimits : up.pvt.armed = true ∧ up.pvt.trip = false ∧
    (after (.pvtSample [799, 12]) up).pvt.armed = true ∧ (after (.pvtSample [12, 800]) up).pvt.armed = false ∧
    (after (.pvtSample [839]) up).pvt.cap = false ∧ (after (.pvtSample [840]) up).pvt.cap = true ∧
    (after (.pvtSample [919]) up).glob.fatal = false ∧ (after (.pvtSample [920]) up).glob.fatal = true := by decide +kernel

theorem test_wit_HostLinkLoss : up.glob.m0Up = true ∧ up.glob.m1Up = true ∧ (after (.ucieModuleLoss true) up).glob.linkDegraded = true ∧
    (after (.ucieModuleLoss true) up).glob.m1Up = false ∧ State.reset.glob.m0Up = false := by decide +kernel

/-- The time unit with its SET and PHASE registers written. -/
def timed (ns : BitVec 32) (phase : BitVec 64) (sec : BitVec 48) : State :=
  { up with time := { up.time with sec := sec, setSec := 9, setNs := ns, phase := phase } }

theorem test_wit_TimeCommandsMoveCounter :
    (timed 999999999 0 5).time.setNs.toNat < 1000000000 ∧ 1000000000 ≤ (timed 1000000000 0 5).time.setNs.toNat ∧
    0 ≤ (timed 0 1000000 5).time.total + (timed 0 1000000 5).time.phase.toInt * subPerNs ∧
    (timed 0 1000000 5).time.total + (timed 0 1000000 5).time.phase.toInt * subPerNs < 2 ^ 48 * 1000000000 * subPerNs ∧
    (timed 0 (-1) 0).time.total + (timed 0 (-1) 0).time.phase.toInt * subPerNs < 0 ∧
    (timed 0 1000000 5).time.phase.toInt.natAbs ≤ 1000000 ∧ 1000000 < (timed 0 1000001 5).time.phase.toInt.natAbs ∧
    (let s := after .timeSlew (timed 0 (-1000000) 5)
     s.time.slewing = true ∧ 0 ≤ s.time.total + s.time.slewLeft ∧ s.time.total + s.time.slewLeft < 2 ^ 48 * 1000000000 * subPerNs) := by
  decide +kernel

theorem test_set_takes_999999999 : (after .timeSet (timed 999999999 0 5)).time.ns = 999999999 ∧
    (after .timeSet (timed 1000000000 0 5)).time.setRejected = true := by decide +kernel

theorem test_wit_TimeReadsAndPpsCapture : up.time.sec.toNat < 2 ^ 48 - 1 ∧ up.time.ns.toNat < 1000000000 ∧ up.time.sub < subPerNs ∧
    (after (.ppsInEdge 31) up).time.ppsSeen = true ∧ up.time.ppsOutCtl.getLsbD 0 = false ∧
    (after .ppsOutPulse { up with time := { up.time with ppsOutCtl := 0x0101 } }).pins.ppsLeft = 400000 := by decide +kernel

theorem test_wit_SpeedHandshake :
    let s := { reads with pins := { reads.pins with spdAck := true } }
    let w := after .speedRequest s
    s.streams = true ∧ s.pins.spdAck = true ∧ s.blw.ackPending = false ∧ s.nextLevel ≠ s.pins.spdReq.toNat ∧ w.pins.spdReq = 1 ∧
      w.blw.ackPending = true ∧ w.streams = true ∧ (after .spdAckFall w).blw.fell = true ∧ w.blw.fell = false ∧
      (after .spdAckRise (after .spdAckFall w)).blw.speedCur = 1 ∧
      w.blw.intStatus.getLsbD 1 = false ∧ (after .speedTimeout w).blw.intStatus = 2 := by decide +kernel

theorem test_wit_FunctionResetKeepsAndClears : writes.cart.loaded = true ∧ writes.forge.writing = true ∧
    (after .functionReset writes).cart.image.sessionOpen = true := by decide +kernel

theorem test_wit_DeviceStatesD3hotAndD0 : writes.pwr.entering = none ∧ writes.pwr.state ≠ 3 ∧ writes.forge.writing = true ∧
    (let s := { up with pwr := { up.pwr with state := 3 } }
     s.pwr.state = 3 ∧ s.pwr.entering = none ∧ s.fw.heldMb = [] ∧ s.glob.msix.length = 257 ∧ (after .d0Transition s).pwr.state = 0) ∧
    up.pwr.state = 0 := by decide +kernel

/-! ## Witnesses: queues and records (statements O21 to O33) -/

/-- Pair 1 with entries 14 and 15 of its SQ in use up to the wrap, and a completion not yet taken. -/
def ringing : State :=
  { up with pairs := modAt up.pairs 1 (fun _ => some { pair0 with sqTail := 15, sqFetch := 14, cqTail := 2, cqHead := 1, unsignalled := 1 }),
            evq := { up.evq with tail := 3, head := 1 } }

theorem test_wit_DoorbellsMoveIndices :
    let p := { pair0 with sqTail := 15, sqFetch := 14, cqTail := 2, cqHead := 1, unsignalled := 1 }
    ringing.pair? 1 = some p ∧ p.tailOk 13 = true ∧ p.tailOk 14 = false ∧ p.tailOk 0 = true ∧ p.headOk 2 = true ∧ p.headOk 3 = false ∧
      p.motion = false ∧ ringing.pwr.state = 0 ∧ ringing.pwr.entering = none ∧ 3 < ringing.evq.size ∧
      ringDiff ringing.evq.size 3 ringing.evq.head ≤ ringDiff ringing.evq.size ringing.evq.tail ringing.evq.head ∧ ringing.evq.held = [] ∧
      up.pair? 0 = some { pair0 with rev := 1, motion := true } ∧ (after (.sqTailDoorbell 1 13) ringing).glob.doorbellErrors = 0 ∧
      (after (.cqHeadDoorbell 1 2) ringing).pair? 1 = some { p with cqHead := 2, unsignalled := 0 } := by decide +kernel

theorem test_wit_IgnoredDoorbellsAreCounted :
    let p := { pair0 with sqTail := 15, sqFetch := 14, cqTail := 2, cqHead := 1, unsignalled := 1 }
    ringing.pair? 1 = some p ∧ p.sqLog ≤ 16 ∧ p.cqLog ≤ 16 ∧
      2 ^ p.sqLog - 1 < p.unfetched + ringDiff (2 ^ p.sqLog) (14 : BitVec 32).toNat p.sqTail ∧ 2 ^ p.sqLog ≤ (16 : BitVec 32).toNat ∧
      65536 ≤ (0x10000 : BitVec 32).toNat ∧ ringDiff (2 ^ p.cqLog) p.cqTail p.cqHead < ringDiff (2 ^ p.cqLog) (3 : BitVec 32).toNat p.cqHead ∧
      2 ^ p.cqLog ≤ (16 : BitVec 32).toNat ∧ up.pair? 2 = none ∧ ringing.evq.log2.toNat ≤ 16 ∧ 2 ^ ringing.evq.log2.toNat ≤ (64 : BitVec 32).toNat ∧
      ringDiff (2 ^ ringing.evq.log2.toNat) ringing.evq.tail ringing.evq.head <
        ringDiff (2 ^ ringing.evq.log2.toNat) (4 : BitVec 32).toNat ringing.evq.head ∧
      (after (.sqTailDoorbell 1 14) ringing).glob.doorbellErrors = 1 ∧ (after (.cqHeadDoorbell 2 0) ringing).glob.doorbellErrors = 1 ∧
      (after (.evqHeadDoorbell 4) ringing).glob.doorbellErrors = 1 := by decide +kernel

/-- Sizes 6 and 16 are taken, 5 and 17 are not; nothing is enabled before EVQ_BASE has been written. -/
theorem test_wit_EventQueueConfiguration :
    [(0x80000006 : BitVec 32), 0x80000010, 6].all
      (fun v => !((v.getLsbD 31 && !up.evq.baseWritten) || v.toNat % 32 < 6 || 16 < v.toNat % 32)) = true ∧
    [(0x80000005 : BitVec 32), 0x80000011].all (fun v => v.toNat % 32 < 6 || 16 < v.toNat % 32) = true ∧
    State.reset.evq.baseWritten = false ∧ State.reset.evq.enable = false ∧ State.reset.evq.held = [] ∧ (0x80000006 : BitVec 32).getLsbD 31 = true ∧
    (after (.evqConfigWrite 0x80000006) State.reset).evq.enable = false ∧ (after (.evqConfigWrite 6) up).evq.enable = false := by decide +kernel

theorem test_wit_RegisterWritesStoreOrAct : up.glob.phase ≠ .inReset ∧ ((0x0F00F : BitVec 20).toNat < 0x10000) ∧
    up.regAt 0x0F00F = none ∧ (after (.registerWrite 0x50018 4 77 {} []) up).time.setNs = 77 ∧
    (after (.registerWrite 0x28 8 0x12345 {} []) State.reset).evq.base = 0 := by decide +kernel

/-- A tail doorbell has covered one entry of pair 1. -/
def waiting : State := { loaded with pairs := modAt up.pairs 1 (fun _ => some { pair0 with sqTail := 1 }) }

theorem test_wit_FetchTakesArrivalOrder :
    let p := { pair0 with sqTail := 1 }
    let c := cmdOf 1 0 (fit p.sqEntryBytes (entry 0x0A 5 3 0x8000 64 0 0 0)) [] true
    up.choose = none ∧ (waiting.choose.map Prod.fst) = some 1 ∧ waiting.pair? 1 = some p ∧ p.error = false ∧ waiting.env.cqFail = [] ∧
      waiting.cmd? 1 c.tag = none ∧ c.op = 0x0A ∧ waiting.recs.cmds = [] ∧ waiting.pwr.state = 0 ∧ waiting.pwr.entering = none ∧
      (cmdOf 1 0 (fit p.sqEntryBytes (entry 0x0C 5 0 0 0 0 0 0)) [] true).op = 0x0C ∧
      (withCmds waiting [cmdAt 0x0A 5 3 0x8000 64 0 0 0 0]).cmd? 1 c.tag ≠ none ∧
      (after (.fetchGrant (.entry (entry 0x0A 5 3 0x8000 64 0 0 0) [] true)) waiting).recs.cmds.length = 1 ∧
      (after (.fetchGrant .readFailed) waiting).pair? 1 = some { p with error := true } := by decide +kernel

/-- A QUERY without admission, its fence set, behind a command that arrived earlier. -/
def fenced : Cmd := { cmdAt 0x0A 5 3 0x8000 64 0 0 0 4 with admitted := false, fence := true }

theorem test_wit_AdmissionAndCoalescing :
    (withCmds loaded [fenced]).cmd? 1 5 = some fenced ∧ (withCmds loaded [fenced]).admissible fenced = true ∧
    (withCmds loaded [cmdAt 0x06 4 0 0 0 0 0 0 3, fenced]).cmd? 1 5 = some fenced ∧
    (withCmds loaded [cmdAt 0x06 4 0 0 0 0 0 0 3, fenced]).admissible fenced = false ∧
    (∃ p, ringing.pair? 1 = some p ∧ p.motion = false ∧ p.unsignalled ≠ 0) ∧ ringing.glob.msix.length = 257 ∧
    up.pair? 0 = some { pair0 with rev := 1, motion := true } ∧ up.pair? 1 = some pair0 ∧ pair0.unsignalled = 0 ∧
    (after (.coalescingTimeExpiry 1) ringing).pair? 1 = some { pair0 with sqTail := 15, sqFetch := 14, cqTail := 2, cqHead := 1, unsignalled := 0 } := by
  refine ⟨by decide +kernel, by decide +kernel, by decide +kernel, by decide +kernel,
    ⟨{ pair0 with sqTail := 15, sqFetch := 14, cqTail := 2, cqHead := 1, unsignalled := 1 }, by decide +kernel⟩, by decide +kernel⟩

/-- OPEN in the clear, shared; OPEN under slot 0; MARK. -/
def openClear : Cmd := cmdAt 0x01 5 0 0 0 0x8000 0 0 2
def openSlot : Cmd := cmdAt 0x01 5 0 0 0 0x4000 0 0 2
def markNow : Cmd := cmdAt 0x09 5 0 0 0 0 0 0 2

/-- A slot generation 9 for records, and the tape held by a read, so that nothing begins to be written. -/
def slotted : State :=
  { loaded with
    sec := { up.sec with slots := { cur := some { key := zeros 32, label := leBytes 8 77, gen := 9 } } :: List.replicate 63 {} }
    rd := { loaded.rd with jobs := [{ pair := 1, tag := 9, num := 0, first := 0, count := 0, cut := false, addr := 0, len := 0, report := 0 }] } }

theorem test_wit_OpenAndMarkTakeNumbers :
    (withCmds loaded [openClear]).Executes 0x01 1 5 {} openClear pair0 ∧ (withCmds slotted [openSlot]).Executes 0x01 1 5 {} openSlot pair0 ∧
    (withCmds slotted [markNow]).Executes 0x09 1 5 {} markNow pair0 ∧
    (∀ s ∈ [withCmds loaded [openClear], withCmds slotted [openSlot], withCmds slotted [markNow]], ∀ c ∈ s.recs.cmds,
      s.numberTurn c = true ∧ s.numberWaits = false ∧ s.needsSession = false ∧ (s.recsIn .opened).length < 4096 ∧ 4 * gib ≤ s.capacity ∧
      96 ≤ s.capacity) ∧
    bitAt openClear.dwA 14 = false ∧ loaded.sec.allowPlain = true ∧ bitAt openSlot.dwA 14 = true ∧ bitsOf openSlot.dwA 8 6 = 0 ∧
    (slotted.sec.slots[0]?).bind (·.cur) = some { key := zeros 32, label := leBytes 8 77, gen := 9 } ∧ slotted.tapeFree = false ∧
    (after (.openRec 1 5 {}) (withCmds loaded [openClear])).rec? 5 ≠ none ∧
    ((after (.openRec 1 5 {}) (withCmds slotted [openSlot])).rec? 5).map (·.gen) = some 9 ∧
    ((after (.mark 1 5 {}) (withCmds slotted [markNow])).rec? 5).map (·.state) = some .sealed := by
  refine ⟨executes (by decide +kernel), executes (by decide +kernel), executes (by decide +kernel), ?_⟩
  decide +kernel

/-- Record 5 OPEN with bytes 4,094 to 4,097 over the border of its two chunks. -/
def rec5 : Rec := { num := 5, state := .opened, pair := 1, extents := [(0, 4098)], chunks := [(0, 262144), (1, 262145)] }

/-- SEGMENT WRITE of 4 bytes at 4,094. -/
def write4 : Cmd := cmdAt 0x02 5 5 0x8000 4 4094 0 0 2

/-- The last write a record can take ends at byte 4,294,967,280; a write into chunk 2, which lacks a chunk, behind one that waits. -/
def writeEnd : Cmd := cmdAt 0x02 5 5 0x8000 16 4294967264 0 0 2
def writeNew : Cmd := cmdAt 0x02 5 5 0x8000 16 8192 0 0 2

theorem test_wit_SegmentWriteStages :
    let s := withRecs (withCmds loaded [write4]) [rec5]
    let w := withRecs (withCmds loaded [writeNew, { cmdAt 0x02 6 5 0x8000 4 8192 0 0 1 with waitChunks := true }]) [{ rec5 with num := 4 }, rec5]
    s.Executes 0x02 1 5 {} write4 pair0 ∧ w.Executes 0x02 1 5 {} writeNew pair0 ∧
    s.rec? write4.num = some rec5 ∧ write4.dwA + write4.xferLen ≤ 4294967280 ∧ writeEnd.dwA + writeEnd.xferLen = 4294967280 ∧
    (addExtent 4094 4098 rec5.extents).length ≤ 256 ∧ s.hearth.lacking rec5.chunks 4094 4098 = [] ∧ (rec5.chunks.map Prod.snd).Nodup ∧
    (∀ i, i < 4 → (assocGet rec5.chunks ((4094 + i) / s.hearth.G)).isSome) ∧ Mem.wf s.hearth.mem ∧
    s.hearth.busError ((s.hearth.bursts rec5.chunks 4094 4098).map Prod.fst) = none ∧
    w.rec? writeNew.num = some rec5 ∧ w.hearth.lacking rec5.chunks 8192 8208 = [2] ∧ w.mayAllocate writeNew 1 = false ∧
    (after (.segmentWrite 1 5 { data := [1, 2, 3, 4] }) s).hearth.mem = [(0x40000FFE, 1), (0x40000FFF, 2), (0x40001000, 3), (0x40001001, 4)] ∧
    ((after (.segmentWrite 1 5 { ok := false }) s).rec? 5).map (·.extents) = some [(0, 4094)] := by
  refine ⟨executes (by decide +kernel), executes (by decide +kernel), ?_⟩
  decide +kernel

theorem test_wit_StagingChunkGrantServesOneWrite :
    let c := { writeNew with waitChunks := true }
    let s := withRecs (withCmds loaded [c]) [rec5]
    loaded.nextWaiting = none ∧ s.nextWaiting = some c ∧ s.cmd? c.pair c.tag = some c ∧ s.pair? c.pair = some pair0 ∧ c.op = 0x02 ∧
      s.rec? c.num = some rec5 ∧ c.dwA + c.xferLen ≤ 4294967280 ∧ (addExtent c.dwA (c.dwA + c.xferLen) rec5.extents).length ≤ 256 ∧
      s.hearth.lacking rec5.chunks c.dwA (c.dwA + c.xferLen) = [2] ∧ s.mayAllocate c 1 = true ∧
      -- with its chunk already there
      (let x := { rec5 with chunks := [(0, 262144), (1, 262145), (2, 262146)] }
       let s := withRecs (withCmds loaded [c]) [x]
       s.rec? c.num = some x ∧ s.mayAllocate c 0 = true ∧ s.hearth.lacking x.chunks c.dwA (c.dwA + c.xferLen) = [] ∧ c.sglOk = true ∧
         s.hearth.busError ((s.hearth.bursts x.chunks c.dwA (c.dwA + c.xferLen)).map Prod.fst) = none) ∧
      ((after (.stagingChunkGrant { data := [9] }) s).rec? 5).map (fun x => (x.extents, x.chunks.length)) = some ([(0, 4098), (8192, 8208)], 3) := by
  decide +kernel

/-- SEGMENT READ of the last 2 bytes and of 2 bytes beyond; SEAL of 4,098 and of 4,097 bytes; ABANDON. -/
def read2 : Cmd := cmdAt 0x03 5 5 0x8000 2 4096 0 0 2
def readOut : Cmd := cmdAt 0x03 5 5 0x8000 2 4097 0 0 2
def sealAll : Cmd := cmdAt 0x04 5 5 0 0 4098 0 0 2
def sealLess : Cmd := cmdAt 0x04 5 5 0 0 4097 0 0 2
def abandonIt : Cmd := cmdAt 0x05 5 5 0 0 0 0 0 2

/-- Record 5 OPEN while a read holds the tape. -/
def opened (c : Cmd) : State := withRecs (withCmds slotted [c]) [rec5]

theorem test_wit_SegmentReadSealAbandon :
    (opened read2).Executes 0x03 1 5 {} read2 pair0 ∧ (opened readOut).Executes 0x03 1 5 {} readOut pair0 ∧
    (opened sealAll).Executes 0x04 1 5 {} sealAll pair0 ∧ (opened sealLess).Executes 0x04 1 5 {} sealLess pair0 ∧
    (opened abandonIt).Executes 0x05 1 5 {} abandonIt pair0 ∧ (withCmds slotted [write4]).Executes 0x02 1 5 {} write4 pair0 ∧
    (opened read2).rec? 5 = some rec5 ∧ read2.isSgl = false ∧ read2.sglOk = true ∧
    inExtents read2.dwA (read2.dwA + read2.xferLen) rec5.extents = true ∧ inExtents readOut.dwA (readOut.dwA + readOut.xferLen) rec5.extents = false ∧
    (opened read2).hearth.busError (((opened read2).hearth.bursts rec5.chunks 4096 4098).map Prod.fst) = none ∧
    rec5.extents = (if sealAll.dwA = 0 then [] else [(0, sealAll.dwA)]) ∧ rec5.extents ≠ (if sealLess.dwA = 0 then [] else [(0, sealLess.dwA)]) ∧
    recBound 4098 ≤ (opened sealAll).capacity ∧ (opened sealAll).tapeFree = false ∧ (withCmds slotted [write4]).rec? write4.num = none ∧
    ((after (.seal 1 5 {}) (opened sealAll)).rec? 5).map (fun x => (x.state, x.len)) = some (.sealed, 4098) ∧
    ((after (.abandon 1 5 {}) (opened abandonIt)).rec? 5).map (·.state) = some .abandoned := by
  refine ⟨executes (by decide +kernel), executes (by decide +kernel), executes (by decide +kernel), executes (by decide +kernel),
    executes (by decide +kernel), executes (by decide +kernel), ?_⟩
  decide +kernel

/-- SYNC of the records up to 5. -/
def sync5 : Cmd := { cmdAt 0x06 5 0 0 0 0 0 0 2 with syncM := some 5 }

/-- Record 5 in a state. -/
def recAt (st : RecState) : Rec := { rec5 with state := st }

/-- SYNC 5 outstanding with record 5 in a state, and SYNCs waiting. -/
def syncing (st : RecState) (l : List SyncWait) : State :=
  let s := withRecs (withCmds slotted [sync5]) [recAt st]
  { s with recs := { s.recs with syncs := l }, cart := { s.cart with image := { s.cart.image with syncedLimit := 6 } } }

theorem test_wit_SyncWaitsAndCompletes :
    let y : SyncWait := { pair := 1, tag := 5, arrival := 2, m := some 5 }
    (syncing .synced []).Executes 0x06 1 5 {} sync5 pair0 ∧ (syncing .sealed [{ pair := 1, tag := 4, arrival := 1, m := none }]).Executes 0x06 1 5 {} sync5 pair0 ∧
    ((syncing .synced []).covered sync5.syncM).map (·.state) = [.synced] ∧ (syncing .synced []).recs.syncs = [] ∧
    (syncing .synced []).errorsPosted sync5.syncM = true ∧
    ((syncing .sealed []).covered sync5.syncM).map (·.state) = [.sealed] ∧ (syncing .sealed []).tapeFree = false ∧
    (let s := syncing .written [y]
     s.cmd? y.pair y.tag = some sync5 ∧ s.pair? y.pair = some pair0 ∧ (s.covered y.m).map (·.state) = [.written] ∧ s.syncBound y.m ≤ s.lastImage.syncedLimit ∧
       s.cart.changed = false ∧ s.issuedHeld = false ∧ s.errorsPosted y.m = true ∧
       ((after (.syncCompletion {}) s).rec? 5).map (·.state) = some .synced ∧ (after (.syncCompletion {}) s).recs.syncs = []) ∧
    ((syncing .sealed [y]).covered y.m).map (·.state) = [.sealed] ∧
    (after (.sync 1 5 {}) (syncing .sealed [])).recs.syncs = [y] ∧ (after (.sync 1 5 {}) (syncing .synced [])).recs.cmds = [] := by
  refine ⟨executes (by decide +kernel), executes (by decide +kernel), ?_⟩
  decide +kernel

/-- LOCATE(write) to the record limit 5, LOCATE of record 3, RECORD READ of it, and one with cut-through. -/
def locate5 : Cmd := cmdAt 0x07 5 5 0 0 1 0 0 2
def locate3 : Cmd := cmdAt 0x07 5 3 0 0 0 0 0 2
def readRec : Cmd := cmdAt 0x08 5 3 0x8000 4096 0 0 0x40 2
def readCut : Cmd := cmdAt 0x08 5 3 0x8000 4096 0x10000 0 0x40 2

theorem test_wit_LocateAndRecordReadStart :
    (withCmds loaded [locate5]).Executes 0x07 1 5 {} locate5 pair0 ∧ (withRecs (withCmds loaded [locate5]) [rec5]).Executes 0x07 1 5 {} locate5 pair0 ∧
    (withCmds writes [locate3]).Executes 0x07 1 5 {} locate3 pair0 ∧ (withCmds writes [readRec]).Executes 0x08 1 5 {} readRec pair0 ∧
    (let s := withCmds { loaded with sec := { loaded.sec with approved := true } } [readCut]
     s.Executes 0x08 1 5 {} readCut pair0 ∧ s.sec.approved = true ∧ bitAt readCut.dwA 16 = true) ∧
    (let s := withCmds loaded [locate5]
     bitAt locate5.dwA 0 = true ∧ s.recsIn .opened = [] ∧ s.cart.image.eodValid = true ∧ locate5.num = s.cart.image.recordLimit ∧ s.forge.writing = false ∧
       s.rd.jobs = [] ∧ s.rd.locate = none ∧ s.cart.searching = false ∧ s.cart.eodChecking = false ∧ s.cart.searchPending = false ∧ s.cart.eodChecked = true ∧
       (after (.locate 1 5 {}) s).recs.startSet = some 5) ∧
    (withRecs (withCmds loaded [locate5]) [rec5]).recsIn .opened ≠ [] ∧
    bitAt locate3.dwA 0 = false ∧ writes.forge.writing = true ∧ writes.rd.jobs = [] ∧ bitAt readRec.dwA 16 = false ∧
    (after (.recordRead 1 5 {}) (withCmds writes [readRec])).rd.jobs.map (·.num) = [3] ∧
    (after (.locate 1 5 {}) (withCmds writes [locate3])).forge.ending = true := by
  refine ⟨executes (by decide +kernel), executes (by decide +kernel), executes (by decide +kernel), executes (by decide +kernel),
    ⟨executes (by decide +kernel), by decide +kernel⟩, ?_⟩
  decide +kernel

/-- QUERY of record 5; ABORT of a command that has completed, and of one outstanding. -/
def query5 : Cmd := cmdAt 0x0A 5 5 0x8000 64 0 0 0 2
def abortIt : Cmd := { cmdAt 0x0B 5 0 0 0 9 0 0 2 with target := some 1, caughtTarget := true }

theorem test_wit_QueryAndAbortAnswer :
    (opened query5).Executes 0x0A 1 5 {} query5 pair0 ∧ (opened query5).Executes 0x0A 1 5 { ok := false } query5 pair0 ∧
    (opened abortIt).Executes 0x0B 1 5 {} abortIt pair0 ∧ (withCmds slotted [abortIt, cmdAt 0x06 9 0 0 0 0 0 0 1]).Executes 0x0B 1 5 {} abortIt pair0 ∧
    query5.sglOk = true ∧ query5.isSgl = false ∧ (opened query5).numberCode 5 = 1 ∧ (∀ d ∈ (opened abortIt).recs.cmds, some d.arrival ≠ abortIt.target) ∧
    some (cmdAt 0x06 9 0 0 0 0 0 0 1).arrival = abortIt.target ∧ (after (.abort 1 5 {}) (opened abortIt)).recs.cmds = [] := by
  refine ⟨executes (by decide +kernel), executes (by decide +kernel), executes (by decide +kernel), executes (by decide +kernel), ?_⟩
  decide +kernel

/-! ## Witnesses: registers and mailboxes -/

/-- A formatter whose mailboxes are idle and whose power state and activation are those after reset serves every request. -/
theorem idle {s : State} (h : (s.mail.length = 16 ∧ ∀ m : Fin 16, (s.mbox m).state ≠ 1) ∧ s.glob.ready = true ∧ s.glob.fatal = false ∧ s.pwr.state = 0 ∧
    s.pwr.entering = none ∧ s.pwr.d3hot = false ∧ s.fw.act = .none) (op : Nat) (r : MbReq) : s.Serves op r := by
  obtain ⟨h1, h2, h3, h4, h5, h6, h7⟩ := h
  refine ⟨h1.1, h2, h3, h1.2 r.mb, ?_, ?_⟩
  · simp [State.goWakes, h4, h5]
  · simp [State.mbWaits, h5, h6, h7]

theorem plain (m : Fin 16) (p : Bytes) (io : Io) (aux : List Int) : Plain (ask m p io aux) := ⟨rfl, rfl⟩

/-- The status that a mailbox's response carries. -/
def answer (c : Instr) (s : State) (m : Nat := 0) : BitVec 16 × Nat := let b := (after c s).mbox m; (b.status, b.detail.toNat)

/-- Mailbox 0 is BUSY. -/
def busy0 : State := { up with mail := modAt up.mail 0 (fun b => { b with state := 1 }) }

theorem test_wit_TimeReadLatches :
    exec .heartbeat up = .next (after .heartbeat up) ∧ Instr.heartbeat ≠ .timeNsRead ∧
    (after .timeNsRead { up with time := { up.time with sec := 6 } }).readReg 0x50008 8 = 6 := by
  refine ⟨by rfl, ?_⟩
  decide +kernel

theorem test_wit_MailboxGoProtocol :
    requestOf? (.cartUnload (ask 0 [])) = some (ask 0 []) ∧ busy0.glob.ready = true ∧ busy0.glob.fatal = false ∧ (busy0.mbox 0).state = 1 ∧
    State.reset.glob.ready = false ∧ (after (.cartUnload (ask 0 [])) busy0).glob.doorbellErrors = 1 ∧
    (({ up with mail := modAt up.mail 15 (fun b => { b with state := 1 }) } : State).mbox (15 : Fin 16)).state = 1 := by decide +kernel

/-- Requests of STATE_SUMMARY without and with a list, of PARAM_GET with good and bad identifiers. -/
def summary (len : Nat) : MbReq := ask 0 (leBytes 8 0x8000 ++ leBytes 4 len ++ zeros 4)
def paramGet (ids : List Nat) : MbReq := ask 0 (leBytes 2 ids.length ++ zeros 6 ++ ids.flatMap (leBytes 4))

theorem test_wit_SummaryAndParameterReads :
    Plain (summary 4096) ∧ up.Serves 1 (summary 4096) ∧ up.Serves 2 (paramGet [0]) ∧ (summary 4096).len = 16 ∧
    getLe (mbData (summary 4096)) 0 8 % 16 = 0 ∧ zeroAt (mbData (summary 4096)) 12 4 = true ∧ getLe (mbData (summary 4096)) 8 4 = 4096 ∧
    getLe (mbData (summary 0)) 8 4 = 0 ∧
    (let p := mbData (paramGet [0x06050800, 0])
     (paramGet [0x06050800, 0]).len.toNat = 8 + 4 * getLe p 0 2 ∧ zeroAt p 2 6 = true ∧ (paramRow (getLe p 8 4)).isSome = true ∧
       (paramRow (getLe p 12 4)).isSome = false) ∧
    (paramGet [0x06050800]).len.toNat = 12 ∧ (paramGet (List.replicate 254 0)).len.toNat = 8 + 4 * 254 ∧
    answer (.paramGet (paramGet [0x06050800, 0])) up = (Status.invalidField, 1) ∧
    ((after (.paramGet (paramGet [0x06050800])) loaded).mbox 0).payload = leBytes 4 0x06050800 ++ zeros 4 ++ leBytes 8 1 := by
  refine ⟨plain _ _ _ _, idle (by decide +kernel) _ _, idle (by decide +kernel) _ _, ?_⟩
  decide +kernel

/-- Requests of PARAM_SET. -/
def paramSet (l : List (Nat × Nat)) : MbReq :=
  ask 0 (leBytes 2 l.length ++ zeros 6 ++ l.flatMap (fun e => leBytes 4 e.1 ++ zeros 4 ++ leBytes 8 e.2))

theorem test_wit_ParameterSetIsWhole :
    let good := paramSet [(0x06050800, 0)]
    let bad := paramSet [(0x06050800, 0), (0, 0)]
    Plain good ∧ up.Serves 3 good ∧ setEntries (mbData good) = [(0x06050800, 0)] ∧ good.len.toNat = 24 ∧ setReservedOk (mbData good) = true ∧
    up.entryFails (setEntries (mbData good)) 0 = none ∧ setEntries (mbData bad) = [(0x06050800, 0), (0, 0)] ∧ bad.len.toNat = 40 ∧
    setReservedOk (mbData bad) = true ∧ up.entryFails (setEntries (mbData bad)) 0 = none ∧
    up.entryFails (setEntries (mbData bad)) 1 = some Status.invalidField ∧ answer (.paramSet bad) up = (Status.invalidField, 1) ∧
    (after (.paramSet good) loaded).accepted 0x06050800 = 0 ∧ (after (.paramSet bad) loaded).accepted 0x06050800 = 1 := by
  refine ⟨plain _ _ _ _, idle (by decide +kernel) _ _, ?_⟩
  decide +kernel

/-- Requests of QP_CREATE for a pair of weight 1 with rings of 2^n entries, and of QP_DELETE. -/
def qpCreate (q n : Nat) : MbReq :=
  ask 0 ([byte q, 3, 0, 0, 1, byte n, byte n, 1] ++ leBytes 8 0x30000 ++ leBytes 8 0x40000 ++ leBytes 2 0 ++ zeros 6)
def qpDelete (q : Nat) : MbReq := ask 0 (byte q :: zeros 7)

theorem test_wit_PairsCreatedAndDeleted :
    Plain (qpCreate 255 4) ∧ up.Serves 0x0101 (qpCreate 255 4) ∧ State.Serves { up with glob := { up.glob with enabled := false } } 0x0101 (qpCreate 255 4) ∧
    writes.Serves 0x0102 (qpDelete 1) ∧ up.Serves 0x0102 (qpDelete 255) ∧
    (let p := mbData (qpCreate 255 4)
     (qpCreate 255 4).len = 32 ∧ zeroAt p 26 6 = true ∧ up.glob.enabled = true ∧ up.bench.on = false ∧ up.pairs.length = 256 ∧ getLe p 0 1 = 255 ∧
       up.pair? 255 = none ∧ qpBadField p = none ∧ getLe p 2 1 = 0) ∧ (up.pair? (getLe (mbData (qpCreate 1 4)) 0 1)).isSome = true ∧
    qpBadField (mbData (qpCreate 2 3)) = some 5 ∧ qpBadField (mbData (qpCreate 2 17)) = some 5 ∧ qpBadField (mbData (qpCreate 2 16)) = none ∧
    answer (.qpCreate (qpCreate 255 4)) up = (Status.success, 0) ∧ (answer (.qpCreate (qpCreate 1 4)) up).1 = Status.resourceBusy ∧
    answer (.qpCreate (qpCreate 2 3)) up = (Status.invalidField, 6) ∧
    (qpDelete 1).len = 8 ∧ zeroAt (mbData (qpDelete 1)) 1 7 = true ∧ writes.pair? 1 = some pair0 ∧ writes.forge.writing = true ∧
    (after (.qpDelete (qpDelete 1)) writes).pair? 1 = none ∧ answer (.qpDelete (qpDelete 255)) up = (Status.invalidField, 1) := by
  refine ⟨plain _ _ _ _, idle (by decide +kernel) _ _, idle (by decide +kernel) _ _, idle (by decide +kernel) _ _, idle (by decide +kernel) _ _, ?_⟩
  decide +kernel

/-! ### A ledger image of 65,536 bytes -/

/-- Header of an image of format GK4 with EOD valid, record limit 5; the rest of it zero but for the CRC. -/
def ledgerHead : Bytes :=
  ascii "GK4LEDGR" ++ zeros 2 ++ leBytes 2 4 ++ leBytes 4 65536 ++ leBytes 8 1 ++ zeros 16 ++ leBytes 4 3 ++ [1, 0, 0, 0] ++ zeros 8 ++ leBytes 8 5
def ledgerBody : Bytes := ledgerHead ++ zeros (0xFFFC - 64)
def ledger : Bytes := ledgerBody ++ leBytes 4 (crc32c ledgerBody).toNat

theorem leNat_leBytes4 (v : BitVec 32) : leNat (leBytes 4 v.toNat) = v.toNat := by
  have h := v.isLt
  simp only [leBytes, leNat, byte, BitVec.toNat_ofNat]
  omega

theorem slice_append_left (a b : Bytes) (o n : Nat) (h : o + n ≤ a.length) : slice (a ++ b) o n = slice a o n := by
  simp only [slice, List.drop_append, List.take_append, List.length_drop, List.length_append]
  have h1 : o - a.length = 0 := by omega
  have h2 : n - (a.length - o) = 0 := by omega
  simp [h1, h2]

theorem ledger_lengths : ledgerHead.length = 64 ∧ ledgerBody.length = 0xFFFC := by
  have h : ledgerHead.length = 64 := by decide +kernel
  exact ⟨h, by simp only [ledgerBody, List.length_append, h, zeros, List.length_replicate]⟩

theorem ledger_head_fields : (slice ledgerHead 0 8 = ascii "GK4LEDGR" ∧ leNat (slice ledgerHead 0x0C 4) = 65536 ∧
    leNat (slice ledgerHead 0x0A 2) = 4 ∧ slice ledgerHead 0x18 16 = zeros 16) ∧ bitAt (leNat (slice ledgerHead 0x2C 1)) 0 = true ∧
    bitAt (leNat (slice ledgerHead 0x2C 1)) 1 = false := by decide +kernel

theorem test_ledger_good : imageFault (fit 65536 ledger) 4 (zeros 16) = none ∧ (parseImage (fit 65536 ledger)).eodValid = true ∧
    (parseImage (fit 65536 ledger)).sessionOpen = false := by
  obtain ⟨h1, h2⟩ := ledger_lengths
  have hl : ledger.length = 65536 := by simp [ledger, h2, leBytes]
  have hf : fit 65536 ledger = ledger := by
    simp only [fit, slice, List.drop_zero, hl, Nat.sub_self, zeros, List.replicate_zero, List.append_nil, List.take_of_length_le (Nat.le_of_eq hl)]
  have hs : ∀ o n, o + n ≤ 64 → slice ledger o n = slice ledgerHead o n := by
    intro o n h
    rw [ledger, slice_append_left _ _ _ _ (by omega), ledgerBody, slice_append_left _ _ _ _ (by omega)]
  have hb : slice ledger 0 0xFFFC = ledgerBody := by
    rw [ledger, slice_append_left _ _ _ _ (by omega)]
    simp only [slice, List.drop_zero, h2, Nat.sub_self, zeros, List.replicate_zero, List.append_nil, List.take_of_length_le (Nat.le_of_eq h2)]
  have hc : leNat (slice ledger 0xFFFC 4) = (crc32c ledgerBody).toNat := by
    have : slice ledger 0xFFFC 4 = leBytes 4 (crc32c ledgerBody).toNat := by
      have hd : ledger.drop 0xFFFC = leBytes 4 (crc32c ledgerBody).toNat := by rw [ledger, ← h2, List.drop_left]
      simp only [slice, hd]
      simp [leBytes, zeros]
    rw [this, leNat_leBytes4]
  obtain ⟨⟨f1, f2, f3, f4⟩, f5, f6⟩ := ledger_head_fields
  rw [hf]
  refine ⟨?_, ?_, ?_⟩
  · simp only [imageFault, hb, getLe, hc, hs 0 8 (by omega), hs 0xC 4 (by omega), hs 0xA 2 (by omega), hs 0x18 16 (by omega), f1, f2, f3, f4]
    simp
  · simpa only [parseImage, getLe, hs 0x2C 1 (by omega)] using f5
  · simpa only [parseImage, getLe, hs 0x2C 1 (by omega)] using f6

/-- The end-of-data search begins on request. -/
def onRequest : State := { up with params := { accepted := [(0x07080700, 0)] } }

/-- Requests of CART_LOAD for a format with its load flags; the image comes from host memory. -/
def cartLoad (f fl : Nat) (image : Bytes) (aux : List Int := []) : MbReq := ask 0 ([byte f, byte fl] ++ zeros 30) { data := image } aux

theorem test_wit_CartridgeLoadAndUnload :
    Plain (cartLoad 4 0 ledger) ∧ onRequest.Serves 0x0201 (cartLoad 4 2 []) ∧ up.Serves 0x0201 (cartLoad 4 0 ledger) ∧ loaded.Serves 0x0202 (ask 0 []) ∧
    (withRecs loaded [rec5]).Serves 0x0202 (ask 0 []) ∧ (cartLoad 4 0 ledger).len = 32 ∧ up.cart.loaded = false ∧ up.cart.barred = false ∧
    up.bench.on = false ∧ loaded.cart.loaded = true ∧ (answer (.cartLoad (cartLoad 4 0 [])) loaded).1 = Status.sequenceError ∧
    (let p := mbData (cartLoad 4 0 [])
     cartReservedOk p = true ∧ getLe p 1 1 = 0 ∧ getLe p 24 8 % 8 = 0 ∧ getLe p 0 1 = 4 ∧ slice p 8 16 = zeros 16 ∧
       imageFault (fit 65536 []) (getLe p 0 1) (slice p 8 16) = some 1) ∧ answer (.cartLoad (cartLoad 4 0 [])) up = (Status.invalidField, 1) ∧
    cartReservedOk (mbData (cartLoad 2 1 [])) = true ∧ getLe (mbData (cartLoad 2 1 [])) 1 1 = 1 ∧
    answer (.cartLoad (cartLoad 2 1 [])) up = (Status.invalidField, 6) ∧ cartReservedOk (mbData (cartLoad 3 1 [] [1])) = true ∧
    answer (.cartLoad (cartLoad 3 1 [] [1])) up = (Status.invalidField, 5) ∧ cartReservedOk (mbData (cartLoad 4 1 [])) = true ∧
    (after (.cartLoad (cartLoad 4 1 [])) up).cart.lastIssued = some 0 ∧
    cartReservedOk (mbData (cartLoad 4 2 [])) = true ∧ onRequest.cart.loaded = false ∧ onRequest.param 0x07080700 ≠ 1 ∧ (after (.cartLoad (cartLoad 4 2 [])) onRequest).cart.searchPending = true ∧
    (withRecs loaded [rec5]).recsIn .opened ≠ [] ∧ (answer (.cartUnload (ask 0 [])) (withRecs loaded [rec5])).1 = Status.sequenceError ∧
    loaded.recsIn .opened = [] ∧ loaded.recsIn .sealed = [] ∧ loaded.forge.writing = false ∧ loaded.rd.jobs = [] ∧ loaded.rd.locate = none ∧
    loaded.rd.reading = false ∧ loaded.cart.searching = false ∧ loaded.cart.eodChecking = false ∧ loaded.cart.searchMb = [] ∧
    loaded.waitingLocate = none ∧ (∀ m < 16, m ≠ 0 → (loaded.mbox m).state ≠ 1) ∧ loaded.cart.changed = false ∧
    answer (.cartUnload (ask 0 [])) loaded = (Status.success, 0) ∧ (after (.cartUnload (ask 0 [])) loaded).cart.loaded = false := by
  refine ⟨plain _ _ _ _, idle (by decide +kernel) _ _, idle (by decide +kernel) _ _, idle (by decide +kernel) _ _, idle (by decide +kernel) _ _, ?_⟩
  decide +kernel

/-- Two images issued, the last not reported stored; a session waiting for its image with a sealed record. -/
def issued2 : State := { loaded with cart := { loaded.cart with issued := [{ seq := 9 }, { seq := 8 }], lastIssued := some 9, lastStored := some 8 } }
def waitsStored (l : Nat) : State :=
  let s := withRecs loaded [{ rec5 with state := .sealed }]
  { s with cart := { s.cart with waitStored := some 9, lastStored := some l } }

theorem test_wit_LedgerImages :
    let get := fun (n : Nat) => ask 0 (leBytes 8 n ++ leBytes 8 0x8000)
    let st := fun (n : Nat) => ask 0 (leBytes 8 n)
    Plain (get 9) ∧ issued2.Serves 0x0203 (get 9) ∧ issued2.Serves 0x0204 (st 9) ∧ loaded.Serves 0x0204 (st 0) ∧ (get 9).len = 16 ∧
    getLe (mbData (get 9)) 8 8 % 8 = 0 ∧ issued2.cart.issued.find? (fun m => m.seq = getLe (mbData (get 9)) 0 8) = some { seq := 9 } ∧
    (∀ m ∈ issued2.cart.issued, m.seq ≠ getLe (mbData (get 7)) 0 8) ∧ (answer (.ledgerGet (get 7)) issued2).1 = Status.invalidField ∧
    answer (.ledgerGet (get 9)) issued2 = (Status.success, 0) ∧
    (st 9).len = 8 ∧ getLe (mbData (st 9)) 0 8 = 9 ∧ (after (.ledgerStored (st 9)) issued2).cart.lastStored = some 9 ∧
    (answer (.ledgerStored (st 10)) issued2).1 = Status.invalidField ∧ loaded.cart.lastIssued = none ∧
    (waitsStored 9).sessionStored = true ∧ (waitsStored 9).tapeFree = true ∧ (waitsStored 9).formable = true ∧ (waitsStored 8).sessionStored = false ∧
    (after .sessionFirstFrame (waitsStored 9)).forge.writing = true := by
  refine ⟨plain _ _ _ _, idle (by decide +kernel) _ _, idle (by decide +kernel) _ _, idle (by decide +kernel) _ _, ?_⟩
  decide +kernel

/-- The end-of-data search pending, running with a good EOD block seen, and the EOD block being checked. -/
def searchPend : State := { loaded with cart := { loaded.cart with searchPending := true, image := { loaded.cart.image with syncedPos := { serial := 7 } } } }
def searchRuns : State :=
  { searchPend with cart := { searchPend.cart with searching := true, searchMb := [3] }, rd := { searchPend.rd with reading := true} }
def checks : State := { loaded with cart := { loaded.cart with eodChecked := false, eodChecking := true }, rd := { loaded.rd with reading := true } }

theorem test_wit_EndOfDataSearch :
    Plain (ask 0 []) ∧ loaded.Serves 0x0205 (ask 0 []) ∧ searchPend.Serves 0x0205 (ask 0 []) ∧ loaded.cart.searchPending = false ∧
    loaded.cart.searching = false ∧ searchPend.cart.searchPending = true ∧ searchPend.cart.searching = false ∧ searchPend.cart.eodChecking = false ∧
    searchPend.forge.writing = false ∧ searchPend.rd.locate = none ∧ (after (.eodSearch (ask 0 [])) searchPend).rd.parseNext = some 7 ∧
    loaded.cart.eodChecking = false ∧ checks.cart.eodChecking = true ∧ checks.rd.jobs = [] ∧ checks.cart.searchPending = false ∧
    checks.waitingLocate = none ∧ checks.unloadMb = none ∧ checks.formable = false ∧
    (after (.eodBlockCheck true {}) checks).cart.eodChecked = true ∧ (after (.eodBlockCheck false {}) checks).cart.stale = true ∧
    searchRuns.cart.searching = true ∧ searchRuns.searchSettled = true ∧ searchRuns.searchOutcome true = some 4 ∧ searchRuns.rd.jobs = [] ∧
    searchRuns.waitingLocate = none ∧ searchRuns.unloadMb = none ∧ searchRuns.formable = false ∧
    (after (.eodSearchEnd true {}) searchRuns).cart.eod.outcome = 4 ∧ answer (.eodSearchEnd true {}) searchRuns 3 = (Status.success, 0) := by
  refine ⟨plain _ _ _ _, idle (by decide +kernel) _ _, idle (by decide +kernel) _ _, ?_⟩
  decide +kernel

/-! ## Witnesses: statistics, records, security -/

/-- A request with the CLEAR flag. -/
def clearing (p : Bytes) : MbReq := { ask 0 p with flags := 1 }

/-- READ_CHANNEL_STATS of `n` lanes from `first` on, in the response or to host memory. -/
def chanStats (first n addr : Nat) : MbReq := ask 0 (leBytes 2 first ++ leBytes 2 n ++ zeros 4 ++ leBytes 8 addr)

theorem test_wit_StatisticsAreReturnedAndCleared :
    up.Serves 0x0301 (chanStats 0 1024 0x8000) ∧ up.Serves 0x0302 (ask 0 []) ∧ up.Serves 0x0303 (clearing []) ∧ up.Serves 0x0402 (clearing []) ∧
    up.Serves 0x0403 (ask 0 []) ∧ up.Serves 0x0803 (ask 0 []) ∧ (clearing []).rsv = 0 ∧ (clearing []).flags = 1 ∧ (ask 0 []).flags = 0 ∧
    (let p := mbData (chanStats 0 1024 0x8000)
     (chanStats 0 1024 0x8000).len = 16 ∧ zeroAt p 4 4 = true ∧ getLe p 2 2 = 1024 ∧ getLe p 8 8 % 16 = 0 ∧ (chanStats 0 1024 0x8000).io.ok = true) ∧
    up.rd.stats.length = 1024 ∧ (up.rd.stats[1023]?).isSome = true ∧ up.hearth.scale.length ≤ 32 ∧ up.hearth.chans[7]? = some { state := 0 } ∧
    up.tongs.ports[17]? = some port0 ∧ answer (.readChannelStats (chanStats 1023 1 0)) up = (Status.success, 0) ∧
    (answer (.readChannelStats (chanStats 1023 2 0)) up).1 = Status.invalidField ∧ (answer (.readChannelStats (chanStats 0 128 0)) up).1 = Status.invalidField ∧
    (answer (.readChannelStats (chanStats 0 0 0)) up).1 = Status.invalidField ∧
    (after (.compressStats (clearing [])) { up with comp := { stored := 3 } }).comp.stored = 0 ∧
    (after (.compressStats (ask 0 [])) { up with comp := { stored := 3 } }).comp.stored = 3 := by
  refine ⟨idle (by decide +kernel) _ _, idle (by decide +kernel) _ _, idle (by decide +kernel) _ _, idle (by decide +kernel) _ _,
    idle (by decide +kernel) _ _, idle (by decide +kernel) _ _, ?_⟩
  decide +kernel

/-- A test that has ended and one that runs. -/
def tested : State :=
  { up with units := { up.units with results := [{ id := 4, kind := 1, scope := 0, start := 0, outcome := 0 }], nextTest := 6,
                                     running := some { id := 5, kind := 2, scope := 0, start := 0 } } }
def testedIdle : State := { tested with units := { tested.units with running := none } }

theorem test_wit_RecordsOfTheFormatterAreReturned :
    Plain (ask 0 []) ∧ up.Serves 0x0904 (ask 0 []) ∧ testedIdle.Serves 0x0704 (ask 0 (leBytes 4 4)) ∧ tested.Serves 0x0704 (ask 0 (leBytes 4 5)) ∧
    up.Serves 0x050C (ask 0 (0 :: 64 :: zeros 6)) ∧ up.twin.peerSerial.length = 16 ∧ testedIdle.units.running = none ∧
    (testedIdle.units.results.find? (fun q => q.id = BitVec.ofNat 32 (getLe (mbData (ask 0 (leBytes 4 4))) 0 4))).isSome = true ∧
    tested.units.running.map (·.id) = some (BitVec.ofNat 32 (getLe (mbData (ask 0 (leBytes 4 5))) 0 4)) ∧
    (∀ x ∈ tested.units.running.toList ++ tested.units.results, x.id ≠ BitVec.ofNat 32 (getLe (mbData (ask 0 (leBytes 4 6))) 0 4)) ∧
    (answer (.selftestResult (ask 0 (leBytes 4 6))) tested).1 = Status.invalidField ∧
    (let cal := ask 0 (leBytes 8 0x8000 ++ leBytes 4 33280 ++ zeros 4)
     cal.len = 16 ∧ zeroAt (mbData cal) 12 4 = true ∧ getLe (mbData cal) 0 8 % 8 = 0 ∧ getLe (mbData cal) 8 4 = 33280 ∧ up.eepromUp = true ∧ cal.io.ok = true) ∧
    (let snap := fun (off : Nat) => ask 0 (2 :: zeros 7 ++ leBytes 8 off ++ leBytes 4 16 ++ zeros 4 ++ leBytes 8 0x8000)
     (snap 0).len = 32 ∧ getLe (mbData (snap 0)) 0 1 = 2 ∧ zeroAt (mbData (snap 0)) 1 7 = true ∧ zeroAt (mbData (snap 0)) 20 4 = true ∧
       getLe (mbData (snap (journalBytes - 16))) 8 8 + getLe (mbData (snap 0)) 16 4 = journalBytes ∧
       answer (.snapshotRead (snap (journalBytes - 16))) up = (Status.success, 0) ∧
       (answer (.snapshotRead (snap (journalBytes - 8))) up).1 = Status.invalidField) ∧
    up.secRefuses 0x0501 = none ∧ up.secRefuses 0x050C = none ∧ up.sec.state ≠ .selfTest ∧
    (({ up with mail := modAt up.mail 0 (fun b => { b with role := 2 }) } : State).mbox 0).role ≠ 0 ∧
    slotRangeOk (mbData (ask 0 (0 :: 64 :: zeros 6))) = true ∧ slotRangeOk (mbData (ask 0 (63 :: 1 :: zeros 6))) = true := by
  refine ⟨plain _ _ _ _, idle (by decide +kernel) _ _, idle (by decide +kernel) _ _, idle (by decide +kernel) _ _, idle (by decide +kernel) _ _, ?_⟩
  decide +kernel

/-! ### Keys. The wraps were computed by hand from RFC 5649 and FIPS 197, the login MAC from SP 800-38B. -/

def wrapKey : Bytes := (List.range 32).map byte
def wrappedCo : Bytes := beBytes 48 0x59bcc23ce11e83ad04d2bddf3a6adc80c9e0c07e81e6c8bb2d5bc9ec75f4eb164fe5d3fedc69a4938d2859d2b5b62057
def wrappedNone : Bytes := beBytes 48 0x8ca224bcca371f25d4a37b31f839610e5d3560bc4833ee3951a62b8255b08c43e11235f89c8bd5cef5107314c81f125f
def wrapped : Bytes := (List.range 32).map (fun i => byte (100 + i))

theorem test_unwrap : kwpUnwrap wrapKey wrappedCo = some (wrapped ++ roleLabel 1) := by decide +kernel
theorem test_unwrap_no_label : kwpUnwrap wrapKey wrappedNone = some (wrapped ++ zeros 8) := by decide +kernel
theorem test_unwrap_bad : kwpUnwrap wrapKey (zeros 48) = none := by decide +kernel
theorem test_login_mac : cmac wrapKey (ascii "DXFLOGIN" ++ [1] ++ zeros 16 ++ [0]) = beBytes 16 0x91957a5b933af34cfe1db79b09c7e744 := by decide +kernel

/-- Mailbox 0 holds a role and a KTK and an unused nonce; the Officer's key is set; KEK 0 is loaded, data key 1 in use by one record. -/
def crypt (role : BitVec 2) : State :=
  { up with mail := modAt up.mail 0 (fun b => { b with role := role, ktk := some wrapKey, nonce := some (zeros 16) })
            sec := { up.sec with coKey := some wrapKey, keks := some (wrapKey, zeros 8) :: List.replicate 3 none
                                 slots := {} :: { cur := some { key := zeros 32, label := leBytes 8 77, gen := 1, users := 1 }, lastGen := 1 } ::
                                   List.replicate 62 {} } }

/-- Not yet commissioned; locked out. -/
def fresh : State := { crypt 1 with sec := { (crypt 1).sec with state := .uncommissioned, coKey := none } }
def locked : State := { crypt 0 with sec := { (crypt 0).sec with lockedOut := true, fails := 8 } }

/-- SEC_LOGIN, SEC_COMMISSION and SEC_SET_AUTH requests. -/
def login (mac : Bytes) : MbReq := ask 0 (1 :: zeros 3 ++ mac)
def goodMac : Bytes := beBytes 16 0x91957a5b933af34cfe1db79b09c7e744
def setAuth (role : Nat) (w : Bytes) : MbReq := ask 0 (byte role :: zeros 3 ++ w)
def agree (x y : Nat) : MbReq := ask 0 (4 :: beBytes 48 x ++ beBytes 48 y ++ zeros 19)

theorem test_wit_LoginAndKeyAgreement :
    Plain (login goodMac) ∧ (crypt 1).Serves 0x0503 (login goodMac) ∧ locked.Serves 0x0503 (login goodMac) ∧ fresh.Serves 0x0506 (ask 0 wrappedCo) ∧
    (crypt 1).sec.state ≠ .selfTest ∧ ([0x0502, 0x0503, 0x0504, 0x0505, 0x0506, 0x0507].all (fun o => (crypt 1).secRefuses o = none)) = true ∧
    roleOk ((crypt 1).mbox 0).role 0 = true ∧ roleOk ((crypt 1).mbox 0).role 1 = true ∧ roleOk ((crypt 2).mbox 0).role 3 = true ∧
    (crypt 1).sec.drbg = true ∧ (login goodMac).len = 20 ∧ roleByteOk (mbData (login goodMac)) = true ∧ locked.sec.lockedOut = true ∧
    (answer (.secLogin (login goodMac)) locked).1 = Status.loginLocked ∧ (up.mbox 0).nonce = none ∧ up.sec.lockedOut = false ∧
    (crypt 1).sec.lockedOut = false ∧ ((crypt 1).mbox 0).nonce = some (zeros 16) ∧ (crypt 1).authKey 1 = some wrapKey ∧
    slice (mbData (login goodMac)) 4 16 = goodMac ∧ slice (mbData (login (zeros 16))) 4 16 ≠ goodMac ∧
    (setAuth 1 wrappedCo).len = 52 ∧ roleByteOk (mbData (setAuth 2 wrappedCo)) = true ∧ slice (mbData (setAuth 2 wrappedCo)) 4 48 = wrappedCo ∧
    (wrapped ++ roleLabel 1).drop 32 = roleLabel 1 ∧ roleLabel 1 ≠ roleLabel 2 ∧ (wrapped ++ zeros 8).drop 32 ≠ roleLabel 1 ∧
    (agree p384Gx p384Gy).len = 116 ∧ zeroAt (mbData (agree 0 0)) 113 3 = true ∧ ecPublic (slice (mbData (agree p384Gx p384Gy)) 0 97) = some (p384Gx, p384Gy) ∧
    ecPublic (slice (mbData (agree p384Gx p384Gx)) 0 97) = none ∧ answer (.secKeyAgree (agree p384Gx p384Gx)) up = (Status.invalidField, 1) ∧
    (ask 0 wrappedCo).len = 48 ∧ mbData (ask 0 wrappedCo) = wrappedCo ∧ fresh.secRefuses 0x0506 = none ∧ fresh.sec.state ≠ .operational ∧
    fresh.sec.debug = false ∧ (fresh.mbox 0).ktk = some wrapKey ∧ (after .lockoutEnd locked).sec.lockedOut = false ∧
    (let two : State := { up with sec := { up.sec with entropyFails := [0, 0] } }
     2 ≤ (two.sec.entropyFails.filter (fun x => two.nowNs < x + 1000000000)).length ∧ (after .entropyHealthFail two).sec.state = .error) ∧
    (after .entropyHealthFail up).sec.state = .operational := by
  refine ⟨plain _ _ _ _, idle (by decide +kernel) _ _, idle (by decide +kernel) _ _, idle (by decide +kernel) _ _, ?_⟩
  decide +kernel

/-- A login with the right MAC succeeds. -/
theorem test_login : (after (.secLogin (login goodMac)) (crypt 0)).mbox 0 = { (crypt 0).mbox 0 with role := 1, nonce := none, state := 2, lastSeq := 7, seq := 7, opcode := 0x0503 } := by decide +kernel

/-- SEC_KEK_LOAD and SEC_KEY_LOAD requests; slot 0 empty, slot 1 in use; slot 2 with a retained generation in use; slot 3 being erased. -/
def keyLoad (n kek : Nat) (w : Bytes) : MbReq := ask 0 (byte n :: byte kek :: zeros 2 ++ w)
def slots4 (role : BitVec 2) : State :=
  let g : KeyGen := { key := zeros 32, label := leBytes 8 78, gen := 3, users := 1 }
  { crypt role with sec := { (crypt role).sec with slots := (crypt role).sec.slots.take 2 ++
      [{ cur := some { g with gen := 4, label := leBytes 8 79 }, old := some g, lastGen := 4 },
       { cur := some { g with users := 0, label := leBytes 8 80 }, erasing := [0], lastGen := 4 }] ++ List.replicate 60 {} } }

theorem test_wit_KeysAreLoadedAndErased :
    Plain (keyLoad 0 0 wrappedCo) ∧ (slots4 1).Serves 0x0508 (keyLoad 3 0 wrappedCo) ∧ (slots4 2).Serves 0x050A (keyLoad 63 3 wrappedCo) ∧
    (slots4 2).Serves 0x050B (ask 0 (63 :: zeros 7)) ∧ (slots4 1).Serves 0x050D (ask 0 (1 :: 0xFF :: zeros 6)) ∧
    (slots4 1).sec.state ≠ .selfTest ∧ ([0x0508, 0x0509, 0x050A, 0x050B, 0x050D].all (fun o => (slots4 1).secRefuses o = none)) = true ∧
    roleOk ((slots4 1).mbox 0).role 1 = true ∧ roleOk ((slots4 2).mbox 0).role 1 = false ∧ roleOk ((slots4 1).mbox 0).role 2 = false ∧
    (keyLoad 3 0 wrappedCo).len = 52 ∧ getLe (mbData (keyLoad 3 0 wrappedCo)) 0 1 = 3 ∧ zeroAt (mbData (keyLoad 3 0 wrappedCo)) 1 3 = true ∧
    ((slots4 1).mbox 0).ktk = some wrapKey ∧ slice (mbData (keyLoad 3 0 wrappedCo)) 4 48 = wrappedCo ∧
    getLe (mbData (keyLoad 63 3 wrappedCo)) 0 1 = 63 ∧ getLe (mbData (keyLoad 63 3 wrappedCo)) 1 1 = 3 ∧ zeroAt (mbData (keyLoad 63 3 wrappedCo)) 2 2 = true ∧
    (slots4 2).sec.slots[0]?.map (·.erasing) = some [] ∧ (slots4 2).sec.slots[3]?.map (·.erasing) = some [0] ∧ (slots4 2).sec.keks[3]? = some none ∧
    (slots4 2).sec.keks[0]? = some (some (wrapKey, zeros 8)) ∧ (wrapped ++ roleLabel 1).drop 32 ≠ zeros 8 ∧
    (wrapped ++ roleLabel 1).drop 32 ∉ (slots4 2).labels ∧ (wrapped ++ zeros 8).drop 32 = zeros 8 ∧
    (slots4 2).sec.slots[2]?.bind (·.old) = some { key := zeros 32, label := leBytes 8 78, gen := 3, users := 1 } ∧
    (answer (.secKeyLoad (keyLoad 3 0 wrappedCo)) (slots4 2)).1 = Status.keyErasing ∧
    (answer (.secKeyLoad (keyLoad 0 3 wrappedCo)) (slots4 2)).1 = Status.keyNotAvailable ∧
    (answer (.secKeyLoad (keyLoad 0 0 wrappedCo)) (slots4 1)).1 = Status.roleRequired := by
  refine ⟨plain _ _ _ _, idle (by decide +kernel) _ _, idle (by decide +kernel) _ _, idle (by decide +kernel) _ _, idle (by decide +kernel) _ _, ?_⟩
  decide +kernel

theorem test_wit_KeysAreLoadedAndErased_2 :
    (ask 0 (63 :: zeros 7)).len = 8 ∧ zeroAt (mbData (ask 0 (63 :: zeros 7))) 1 7 = true ∧
    (slots4 2).sec.slots[3]?.map (·.unused) = some true ∧ (slots4 2).mail.length = 16 ∧
    (let s : State := { slots4 2 with mail := modAt (slots4 2).mail 0 (fun b => { b with state := 1 }) }
     (after (.keyEraseComplete 3) s).sec.slots[3]? = some { lastGen := 4 } ∧ answer (.keyEraseComplete 3) s = (Status.success, 0)) ∧
    modeOk (mbData (ask 0 (1 :: 0xFF :: zeros 6))) = true ∧ (slots4 1).sec.approved = false ∧ (slots4 1).recsIn .opened = [] ∧
    (slots4 1).recsIn .sealed = [] ∧ (slots4 1).rd.jobs = [] ∧ (slots4 1).sec.slots.length = 64 ∧
    (withRecs (slots4 1) [rec5]).recsIn .opened ≠ [] ∧ (after (.secSetMode (ask 0 (1 :: 0xFF :: zeros 6))) (slots4 1)).sec.approved = true ∧
    (answer (.secSetMode (ask 0 (1 :: 0xFF :: zeros 6))) (withRecs (slots4 1) [rec5])).1 = Status.slotBusy ∧
    (after (.secSetMode (ask 0 (0xFF :: 0 :: zeros 6))) (slots4 1)).sec.allowPlain = false := by decide +kernel

/-- The security self-test runs. -/
def testing : State := { slots4 1 with sec := { (slots4 1).sec with state := .selfTest, testMb := some 0 }, mail := modAt (slots4 1).mail 0 (fun b => { b with state := 1 }) }

/-- One AES pair fewer than the self-test wants. -/
def pairs59 : List (Fin 80) := (List.range 59).map (Fin.ofNat 80)

theorem test_wit_ZeroizeAndSelfTest :
    let z := fun (scope n : Nat) => ask 0 (byte scope :: byte n :: zeros 6)
    Plain (z 1 0) ∧ (slots4 1).Serves 0x050E (z 1 0) ∧ (slots4 1).Serves 0x050F (ask 0 []) ∧ (slots4 1).sec.slots.length = 64 ∧
    (slots4 1).secRefuses 0x050E = none ∧ (slots4 1).secRefuses 0x050F = none ∧ (z 1 0).len = 8 ∧ zeroAt (mbData (z 0 63)) 2 6 = true ∧
    getLe (mbData (z 1 0)) 0 1 = 1 ∧ getLe (mbData (z 1 0)) 1 1 = 0 ∧ getLe (mbData (z 0 63)) 0 1 = 0 ∧ getLe (mbData (z 0 63)) 1 1 = 63 ∧
    (after (.secZeroize (z 1 0)) (slots4 1)).sec.state = .uncommissioned ∧ (after (.secZeroizeSlotWrite 2) (slots4 1)).sec.slots[2]? = some { lastGen := 4 } ∧
    (slots4 1).sec.state ≠ .selfTest ∧ testing.sec.state = .selfTest ∧ testing.glob.ready = true ∧ testing.sec.heldMb = [] ∧ testing.mail.length = 16 ∧
    testing.sec.testMb = some 0 ∧ ((List.range 80).filter (pairs59.map Fin.val).contains).length = 59 ∧
    (after (.secSelftestEnd true pairs59 {}) testing).sec.state = .error := by
  refine ⟨plain _ _ _ _, idle (by decide +kernel) _ _, idle (by decide +kernel) _ _, ?_⟩
  decide +kernel

/-! ## Witnesses: firmware, power, units, Hearth -/

/-- The Crypto Officer on mailbox 0; the image staged or in the boot slot. -/
def officer : State := { up with mail := modAt up.mail 0 (fun b => { b with role := 1 }) }
def withFw (f : Firmware) : State := { officer with fw := f }
def certAux : List Int := [1, (imageCert.x : Int), (imageCert.y : Int)]
def unsignedImage : Bytes := putAt image 28 [0]

theorem test_wit_FirmwareIsStagedCommittedActivated :
    let down := fun (off len : Nat) => ask 0 (leBytes 4 off ++ leBytes 4 len ++ leBytes 8 0x8000)
    let com := ask 0 (leBytes 4 1) {} certAux
    let act := ask 0 [] {} certAux
    let st := withFw { staged := image }
    let s := withFw { slot0 := image }
    Plain com ∧ up.Serves 0x0602 (down 0 16) ∧ officer.Serves 0x0602 (down 0 16) ∧ st.Serves 0x0603 com ∧ s.Serves 0x0604 act ∧
    st.fwFault (certOf com) image = none ∧ s.fwFault (certOf act) (s.fw.slot s.fw.bootSlot) = none ∧
    (up.mbox 0).role ≠ 1 ∧ (officer.mbox 0).role = 1 ∧ (down 0 16).len = 16 ∧ getLe (mbData (down 0 1048576)) 4 4 = 1048576 ∧
    getLe (mbData (down 16 1048577)) 4 4 = 1048577 ∧ getLe (mbData (down 16 1048577)) 0 4 = 16 ∧ 4096 + 3145728 < 4096 + 3145728 - 15 + 16 ∧
    (after (.fwDownload (down 0 16)) officer).fw.staged = zeros 16 ∧ (answer (.fwDownload (down 16 16)) officer).1 = Status.invalidField ∧
    com.len = 4 ∧ getLe (mbData com) 0 4 = 1 ∧ st.fw.commit = [] ∧ officer.fw.staged.length < 4096 ∧ st.fw.stagedComplete = true ∧
    st.fwFault (certOf (ask 0 (leBytes 4 1))) st.fw.staged = some 2 ∧
    (let done := withFw { staged := image, commit := [(0, true)] }
     done.fw.commit = [(0, true)] ∧ done.mail.length = 16 ∧ (after .fwCommitComplete done).fw.floor = 3 ∧ (after .fwCommitComplete done).fw.bootSlot = true) ∧
    fwVersion image = ({ running := 0x0102030405060708 } : Firmware).running.toNat ∧ fwVersion image ≠ s.fw.running.toNat ∧
    getLe unsignedImage 28 4 % 2 = 0 ∧ fwVersion unsignedImage ≠ 0 ∧ getLe (s.fw.slot s.fw.bootSlot) 28 4 % 2 = 1 ∧ s.longBusy = false ∧
    s.glob.shutdown ≠ 1 ∧ s.fw.act = .none ∧ answer (.fwActivate act) (withFw { slot0 := image, running := 0x0102030405060708 }) = (Status.sequenceError, 1) ∧
    answer (.fwActivate act) (withFw { slot0 := unsignedImage }) = (Status.sequenceError, 2) ∧
    answer (.fwActivate act) { s with glob := { s.glob with shutdown := 1 } } = (Status.sequenceError, 3) := by
  have e : certOf (ask 0 [] {} certAux) = imageCert := by decide +kernel
  refine ⟨plain _ _ _ _, idle (by decide +kernel) _ _, idle (by decide +kernel) _ _, idle (by decide +kernel) _ _, idle (by decide +kernel) _ _,
    ?_, ?_, ?_⟩
  · exact e ▸ test_image_good _ (by decide)
  · exact e ▸ test_image_good _ (by decide)
  decide +kernel

/-- An activation in each of its phases. -/
def activating (p : ActPhase) : State :=
  let s := withFw { slot0 := image, act := p, actMb := some 0 }
  { s with mail := modAt s.mail 0 (fun b => { b with state := 1, opcode := 0x0604 }) }

theorem test_wit_ActivationPhases :
    (let s := activating .preparing
     s.fw.act = .preparing ∧ s.actGuard = true ∧ s.forge.writing = false ∧ s.noImageDue = true ∧ s.fw.heldMb = [] ∧ s.glob.shutdownAfterAct = 0 ∧
       s.mail.length = 16 ∧ (after .activationDrain s).fw.act = .draining ∧ answer .actDrainMaxExpiry s = (Status.sequenceError, 4)) ∧
    (let s := activating .draining
     s.drained = true ∧ s.actGuard = true ∧ (after .blackoutStart s).fw.act = .blackout) ∧
    (let s := { activating .draining with motion := { up.motion with state := 4 }, servo := { up.servo with lpos := 1040001 * 256000 } }
     s.drained = true ∧ s.actGuard = false ∧ (after .blackoutStart s).fw.act = .preparing) ∧
    ({ activating .draining with recs := { up.recs with cmds := [sync5] } } : State).drained = false ∧
    (let s := activating .blackout
     s.fw.heldMb = [] ∧ (∀ h ∈ s.evq.held, h.code ≠ 0x0503) ∧ (after .firmwareReady s).fw.running = 0x0102030405060708 ∧
       answer .firmwareReady s = (Status.success, 0) ∧ answer .activationFallback s = (Status.sequenceError, 5)) := by decide +kernel

/-- Power states and entries. -/
def powered (st : BitVec 2) (entering : Option (BitVec 2)) (mb : Option Nat := none) (arrival : Int := 0) : State :=
  { up with pwr := { state := st, entering := entering, mb := mb }, params := { accepted := [(0x0C070400, arrival), (0x0C070100, 1), (0x0C070200, 1), (0x0C070300, 1)] } }

theorem test_wit_PowerStatesAreEnteredAndLeft :
    let set := fun (n : Nat) => ask 0 [byte n, 0, 0, 0]
    Plain (set 3) ∧ up.Serves 0x0701 (set 3) ∧ (powered 1 (some 2)).Serves 0x0701 (set 3) ∧ (powered 1 none).Serves 0x0701 (set 1) ∧ (set 3).len = 4 ∧
    getLe (mbData (set 3)) 0 1 = 3 ∧ zeroAt (mbData (set 3)) 1 3 = true ∧ answer (.powerSet (set 1)) (powered 1 none) = (Status.success, 0) ∧
    up.pwr.entering = none ∧ up.pwr.state.toNat ≠ 3 ∧ (after (.powerSet (set 3)) up).pwr.entering = some 3 ∧ (powered 1 (some 2)).pwr.entering.isSome = true ∧
    (powered 1 none).pwr.d3hot = false ∧ (after (.powerSet (set 0)) (powered 1 none)).pwr.state = 0 ∧
    (let s := powered 0 none
     s.param 0x0C070100 ≠ 0 ∧ s.idle = true ∧ s.pwr.entering = none ∧ s.pwr.state + 1 = 1 ∧ (after .pwrIdleP1Expiry s).pwr.entering = some 1) ∧
    (powered 1 none).idle = true ∧ (powered 1 none).pwr.state + 1 = 2 ∧ (powered 2 none).idle = true ∧ (powered 2 none).pwr.state + 1 = 3 ∧
    (powered 3 none).pwr.state ≠ 0 ∧ (after .wakeEvent (powered 3 none)).pwr.state = 0 ∧ (powered 0 (some 3) (some 2) 1).param 0x0C070400 = 1 ∧
    (after .wakeEvent (powered 0 (some 3) (some 2) 1)).pwr.wake = true ∧ (powered 0 (some 3) (some 2)).param 0x0C070400 ≠ 1 ∧
    answer .wakeEvent (powered 0 (some 3) (some 2)) 2 = (Status.sequenceError, 1) ∧ (powered 0 (some 3) (some 2)).entryDone 3 = true ∧
    (powered 0 (some 3) (some 2)).pwr.wake = false ∧ (powered 0 (some 3) (some 2)).pwr.deeper = [] ∧ (powered 0 (some 3) (some 2)).mail.length = 16 ∧
    answer .powerEntryComplete (powered 0 (some 3) (some 2)) 2 = (Status.success, 0) ∧ (after .powerEntryComplete (powered 0 (some 3))).hearth.selfRefresh = true ∧
    writes.entryDone 2 = false := by
  refine ⟨plain _ _ _ _, idle (by decide +kernel) _ _, ⟨by decide, by decide, by decide, by decide, by decide, by decide⟩,
    ⟨by decide, by decide, by decide, by decide, by decide, by decide⟩, ?_⟩
  decide +kernel

/-- Shutdown under way, without and with an ENABLE that waits. -/
def shutting (s : State) (pending : Bool) : State := { s with glob := { s.glob with shutdown := 1, enablePending := pending } }

theorem test_wit_EnableAndShutdown :
    State.reset.glob.ready = false ∧ up.glob.ready = true ∧ up.glob.fatal = false ∧ up.bench.on = false ∧ up.glob.shutdown ≠ 1 ∧ up.glob.shutdownAfterAct = 0 ∧
    (after .globalEnable (shutting up false)).glob.enablePending = true ∧ (shutting up true).glob.enablePending = true ∧
    (after (.orderlyShutdown true) (shutting up true)).glob.enablePending = false ∧ up.fw.act = .none ∧ (after (.orderlyShutdown true) writes).forge.ending = true ∧
    (activating .draining).fw.act ≠ .none ∧ (after (.orderlyShutdown true) (activating .draining)).glob.shutdownAfterAct ≠ 0 ∧ up.glob.abrupt = false ∧
    (after .abruptShutdown writes).forge.writing = false ∧ (after .abruptShutdown writes).pair? 1 = none ∧
    (after .abruptShutdown (activating .draining)).glob.shutdownAfterAct = 2 ∧ (shutting up false).glob.shutdown = 1 ∧ (shutting up false).shutdownDone = true ∧
    (shutting up false).tapeStopped = true ∧ (after .shutdownComplete (shutting up false)).glob.shutdown = 2 ∧
    (after .shutdownComplete (shutting up true)).glob.enabled = true ∧ (shutting writes false).shutdownDone = false := by decide +kernel

/-- A scrub runs for mailbox 2; the armed active; slices. -/
def scrubbing : State := { up with hearth := { up.hearth with scrub := some { mb := 2, start := 0x40000000, len := 64, repair := true, time := 0 } } }
def armed : State := { up with twin := { up.twin with role := 1, peer := 2, paired := true } }

theorem test_wit_ScrubsAndSelfTests :
    let scrub := fun (start len : Nat) => ask 0 (leBytes 8 start ++ leBytes 8 len ++ leBytes 4 1 ++ zeros 4)
    let start := ask 0 ([1, 0, 0, 0] ++ leBytes 4 1)
    Plain start ∧ up.Serves 0x0401 (scrub 0 64) ∧ scrubbing.Serves 0x0401 (scrub 0 64) ∧ up.Serves 0x0702 start ∧ tested.Serves 0x0702 start ∧
    tested.Serves 0x0703 (ask 0 []) ∧ (scrub 0 64).len = 24 ∧ getLe (mbData (scrub 0 64)) 16 4 = 1 ∧ zeroAt (mbData (scrub 0 64)) 20 4 = true ∧
    scrubbing.hearth.scrub.isSome = true ∧ up.hearth.scrub = none ∧ (let p := mbData (scrub (up.hearth.limit - 64) 64)
      getLe p 0 8 % 64 = 0 ∧ getLe p 8 8 % 64 = 0 ∧ 0 < getLe p 8 8 ∧ getLe p 0 8 + getLe p 8 8 = up.hearth.limit) ∧
    (answer (.scrub (scrub 0 64)) scrubbing).1 = Status.sequenceError ∧ scrubbing.mail.length = 16 ∧ answer (.scrubDone []) scrubbing 2 = (Status.success, 0) ∧
    start.len = 8 ∧ getLe (mbData start) 0 1 = 1 ∧ zeroAt (mbData start) 1 3 = true ∧ tested.units.running.isSome = true ∧ up.units.running = none ∧
    (after (.selftestStart start) up).units.nextTest = 2 ∧ (after (.selftestAbort (ask 0 [])) tested).units.running = none ∧
    inScope 0 1 = true ∧ inScope 1 1 = true ∧ (after (.selftestDone [(1, 51)]) tested).units.results.head?.map (·.outcome) = some 1 ∧
    isSingleton 0x0F = false ∧ isSingleton 0x10 = true ∧ isSingleton 0x1B = true ∧ isSingleton 0x1C = false ∧
    tested.units.running.map (·.kind) = some 2 ∧ (after (.singletonTestSlice 0x10 true) tested).units.running.map (·.yielded) = some 1 ∧
    (let held : State := { tested with units := { tested.units with slice := some (0x10, 64) } }
     (after (.singletonTestSlice 0x10 true) held).units.sliceHeld = 1) ∧
    up.param 0x0F0C0100 ≠ 0 ∧ ({ up with params := { accepted := [(0x0F0C0100, 0)] } } : State).param 0x0F0C0100 = 0 ∧
    nextInService up 1 52 ((assocGet up.units.nextUnit 1).getD 0) = some 0 ∧ (after (.bistIntervalTick [1]) up).isQuarantined 1 0 = true ∧
    up.tapeStopped = true ∧ up.forge.writing = false ∧ up.rd.reading = false ∧ up.armedActive = false ∧ up.recsIn .sealed = [] ∧ writes.tapeStopped = false ∧
    (after (.dailySingletonTest [2]) up).isQuarantined 0x13 0 = true ∧ armed.armedActive = true ∧ (after (.streamingSingletonFault 0) armed).twin.role = 2 ∧
    1 < up.unitsIn 6 4 ∧ (after (.smithyLockstepFault 3) up).isQuarantined 6 3 = true ∧
    ({ up with units := { up.units with quarantined := [{ cls := 6, num := 0 }, { cls := 6, num := 1 }, { cls := 6, num := 2 }] } } : State).unitsIn 6 4 ≤ 1 := by
  refine ⟨plain _ _ _ _, idle (by decide +kernel) _ _, idle (by decide +kernel) _ _, idle (by decide +kernel) _ _, idle (by decide +kernel) _ _,
    idle (by decide +kernel) _ _, ?_⟩
  decide +kernel

/-- A valid calibration image with no module's values: signature, length, zeros and the CRC. -/
def calSmall : Bytes := [0x44, 0x58, 0x46, 0x43, 0x41, 0x4C, 0x30, 0x31] ++ leBytes 4 33280

/-- Unit controls, TWIN_PAIR, BENCH_CONTROL requests; the bench is on. -/
def unitCtl (cls num act : Nat) (aux : List Int := []) : MbReq := ask 0 (leBytes 2 num ++ [0, byte cls, byte act, 0, 0, 0]) {} aux
def benchOn : State := { officer with bench := { on := true } }
def benchReady : State := { withFw { running := 5 } with glob := { up.glob with enabled := false } }
def armedOff : State := { officer with twin := armed.twin }

theorem test_wit_UnitsCalibrationBenchTwinControl :
    let pair := fun (un : Nat) (found : Int) => ask 0 (beBytes 16 9 ++ leBytes 4 un ++ zeros 4) {} [found]
    let bench := fun (a : Nat) => ask 0 [byte a]
    Plain (unitCtl 3 0 1) ∧ officer.Serves 0x0901 (unitCtl 3 0 1) ∧ benchOn.Serves 0x0905 (bench 5) ∧ benchReady.Serves 0x0905 (bench 1) ∧
    armedOff.Serves 0x0903 (ask 0 []) ∧ (unitCtl 3 23 1).len = 8 ∧ (let p := mbData (unitCtl 3 23 4)
      getLe p 4 1 = 4 ∧ zeroAt p 5 3 = true ∧ bitsOf (getLe p 0 4) 16 8 = 0 ∧ getLe p 0 4 / 2 ^ 24 = 3 ∧ getLe p 0 4 % 2 ^ 16 = 23) ∧
    unitExists 3 23 = true ∧ unitExists 3 24 = false ∧ (answer (.unitControl (unitCtl 3 24 1)) officer).1 = Status.invalidField ∧
    officer.neededUnit 0x10 0 = true ∧ answer (.unitControl (unitCtl 0x10 0 1)) officer = (Status.sequenceError, 1) ∧
    officer.neededUnit 3 23 = false ∧ 23 ∉ officer.outUnits 3 ∧ answer (.unitControl (unitCtl 3 23 1)) officer = (Status.success, 0) ∧
    officer.testableNow 6 3 = true ∧ answer (.unitControl (unitCtl 6 3 2 [0])) officer = (Status.success, 0) ∧
    (after (.unitControl (unitCtl 6 3 2 [1])) officer).isQuarantined 6 3 = true ∧
    (let cal := fun (a : Nat) => ask 0 (leBytes 8 a ++ leBytes 4 0 ++ zeros 4)
     (cal 0).len = 16 ∧ getLe (mbData (cal 0)) 8 4 = 0 ∧ zeroAt (mbData (cal 0)) 12 4 = true ∧ getLe (mbData (cal 8)) 0 8 % 8 = 0 ∧ officer.eepromUp = true ∧
       calFault (fit 33280 []) officer.tongs.eeprom false = some 1 ∧ answer (.calWrite (cal 8)) officer = (Status.invalidField, 1) ∧
       (answer (.calWrite (cal 8)) { writes with mail := officer.mail }).1 = Status.sequenceError) ∧
    benchSize 1 (mbData (bench 1)) = true ∧ benchSize 1 (mbData (bench 5)) = true ∧ benchSize 25 (3 :: zeros 24) = true ∧ benchSize 49 (2 :: zeros 48) = true ∧
    benchSize 17 (4 :: zeros 16) = true ∧ (benchReady.mbox 0).role = 1 ∧ benchReady.bench.on = false ∧ benchOn.bench.on = true ∧ officer.benchReady = false ∧
    (answer (.benchControl (bench 1)) officer).1 = Status.sequenceError ∧ (after (.benchControl (bench 5)) benchOn).pairs.head? = some none ∧
    (after (.benchControl (ask 0 (3 :: leBytes 8 1 ++ leBytes 8 0 ++ leBytes 8 2))) benchOn).bench.supply = [(1, zeros 2)] ∧
    (pair 0 0).len = 24 ∧ getLe (mbData (pair 0 0)) 16 4 = 0 ∧ getLe (mbData (pair 1 0)) 16 4 = 1 ∧ zeroAt (mbData (pair 1 0)) 20 4 = true ∧
    answer (.twinPair (pair 0 5)) officer = (Status.sequenceError, 5) ∧ (after (.twinPair (pair 0 0)) officer).twin.paired = true ∧
    (after (.twinPair (pair 1 0)) armedOff).twin.peer = 3 ∧ (answer (.twinSwap (ask 0 [])) officer).1 = Status.sequenceError ∧
    armedOff.armedActive = true ∧ armedOff.twin.swap = none ∧ armedOff.forge.writing = false ∧ (after (.twinSwap (ask 0 [])) armedOff).twin.role = 2 ∧
    (after (.twinSwap (ask 0 [])) { writes with mail := officer.mail, twin := armed.twin }).twin.swap = some 0 := by
  refine ⟨plain _ _ _ _, idle (by decide +kernel) _ _, idle (by decide +kernel) _ _, idle (by decide +kernel) _ _, idle (by decide +kernel) _ _, ?_⟩
  decide +kernel

/-- Hearth accesses: at address 0x40000000, class M, or elsewhere; a single symbol in error, two devices in error. -/
def access (req addr : Nat) (kind : Fin 3) (e : List (Fin 80 × BitVec 8) := []) : Instr := .hearthAccess req addr kind e [] 0 0
def oneErr : List (Fin 80 × BitVec 8) := [(0, 1)]
def manyErr : List (Fin 80 × BitVec 8) := [(0, 1), (9, 2)]

theorem test_wit_HearthAccessAndCorrection :
    let a := 0x40000000
    let b := poolBase
    (up.hearth.place (2 ^ 40)).isNone = true ∧ (up.hearth.place a).isSome = true ∧ (up.hearth.place b).isSome = true ∧
    (up.hearth.place b).map (fun x => (up.hearth.chans[up.hearth.serving x.1]?).isSome) = some true ∧ classD b = true ∧ classD 0 = false ∧
    up.hearth.selfRefresh = false ∧ up.panic = false ∧ a / 64 ∉ up.hearth.bad ∧ (match readBurst (up.hearth.burst b) [] with | .clean _ => true | _ => false) = true ∧
    (match readBurst (up.hearth.burst b) oneErr with | .corrected dev _ => decide (dev = 0) | _ => false) = true ∧
    (match readBurst (up.hearth.burst b) manyErr with | .bad => true | _ => false) = true ∧ up.hearth.mirror = false ∧ poolBase ≤ b / 64 * 64 ∧
    up.hearth.scale = [] ∧ (after (access 3 b 1) { up with hearth := { up.hearth with bad := [b / 64] } }).hearth.bad = [] := by decide +kernel

/-- One channel in a state, with a rank's refresh debt; a real-time port panicking. -/
def chan1 (st debt : Nat) : State :=
  { up with hearth := { up.hearth with chans := modAt up.hearth.chans 1 (fun c => { c with state := st, ranks := modAt c.ranks 0 (fun k => { k with debt := debt }) }) } }

theorem test_wit_HearthRefreshTrainingAndJournal :
    ((chan1 2 3).hearth.chans[1]?.map (fun c => (c.ranks[0]?).map (·.debt))) = some (some 3) ∧ up.hearth.selfRefresh = false ∧ up.panic = false ∧
    ({ writes with hearth := { writes.hearth with feedFifo := 0 } } : State).panic = true ∧
    ((after (.refreshDue 1 0) (chan1 0 3)).hearth.chans[1]?.map (fun c => (c.ranks[0]?).map (·.debt))) = some (some 2) ∧
    (after (.refreshRateIndicatorRead true false) (chan1 0 3)).hearth.doubled = true ∧
    ({ up with params := { accepted := [(0x0D0F0300, 1)] } } : State).param 0x0D0F0300 ≠ 0 ∧ ({ up with params := { accepted := [(0x0D0F0300, 0)] } } : State).param 0x0D0F0300 = 0 ∧
    ((after (.dqsOscillator 1 0 2) (chan1 0 0)).hearth.chans[1]?.map (·.microSlots)) = some 1 ∧
    (∀ x ∈ (chan1 2 0).hearth.chans, x.state ≠ 1) ∧ ((after (.fullRetrainingStart 1) (chan1 2 0)).hearth.chans[1]?.map (·.state)) = some 1 ∧
    ((after (.fullRetrainingEnd 1 true {}) (chan1 1 0)).hearth.chans[1]?.map (·.retrainings)) = some 1 ∧ (chan1 1 0).hearth.mirror = false ∧
    (chan1 1 0).recs.recs = [] ∧ ((after (.fullRetrainingEnd 1 false {}) (chan1 1 0)).hearth.chans[1]?.map (·.state)) = some 3 ∧
    ({ up with jnl := { up.jnl with control := 0 } } : State).jnlOn = false ∧ (let s : State := { up with jnl := { up.jnl with control := 1 } }
      s.jnlOn = true ∧ s.jnl.head + 48 ≤ journalBytes ∧ (s.hearth.place (journalBase + s.jnl.head)).isSome = true ∧
      (after .journalMarker s).jnl.entries.head?.map (·.type) = some 0) ∧
    (after .snapPostEnd { up with jnl := { up.jnl with post := true, control := 2 } }).jnl.frozen = true := by decide +kernel

/-! ## Witnesses: writing -/

/-- A sealed record of 16 staged bytes, its CU not begun, compressed, or stored. -/
def sealedRec (cus : List CuForm := []) : Rec := { rec5 with state := .sealed, len := 16, extents := [(0, 16)], cus := cus }
def forms (cus : List CuForm := []) : State :=
  let s := withRecs writes [sealedRec cus]
  { s with recs := { s.recs with sealQ := [.record 5] }, sec := { s.sec with pairs := List.range 80 }, heat := { s.heat with map := [] } }

/-- Nothing to write at 6 m/s; writing stopped for it. -/
def starving : State := { writes with blw := { writes.blw with speedCur := 0 }, params := { accepted := [(0x04071B00, 1)] } }
def starved : State := { withRecs loaded [] with blw := { loaded.blw with starveStopped := true } }
def resumes : State :=
  let s := withRecs loaded [{ sealedRec with len := 4294967280 }]
  { s with recs := { s.recs with sealQ := [.record 5] }, blw := { s.blw with starveStopped := true }, params := { accepted := [(0x04071400, 1)] } }

theorem test_wit_FormingCompressesSealsAndPacks :
    writes.firstCu (fun c => c.comp.isNone && c.item.isNone) = none ∧
    ((forms).firstCu (fun c => c.comp.isNone && c.item.isNone)).map (fun y => (y.1.num, y.2)) = some (5, 0) ∧ (forms).forge.writing = true ∧
    23 ∉ (forms).outUnits 3 ∧ (forms).buffersUsed < 32 ∧ (match (forms).hearth.rawCu sealedRec 0 with | .ok b => decide (b = zeros 16) | .error _ => false) = true ∧
    (forms).firstCu (fun c => c.comp.isSome) = none ∧ sealedRec.digestAddr = 0 ∧
    (after (.cuCompress 23 true {}) (forms)).isQuarantined 3 23 = true ∧
    (let s := forms [{ idx := 0, comp := some [1, 2, 3], c := 3, stored := true }]
     (s.firstCu (fun c => c.comp.isSome)).map (fun y => (y.1.num, y.2)) = some (5, 0) ∧ (79 : Fin 80).val ∈ s.sec.pairs ∧
       (after (.cuSeal 79 false) s).comp.stored = 1 ∧ (after (.cuSeal 79 true) s).sec.lockstep = 1) ∧
    (forms).forge.rebuild = false ∧ (forms).forge.formed.length < (forms).paramN 0x04070700 ∧ (forms).windowOpen = true ∧
    ({ forms with anvil := { (forms).anvil with window := 0 } } : State).windowOpen = false ∧ (forms).forge.tc = none ∧ (forms).forge.closing = false ∧
    (forms).forge.ending = false ∧ (forms).heat.drain = false ∧ dropMarks (forms).recs.sealQ = (forms).recs.sealQ ∧ 86 ≤ (forms).positionsFree ∧
    (forms).formable = true ∧ ({ forms with forge := { (forms).forge with formed := List.replicate 500 { train := 0, t := 0, serials := [], parity := false } } } : State).paramN 0x04070700 ≤ 500 ∧
    starving.starved = true ∧ starving.forge.ending = false ∧ starving.paramN 0x04071B00 = 1 ∧ (after .starveStop starving).forge.starveEnd = true ∧
    starved.blw.starveStopped = true ∧ ({ starved with recs := { starved.recs with syncs := [{ pair := 1, tag := 1, arrival := 0, m := none }] } } : State).recs.syncs ≠ [] ∧
    starved.formable = false ∧ resumes.paramN 0x04071400 ≤ resumes.actingFill ∧
    ({ resumes with blw := { resumes.blw with starveStopped := false } } : State).tapeFree = true ∧ resumes.formable = true ∧
    resumes.cart.searchPending = false ∧ resumes.cart.waitStored = none ∧ resumes.needsSession = false := by decide +kernel

/-- Billets pack: a parity heat of an open train, and a data heat of a long record. -/
def parityDue : State := { writes with forge := { writes.forge with tc := some 3, t := 3 }, heat := { writes.heat with map := [] } }

theorem test_wit_FormingCompressesSealsAndPacks_2 :
    parityDue.windowOpen = true ∧ parityDue.forge.tc = some 3 ∧ parityDue.forge.formed.length < parityDue.paramN 0x04070700 ∧
    (let f := forms [{ idx := 0, item := some (zeros 64), c := 16 }]
     let s := { f with recs := { f.recs with sealQ := [.record 5, .closeMark 5] } }
     dropMarks s.recs.sealQ = s.recs.sealQ ∧ s.formable = true ∧
     (packHeat s.packCtx { ending := false, last := false, closing := false } (fmtGroups s.fmt) { pos := s.forge.pos, queue := s.recs.sealQ }
        ((s.forge.lastPacked.map (· + 1)).getD 0)).map (fun x => (x.1.length, x.2)) = some (fmtGroups s.fmt, true)) := by decide +kernel

/-- Frames of channel 5, and a state whose channel 5 is as given. -/
def frame (present sent attempt : Nat) : Frame := { serial := 0, j := 0, l := 5, word := zeros 16, patched := zeros 16, present := present, sent := sent, attempt := attempt }
def anvilAt (c : Chan) : State := { writes with anvil := { writes.anvil with chans := modAt writes.anvil.chans 5 (fun _ => c), free := 100 } }
def verifying (attempt : Nat) (ok : Bool) : State :=
  let s := anvilAt { hold := [frame 16 0 attempt] }
  { s with rd := { s.rd with vresults := [{ chan := 5, ok := ok, iters := 0, flips := 0, erased := 0, syncOk := true, word := zeros 16 }] } }

theorem test_wit_AnvilMovesVerifiesRewrites :
    (anvilAt { enc := [frame 15 0 0] }).anvil.chans[5]? = some { enc := [frame 15 0 0] } ∧ 0 < (anvilAt {}).anvil.free ∧
    ({ enc := [frame 15 0 0] } : Chan).cells < (anvilAt {}).paramN 0x04070300 ∧
    ((after (.anvilPush 5) (anvilAt { enc := [frame 15 0 0] })).anvil.chans[5]?.map (·.enc)) = some [] ∧
    ((after (.anvilPush 5) (anvilAt { enc := [frame 0 0 0] })).anvil.chans[5]?.map (fun c => c.wlist.map (·.present))) = some [1] ∧
    ((after (.anvilPop 5 0 0) (anvilAt { wlist := [frame 3 3 0], inFrame := true })).anvil.chans[5]?.map (fun c => (c.slag, c.wlist.map (·.sent)))) = some (true, [0]) ∧
    ((after (.anvilPop 5 0 0) (anvilAt { wlist := [frame 16 14 0], inFrame := true })).anvil.chans[5]?.map (fun c => c.wlist.map (·.sent))) = some [15] ∧
    ((after (.anvilPop 5 0 0) (anvilAt { wlist := [frame 16 15 1], inFrame := true })).anvil.chans[5]?.map (fun c => c.hold.length)) = some 1 ∧
    (let s := { anvilAt { wlist := [frame 16 0 0], inFrame := true } with anvil := { (anvilAt { wlist := [frame 16 0 0], inFrame := true }).anvil with secded := true } }
     2 ≤ weight 64 (3 : BitVec 64).toNat ∧ (after (.anvilPop 5 0 3) s).forge.reforms.length = 1) ∧
    (anvilAt {}).rd.vresults = [] ∧
    (let s := verifying 0 true
     s.twin.role ≠ 2 ∧ s.armedActive = false ∧ s.anvil.chans.length = 1024 ∧ s.heat.element 5 < 1024 ∧
       (s.rd.vresults.head?.map (fun r => (verdictOf s (frame 16 0 0) r, r.mayBe (frame 16 0 0)))) = some (0, true) ∧
       (after (.verifyVerdict 5 0 0 0) s).anvil.free = 116) ∧
    ((verifying 0 false).rd.vresults.head?.map (fun r => (verdictOf (verifying 0 false) (frame 16 0 2) r, r.mayBe (frame 16 0 2)))) = some (2, true) ∧
    (after (.verifyVerdict 5 0 0 0) (verifying 3 false)).blw.exhaustedFrames = 1 ∧ (after (.verifyVerdict 5 0 0 0) (verifying 2 false)).blw.exhaustedFrames = 0 ∧
    (let s := anvilAt { hold := [frame 16 0 0] }
     s.heat.h < 0 + 1 + s.paramN 0x04070D00 ∧ (after (.verifyTimeout 5) { s with heat := { s.heat with h := 100000 } }).anvil.timeouts = 1) ∧
    (let x := { frame 0 0 2 with cls := 1 }
     let b : Billet := { serial := 0, train := 0, ingot := 0, pos := 0, group := 0, parity := false, cls := 1 }
     let s := { anvilAt {} with forge := { writes.forge with reforms := [x], billets := [b], block := [(0, zeros 103840)] } }
     s.forge.billets.find? (fun q => q.serial = x.serial && q.cls = x.cls) = some b ∧ x.home = none ∧ 16 ≤ s.anvil.free ∧
       (s.reformPayload b).isSome = true ∧ ((billetFrames (zeros 944))[0]?).isSome = true ∧ s.heat.element (frameAt s.fmt b false 0 []).l < 1024 ∧
       (after (.reform [] false) { s with forge := { s.forge with billets := [] } }).forge.reforms = []) := by decide +kernel

/-- A home heat that may begin, with frames left in the Anvil. -/
def homes (f : List FormedHeat) (lpos : Int) (quench : Bool := false) : State :=
  { writes with forge := { writes.forge with formed := f }, anvil := { writes.anvil with free := 100 }, servo := { writes.servo with lpos := lpos }
                heat := { writes.heat with quench := quench, h := 7, map := [] } }

theorem test_wit_HeatsWrapsAndQuench :
    let x : FormedHeat := { train := 0, t := 0, serials := [], parity := false }
    let s := homes [x] 0
    s.forge.writing = true ∧ s.motion.state = 4 ∧ s.twin.swap = none ∧ s.params.inForce = [] ∧ s.poolEmpty = false ∧ s.overdue = [] ∧ s.heat.drain = false ∧
    s.forge.ending = false ∧ 0 < positionsLeft s.fmt s.heat.wrap s.servo.lpos ∧ positionsLeft s.fmt s.heat.wrap (1048000 * 256000) = 0 ∧
    s.gateHeld = false ∧ (homes [x] 0 true).gateHeld = true ∧ s.heat.splice = false ∧ s.rewriteDue (positionsLeft s.fmt s.heat.wrap s.servo.lpos) = false ∧
    s.heatReady x = true ∧ s.forge.rebuild = false ∧ s.heat.retireDue = [] ∧ s.heat.first = false ∧ loaded.forge.writing = false ∧
    (after .heatBoundary (homes [x] (1048000 * 256000))).heat.wrapEnd = true ∧ (after .heatBoundary (homes [x] 0 true)).heat.h = 8 ∧
    (after .heatBoundary { s with twin := { s.twin with swap := some 15 } }).twin.role = 2 ∧
    (let w := { s with heat := { s.heat with drain := true } }
     w.heat.wrap + 1 < fmtWraps w.fmt ∧ w.forge.eodAt = none) ∧ fmtWraps s.fmt ≤ 39 + 1 ∧
    (let q := homes [] 0 true
     q.servo.worst ≤ q.nmLimit 0x06050200 ∧ q.servo.fastWorst ≤ q.nmLimit 0x06050200 ∧ q.servoUnsure = false ∧ (after .quenchRelease q).heat.quench = false) := by
  decide +kernel

/-- A reader whose last samples are good; tilt in the middle of its range. -/
def steers : State :=
  { writes with servo := { writes.servo with tiltCmd := 26180, tiltDiv := 100000, readers := { samples := List.replicate 500 (some 1000) } :: List.replicate 9 {} } }

/-- A servo flit of zeros with its CRC. -/
def flitBody : Bytes := zeros 332
def flit : Bytes := flitBody ++ beBytes 4 (crcLink flitBody).toNat

theorem beNat_beBytes4 (v : BitVec 32) : beNat (beBytes 4 v.toNat) = v.toNat := by
  have h := v.isLt
  simp only [beBytes, leBytes, beNat, byte]
  simp
  omega

theorem test_flit_good : flitOk 336 flit = true ∧ flitOk 336 [] = false := by
  have hb : flitBody.length = 332 := by simp only [flitBody, zeros, List.length_replicate]
  have hc : (beBytes 4 (crcLink flitBody).toNat).length = 4 := by simp only [beBytes, leBytes, List.length_reverse, List.length_cons, List.length_nil]
  have hl : flit.length = 336 := by rw [flit, List.length_append, hb, hc]
  have ht : flit.take 332 = flitBody := by rw [flit, ← hb, List.take_left]
  have hd : flit.drop 332 = beBytes 4 (crcLink flitBody).toNat := by rw [flit, ← hb, List.drop_left]
  have hs : slice flit 332 4 = beBytes 4 (crcLink flitBody).toNat := by
    simp only [slice, hd, List.take_of_length_le (Nat.le_of_eq hc), hc, Nat.sub_self, zeros, List.replicate_zero, List.append_nil]
  refine ⟨?_, by decide +kernel⟩
  simp only [flitOk, hl, Nat.reduceSub, ht, getBe, hs, beNat_beBytes4, decide_true, Bool.and_self]

theorem test_wit_ServoEstimatesAndLoops :
    up.bench.on = false ∧ up.rd.reading = false ∧ writes.rd.reading = false ∧ writes.forge.writing = true ∧ writes.heat.quench = false ∧
    (after .servoEstimate writes).servo.mode = 2 ∧ ({ up with bench := { on := true } } : State).bench.on = true ∧
    up.errorsOf 500 ((List.range 10).filter (fun i => up.servo.valid.getLsbD i)) = [] ∧
    up.servo.mode ≠ 0 ∧ steers.servo.mode = 0 ∧ steers.paramN 0x06050C00 ≤ steers.servo.tiltDiv ∧ (after .tiltUpdate steers).servo.tiltDiv = 0 ∧
    steers.nearEnd = false ∧ up.nearEnd = true ∧ (after .tensionHint up).servo.hint = true ∧
    (after .tensionHint { steers with servo := { steers.servo with hint := true } }).servo.hint = false ∧
    up.tongs.ports[16]? = some port0 ∧ port0.up = true ∧ ({ port0 with state := 1 } : Port).up = false ∧
    ((after (.servoFlit 1 [] []) up).tongs.ports[17]?.map (·.flitsLost)) = some 1 := by decide +kernel

/-- Port 3 as given. -/
def portIs (p : Port) (s : State := up) : State := { s with tongs := { s.tongs with ports := modAt s.tongs.ports 3 (fun _ => p) } }
def asked : Port := { port0 with mgmt := some ({ op := 1, tag := 0x12, addr := 0, data := 0 }, 64) }
def swapping : Port := { port0 with swap := some { logical := 8, transmit := false, start := 0 } }

def spent : Port := { port0 with rxSpare := none, txSpare := none }

theorem test_wit_LinkPortsCarrySwapAndRetrain :
    let good := ((0x12 * 2 ^ 40 + 7) * 65536 + 61235 : Nat)
    (portIs port0).tongs.ports[3]? = some port0 ∧ statusWordOk (BitVec.ofNat 64 (5 * 65536 + 24245)) = true ∧ statusWordOk 1 = false ∧
    statusWordOk (BitVec.ofNat 64 good) = true ∧ bitsOf good 56 8 = 0x12 ∧ up.lanesOn = false ∧
    ((after (.sampleFlit 3 [] false) up).tongs.ports[3]?.map (·.flitsLost)) = some 1 ∧
    ((after (.laneStatusWord 3 0 (BitVec.ofNat 64 good)) up).tongs.ports[3]?.map (·.feStatus)) = some (BitVec.ofNat 48 (0x12 * 2 ^ 40 + 7)) ∧
    ((after (.managementResponse 3 (BitVec.ofNat 64 good)) (portIs asked)).tongs.ports[3]?.map (·.mgmt)) = some none ∧
    ((after (.managementTimeout 3) (portIs asked)).tongs.ports[3]?.map (fun p => p.mgmt.map Prod.snd)) = some (some 0) ∧
    up.pins.refs = true ∧ up.pwr.state.toNat < 2 ∧ (up.tongs.ports[3]?.map (·.fNext)) = some none ∧
    port0.map.findIdx? (· = 4) = some 4 ∧ (port0.spareOf 4).isSome = true ∧ (port0.spareOf 10).isSome = true ∧ (spent.spareOf 4).isNone = true ∧
    ((after (.laneAlignmentLoss 3 4) (portIs port0)).tongs.ports[3]?.map (fun p => (p.state, p.swap.isSome))) = some (2, true) ∧
    ((after (.laneAlignmentLoss 3 4) (portIs spent)).tongs.ports[3]?.map (·.state)) = some 1 ∧ port0.map.findIdx? (· = 9) = none ∧ 9 ∈ port0.aligned ∧
    ((after (.laneAlignmentLoss 3 9) (portIs port0)).tongs.ports[3]?.map (·.rxSpare)) = some none ∧
    up.paramN 0x0E0F0100 = 1 ∧ up.paramN 0x0E0F0200 ≤ (0xFFFF : BitVec 16).toNat ∧ ¬ up.paramN 0x0E0F0200 ≤ (0 : BitVec 16).toNat := by decide +kernel

theorem test_wit_LinkPortsCarrySwapAndRetrain_2 :
    ((after (.laneSwap 3 10 0xFFFF) up).tongs.ports[3]?.map (fun p => p.swap.map (·.transmit))) = some (some true) ∧
    ((after (.laneSwap 3 10 0xFFFF) (portIs spent)).tongs.ports[3]?.map (·.state)) = some 1 ∧
    ((after (.laneSwap 3 10 7) (portIs swapping)).tongs.ports[3]?.map (·.bip)) = some ((List.replicate 13 0).set 11 7) ∧
    ((after (.laneSwapComplete 3 false) (portIs swapping)).tongs.ports[3]?.map (fun p => p.map[8]?)) = some (some 9) ∧
    ((after (.laneSwapComplete 3 true) (portIs swapping)).tongs.ports[3]?.map (·.state)) = some 1 ∧
    ((after (.laneSwapComplete 3 false) (portIs { swapping with rxSpare := none })).tongs.ports[3]?.map (·.swap)) = some none ∧
    ((after (.portDown 3) writes).tongs.ports[3]?.map (·.state)) = some 1 ∧
    ((after (.portTrainingComplete 3 (List.finRange 13) [] []) (portIs { port0 with state := 1 })).tongs.ports[3]?.map (fun p => (p.state, p.map))) =
      some (2, [0, 1, 2, 3, 4, 5, 6, 7, 8, 10, 11]) ∧
    ((after (.portTrainingComplete 3 [0] [] []) (portIs { port0 with state := 1, failedRetrains := 1 })).tongs.ports[3]?.map (·.failedRetrains)) = some 2 ∧
    ((after (.portTrainingComplete 3 [0] [] []) (portIs { port0 with state := 1, failedRetrains := 2 })).tongs.ports[3]?.map (·.state)) = some 4 ∧
    (let s := portIs { port0 with state := 1 } writes
     s.rd.jobs = [] ∧ s.recs.cmds = [] ∧ s.cart.searchMb = [] ∧ s.unloadMb = none ∧ (after (.retrainMaxExpiry 3) s).forge.writing = false) := by decide +kernel

/-! ## Witnesses: reading -/

/-- A record of one raw byte in one data billet: descriptor, CU in the stored encoding, trailer. -/
def cu1 : Bytes := [1, 1, 0, 254, 255, 7] ++ zeros 10
def tag1 : Bytes := beBytes 4 (crc32c cu1).toNat ++ zeros 12
def desc1 : Bytes := [0x52, 0, 0, 0] ++ beBytes 5 5 ++ zeros 3 ++ beBytes 4 1 ++ beBytes 2 1 ++ zeros 14
def trailer1 : Bytes := [0x54, 0] ++ beBytes 2 1 ++ beBytes 5 5 ++ zeros 3 ++ beBytes 4 1 ++ beBytes 4 (crc32c tag1).toNat ++ zeros 12
def billet1 (body : Bytes) : RBillet :=
  { serial := 0, home := 0, wrap := 0, state := .complete, final := true, data := zeros 20 ++ beBytes 4 body.length ++ zeros 8 ++ body }
def record1 : Bytes := desc1 ++ cuHeader true 0 16 1 6 ++ cu1 ++ tag1 ++ trailer1

/-- A RECORD READ of it under way, its descriptor found, then parsed. -/
def job1 (parsed : Bool) (delivered : Nat) : ReadJob :=
  { pair := 1, tag := 5, num := 5, first := 0, count := 1, cut := false, addr := 0x8000, len := 4096, report := 0x40, desc := some (0, 32), parsed := parsed
    cuCount := 1, rawLen := 1, nextCu := delivered, delivered := delivered }
def delivers (j : ReadJob) (body : Bytes) : State :=
  { withCmds reads [readRec] with rd := { reads.rd with jobs := [j], billets := [billet1 body] } }

/-- The next item is missing: its billet has not come, or the ladder has failed it. -/
def lacking (l : List RBillet) : State :=
  { withCmds reads [readRec] with rd := { reads.rd with jobs := [job1 true 0], billets := billet1 desc1 :: l } }
def bad1 : RBillet := { serial := 1, home := 1, wrap := 0, state := .unrecovered, final := true }
def rereads (k last : Nat) : State :=
  { lacking [bad1] with rd := { (lacking [bad1]).rd with reread := some { serial := 1, wrap := 0, k := k, first := 0, last := last, resume := 9 }, heatNow := 512 } }

theorem test_wit_DeliveryClauses :
    (let s := delivers (job1 false 0) record1
     s.pairError 1 = false ∧ s.rd.jobs = [job1 false 0] ∧ (match itemAt s.rd.billets (0, 32) with | .ok d => d.head == desc1 | _ => false) = true ∧
       (job1 false 0).reports = true ∧ bitAt (getBe desc1 1 1) 0 = false ∧ 0 < getBe desc1 16 2 ∧ 0 + 1 ≤ getBe desc1 16 2 ∧
       cuSpan (getBe desc1 12 4) 0 1 ≤ 4096 ∧ (after (.cuDelivery {}) s).rd.jobs.map (·.parsed) = [true]) ∧
    (let s := delivers (job1 true 0) record1
     (match itemAt s.rd.billets (0, 32) with
       | .ok d => (match s.nextCu (s.rd.recordOf d) (some 0) with
         | .here i => (s.openCu (job1 true 0) d i).tagOk && (s.openCu (job1 true 0) d i).streamOk && ((s.openCu (job1 true 0) d i).raw == [7])
         | _ => false) && (s.rd.recordOf d).matches s.rd.billets d
       | _ => false) = true ∧ outOf s (after (.cuDelivery {}) s) = [.dma 0x8000 [7]]) ∧
    (let s := delivers (job1 true 1) record1
     s.cmd? 1 5 = some readRec ∧ readRec.pair = 1 ∧ readRec.tag = 5 ∧ s.pair? 1 = some pair0 ∧ s.rd.raStopped = false ∧ s.cart.searchMb = [] ∧ s.formable = false ∧
       s.unloadMb = none ∧ (after (.cuDelivery {}) s).recs.cmds = []) ∧
    (let s := lacking []
     (match itemAt s.rd.billets (0, 32) with
       | .ok d => (match s.nextCu (s.rd.recordOf d) (some 0) with | .wait => true | _ => false)
       | _ => false) = true) ∧
    (let s := lacking [{ bad1 with lost := true }]
     (match itemAt s.rd.billets (0, 32) with
       | .ok d => (match s.nextCu (s.rd.recordOf d) (some 0) with | .lost => true | _ => false)
       | _ => false) = true ∧ (after (.cuDelivery {}) s).recs.cmds = []) ∧
    (let s := { lacking [] with rd := { (lacking []).rd with heatNow := 1000000 } }
     s.dataOver = true ∧ (match itemAt s.rd.billets (0, 32) with
       | .ok d => (match s.nextCu (s.rd.recordOf d) (some 0) with | .absent => true | _ => false)
       | _ => false) = true) := by decide +kernel

/-- A lane with bits, hunting or in step. -/
def laneIs (l : Lane) : State := { reads with rd := { reads.rd with lanes := modAt reads.rd.lanes 5 (fun _ => l) } }
def blankBits (n : Nat) : List ChanBit := List.replicate n { b := false, soft := 0, flag := false }
def markBits (w : List Bool) : List ChanBit := w.map (fun b => { b := b, soft := 0, flag := false })
def erased (n : Nat) (verify : Bool) : C1Job := { lane := 5, lam := List.replicate n 0, verify := verify, syncOk := true, heat := 0 }
def captured (tries : List Int) (begun : Bool) : State :=
  { reads with rd := { reads.rd with captures := [{ lane := 5, wrap := 0, heat := 0, lpos := 0, reason := 0, soft := [], tries := tries, begun := begun }] } }

theorem test_wit_ReadPathAcquiresDecodesDelivers :
    (laneIs { track := true, bits := blankBits 8632, toMark := 108 }).lanesOn = true ∧ (blankBits 8632).length = 108 + 8524 ∧
    firstMark (reads.laneParam {} 0x05070800).toNat (blankBits 8632) ((List.range 49).map (fun i => 84 + i)) = none ∧
    (firstMark (reads.laneParam {} 0x05070800).toNat (blankBits 84 ++ markBits syncData ++ blankBits 100) ((List.range 49).map (fun i => 84 + i))).map (fun m => (m.pos, m.data)) = some (84, true) ∧
    (firstMark (reads.laneParam {} 0x05070800).toNat (blankBits 132 ++ markBits syncSlag ++ blankBits 100) ((List.range 49).map (fun i => 84 + i))).map (fun m => (m.pos, m.data)) = some (132, false) ∧
    ((List.range 64).find? (preambleAt (markBits ((List.range 64).map (fun i => i % 2 = 0))))) = some 0 ∧ loaded.lanesOn = false ∧
    (let s := { reads with rd := { reads.rd with c1q := [erased 0 true] } }
     s.rd.c1q = [erased 0 true] ∧ (erased 0 true).verify = true) ∧
    (let s := { reads with rd := { reads.rd with c1q := [erased 3000 false] } }
     (s.decodeWord (s.readLimit s.backlogged) (erased 3000 false).lam).ok = false ∧
       ((after .c1DecodeDone s).rd.stats[5]?.map (·.c1Fail)) = some 1) ∧
    (captured [0, 1] true).backlogged = false ∧ ((captured [0, 1] true).rd.captures.find? (fun x => x.lane = 5 && x.begun && x.tries ≠ [])).isSome = true ∧
    (after (.captureExpiry 5) (captured [] false)).rd.captures = [] ∧ reads.rd.reading = true ∧ reads.rd.locate = none ∧
    (let b : RBillet := { serial := 8, home := 0, wrap := 0 }
     let s := { reads with rd := { reads.rd with billets := [b] } }
     b.home + 511 ≤ (511 : BitVec 24).toNat ∧ (after (.billetFinal 511) s).rd.billets.map (·.final) = [true]) ∧
    reads.nextC3 = none ∧
    (let s := laneIs { meas := { frames := 1 }, seg := 3 }
     s.leftSegment 5 = true ∧ s.attempt = 0 ∧ s.verifying = false ∧ reads.leftSegment 5 = false) ∧
    reads.rd.jobs = [] ∧ reads.cart.searching = false ∧ reads.cart.eodChecking = false ∧ reads.recs.cmds = [] ∧ reads.formable = false ∧ reads.unloadMb = none ∧
    (after .raIdleExpiry reads).rd.reading = false ∧ reads.blocked = none ∧
    (lacking [bad1]).rd.reread = none ∧ (lacking [bad1]).nextC3 = none ∧ (lacking [bad1]).blocked = some bad1 ∧
    ({ lacking [bad1] with params := { accepted := [(0x07080200, 0)] } } : State).paramN 0x07080200 = 0 ∧ (lacking [bad1]).paramN 0x07080200 ≠ 0 ∧
    (after .rereadStart (lacking [bad1])).rd.reread.map (·.k) = some 1 ∧
    (let s := rereads 1 512
     s.rd.reread.map (fun r => (s.passDone r, r.k)) = some (true, 1) ∧ (rereads 1 513).rd.reread.map (rereads 1 513).passDone = some false ∧
       s.rd.billets.find? (fun (b : RBillet) => b.cls = 0 && b.serial = 1 && b.wrap = 0) = some bad1 ∧
       (trainBillets s.fmt s.rd.billets bad1).filter (fun (x : RBillet) => !x.parity && x.state ≠ .complete) = [bad1] ∧ 1 < s.paramN 0x07080200) ∧
    (after .rereadPassEnd (rereads 1 512)).rd.reread.map (·.k) = some 2 ∧ (after .rereadPassEnd (rereads 63 512)).rd.reread = none := by decide +kernel

/-- A train of which only a parity billet has been read: its C3 may start. -/
def parityRead : State :=
  { reads with rd := { reads.rd with billets := [{ serial := 1920, home := 250, wrap := 0, parity := true, state := .complete, final := true }], heatNow := 2000, lastFrame := 2000 } }

theorem test_wit_C3MayStart : (parityRead.nextC3).isSome = true ∧ parityRead.rd.locate = none := by decide +kernel

/-! ### Copies that decode -/

/-- A GK2 frame without errors: its header, the 16 symbols in each interleave that give it every syndrome zero (R102), zeros, and so
extension symbols 0. -/
def clean2Head : Bytes := [0x21] ++ zeros 13 ++ [0x4F, 0xC4] ++
  [0x60, 0, 0x02, 0x46, 0x02, 0, 0x2C, 0x9D, 0x97, 0, 0x7D, 0x9C, 0xD3, 0, 0xE9, 0x4A, 0x03, 0, 0x0B, 0x60, 0x9B, 0, 0xB5, 0xE1, 0x49, 0, 0x79, 0x10, 0x07, 0, 0x42, 0x6E,
   0x2F, 0, 0x90, 0x5A, 0x43, 0, 0x65, 0x93, 0x92, 0, 0x18, 0x0F, 0x1B, 0, 0x05, 0xAF, 0x76, 0, 0xA1, 0x67, 0xFD, 0, 0x0F, 0xEC, 0x08, 0, 0x34, 0x92, 0xB7, 0, 0x02, 0x46]
def clean2 : Bytes := clean2Head ++ zeros 944
def clean2Lambda : List Int := softOf (bytesBits clean2)

/-- A GK2 word without errors decodes to itself. -/
theorem test_gk2_word_without_errors : gk2Decode 6 clean2Lambda = { ok := true, iters := 0, flips := 0, erased := 0, word := clean2 } :=
  gk2Decode_written 6 clean2Head (by decide) (by decide +kernel)

/-- Reading GK2 with that frame waiting for C1, and captured one bit late. -/
def reads2 (q : List C1Job) (c : List Capture) : State :=
  { reads with cart := { reads.cart with image := { reads.cart.image with format := 2 } }, rd := { reads.rd with c1q := q, captures := c } }
def clean2Job : C1Job := { lane := 0, lam := clean2Lambda, verify := false, syncOk := true, heat := 0 }
def clean2Capture : Capture :=
  { lane := 0, wrap := 0, heat := 0, lpos := 0, reason := 0, tries := [1], begun := true,
    soft := [1, 1, 1, 1] ++ softOf (modulate (scramble 0 0 (bytesBits clean2))) ++ [1, 1] }

/-- The decode of a GK2 frame under the default limit. -/
theorem gk2_decodeWord (s : State) (k : Nat) (l : List Int) (a : s.fmt = 2) (b : s.paramN 0x03040800 = 6) : s.decodeWord k l = gk2Decode 6 l := by
  simp only [State.decodeWord, a, b, if_true]

theorem clean2_good (s : State) (k : Nat) (a : s.fmt = 2) (b : s.paramN 0x03040800 = 6) :
    ((s.decodeWord k clean2Lambda).ok && headerOk s.fmt (s.decodeWord k clean2Lambda).word) = true := by
  rw [gk2_decodeWord s k _ a b, test_gk2_word_without_errors, a]
  decide +kernel

theorem test_wit_GoodCopyDecodes :
    let s := reads2 [clean2Job] []
    let u := (s.applyParams .frame).applyParams .gk2Frame
    let r := u.decodeWord (u.readLimit u.backlogged) clean2Job.lam
    s.rd.c1q = [clean2Job] ∧ clean2Job.verify = false ∧ s.rd.locate = none ∧ s.rd.billets = [] ∧ (r.ok && headerOk s.fmt r.word) = true :=
  ⟨rfl, rfl, rfl, rfl, clean2_good _ _ (by decide +kernel) (by decide +kernel)⟩

/-- The capture read one bit late gives the frame's soft values. -/
theorem clean2_shifted : lambdaOf 0 0 (shifted clean2Capture 1) = clean2Lambda :=
  lambdaOf_shifted clean2Capture 1 0 0 clean2 [1, 1, 1, 1] [1, 1]
    (by rw [clean2, List.length_append, zeros_length]; decide) rfl rfl

theorem captured_found (c : Capture) (a : c.lane = 0) (b : c.begun = true) (d : c.tries = [1]) :
    (reads2 [] [c]).rd.captures.find? (fun (x : Capture) => x.lane = 0 && x.begun && x.tries ≠ []) = some c := by
  simp [reads2, a, b, d]

theorem second_good (s : State) (k : Nat) (a : s.fmt = 2) (b : s.paramN 0x03040800 = 6) :
    ((s.decodeWord k (lambdaOf 0 0 (shifted clean2Capture 1))).ok &&
      headerOk s.fmt (s.decodeWord k (lambdaOf 0 0 (shifted clean2Capture 1))).word) = true := by
  rw [clean2_shifted]
  exact clean2_good s k a b

theorem test_wit_SecondLookFinds :
    (reads2 [] [clean2Capture]).rd.captures.find? (fun (x : Capture) => x.lane = 0 && x.begun && x.tries ≠ []) = some clean2Capture ∧
      clean2Capture.tries = [1] ∧ (reads2 [] [clean2Capture]).backlogged = false ∧ (reads2 [] [clean2Capture]).rd.locate = none ∧
      (((reads2 [] [clean2Capture]).decodeWord ((reads2 [] [clean2Capture]).readLimit false) (lambdaOf 0 0 (shifted clean2Capture 1))).ok &&
        headerOk (reads2 [] [clean2Capture]).fmt
          ((reads2 [] [clean2Capture]).decodeWord ((reads2 [] [clean2Capture]).readLimit false) (lambdaOf 0 0 (shifted clean2Capture 1))).word) = true :=
  ⟨captured_found _ rfl rfl rfl, rfl, by decide +kernel, rfl, second_good _ _ (by decide +kernel) (by decide +kernel)⟩

/-! ## Witnesses: motion and the twin -/

/-- The motion pair with a report to fetch; a motion request owed. -/
def reporting : State := { up with pairs := some { pair0 with rev := 1, motion := true, sqTail := 1 } :: some pair0 :: List.replicate 254 none }
def report (state : Nat) : Bytes := [0, 0, byte state] ++ zeros 29
def owing : State := { loaded with motion := { loaded.motion with owed := [7] } }

/-- Twins: a standby armed, with writing known; the same claiming; an active whose M2 is up. -/
def standby (peer : Nat) (writes claiming handed : Bool) : State :=
  { loaded with twin := { loaded.twin with role := 2, peer := peer, paired := true, die := 1, m2Up := true, peerWrites := writes, claiming := claiming, handed := handed } }
def activeTwin (peer : Nat) : State := { loaded with twin := { loaded.twin with role := 1, peer := peer, paired := true, m2Up := true } }
def heldFrame (own : Option Nat) : State :=
  { armed with anvil := { armed.anvil with chans := modAt armed.anvil.chans 5 (fun _ => { hold := [{ frame 16 0 0 with own := own }] }) } }

theorem test_wit_MotionReportsAndTwinRoles :
    up.motionPair = some 0 ∧ State.reset.motionPair = none ∧ (reporting.pair? 0).map (fun p => (p.sqFetch, p.sqTail, p.error)) = some (0, 1, false) ∧
    2 * (reporting.motion.consumed + 1) < 2 ^ 4 ∧ reportOk (fit 32 (report 8)) = false ∧ reportOk (fit 32 (report 7)) = true ∧ reportOk (fit 32 (report 6)) = true ∧
    (after (.motionReport (report 8)) reporting).glob.doorbellErrors = 1 ∧ (after (.motionReport (report 4)) reporting).motion.state = 4 ∧
    (after (.motionReport (report 6)) reporting).motion.fault = true ∧ reporting.cart.searchMb = [] ∧ reporting.formable = false ∧ reporting.unloadMb = none ∧
    reporting.rd.locate = none ∧ reporting.recs.cmds = [] ∧ reporting.rd.jobs = [] ∧
    (let s := { reporting with motion := { reporting.motion with runLevel := some (0, 2) } }
     (after (.motionReport (report 4)) s).motion.runLevel = none ∧ (after (.motionReport (report 4)) s).blw.speedCur = 2) := by decide +kernel

theorem test_wit_MotionFaultAndTwin :
    owing.motion.owed ≠ [] ∧ up.motion.owed = [] ∧ up.motion.moving = false ∧ writes.motion.moving = true ∧ writes.motion.fault = false ∧
    (after .motionFault owing).motion.fault = true ∧
    (let s := { delivers (job1 true 0) record1 with motion := owing.motion }
     s.rd.jobs = [job1 true 0] ∧ s.recs.cmds = [readRec] ∧ s.pair? 1 = some pair0 ∧ 1 ∉ s.env.cqFail ∧ (after .motionFault s).recs.cmds = []) ∧
    (activeTwin 1).pwr.state ≠ 3 ∧ (after .heartbeat (activeTwin 1)).twin.beats = 1 ∧
    (let s : State := { up with twin := { up.twin with paired := true } }
     s.glob.ready = true ∧ s.twin.m2Up = false ∧ (after (.m2TrainingComplete 16 false 5) s).twin.role = 1 ∧ (after (.m2TrainingComplete 16 true 5) s).twin.role = 2) ∧
    (after (.twinArmed true) (activeTwin 1)).twin.peer = 2 ∧ (after (.mirrorItem (.stored 4)) (standby 2 false false false)).cart.lastStored = some 4 ∧
    (after (.mirrorItem .ended) (standby 1 true false false)).twin.peerWrites = false ∧
    ((after (.mirrorItem (.opened 9 1 0 false false 0 3)) (standby 1 true false false)).rec? 9).map (·.openTime) = some 3 ∧
    armed.armedActive = true ∧ ((heldFrame none).chan 5).hold.length = 1 ∧
    ((heldFrame none).anvil.chans.length = 1024) ∧ (∀ k < 5, ((heldFrame (some 1)).chan k).hold = []) ∧
    ((heldFrame (some 1)).chan 5).hold.map (fun x => (x.serial, x.j, x.standby, x.own)) = [(0, 0, none, some 1)] := by decide +kernel

theorem test_wit_MotionReportsAndTwinRoles_2 :
    (let s := { standby 3 false false false with twin := { (standby 3 false false false).twin with m2Up := false } }
     s.glob.ready = true ∧ s.twin.die = 1 ∧ (after .peerSilentAtBoot s).twin.role = 1) ∧
    (after .m2Silence (standby 2 true false false)).heat.quench = true ∧ (after .peerFault (standby 1 true false false)).twin.peer = 0 ∧
    (activeTwin 2).twin.swap = none ∧ (activeTwin 2).anvil.chans.all (fun c => c.hold.all (fun x => x.own = none)) = true ∧
    (after .handover (standby 2 false false false)).twin.claiming = true ∧ (after .claimRefusedTimeout (standby 2 false true false)).twin.claiming = false ∧
    (after .twinTakeover (standby 2 false true true)).twin.takeovers = 1 ∧
    (let s := { activeTwin 0 with twin := { (activeTwin 0).twin with replayDue := true, doubt := [.completion 1 9 Status.success 3 0] } }
     (after .replayedCompletions s).twin.doubt = [] ∧ s.pair? 1 = some pair0 ∧ pair0.error = false ∧ 1 ∉ s.env.cqFail) := by decide +kernel

/-! ## Worked examples of the spec, and test vectors of the standards it names -/

/-- 09, worked example: IV and AAD of CU 1 of record 5,000. -/
theorem test_iv : beNat (cuIv 3 5000 1) = 0x000000030000001388000001 := by decide +kernel
theorem test_cu_header : beNat (cuHeader false 1 200016 262144 200007) = 0x4300000100030D500004000000030D47 := by decide +kernel

/-- 02, worked example: frame 87 of group 3 travels on logical channel 427, physical channel 433. -/
theorem test_channel : chanOf 4 3 87 = 427 ∧ initialChan 4 427 = 433 ∧ groupOf 4 427 = 3 := by decide +kernel

/-- 13, the example of R369: address 1,000,000,000 lies in channel E. -/
theorem test_place : up.hearth.place 1000000000 = some (4, 125000192) ∧
    (let d := ({ up.hearth with density := 8, nranks := 2 } : Hearth).dram 125000192
     (d.sub, d.rank, d.row, d.group, d.bank, d.column) = (0, 0, 238, 3, 1, 832)) := by decide +kernel

/-- 14, Table 14-7, superframes 0 and 1. -/
theorem test_write_clock :
    ((after (.transmitSuperframe 3) (portIs { port0 with f := 187904819 })).tongs.ports[3]?.map (·.acc)) = some 13421772 ∧
    ((after (.transmitSuperframe 3) (portIs { port0 with f := 187904819, acc := 13421772 })).tongs.ports[3]?.map (·.acc)) = some 10066328 := by decide +kernel

/-- Check values of CRC-32C (RFC 3720) and of the CRC-16 of Table 02-6 over "123456789"; FIPS 197, C.3. -/
theorem test_crc : crc32c (ascii "123456789") = 0xE3069283 ∧ crc16 (ascii "123456789") = 0x29B1 := by decide +kernel
theorem test_aes : beNat (aesEncrypt (aesRoundKeys wrapKey) ((List.range 16).map (fun i => byte (17 * i)))) = 0x8ea2b7ca516745bfeafc49904b496089 := by decide +kernel

/-- The table of the S-box gives inverse and affine transform: S(x) undone by the second table, and S(0), S(1), S(0x53) of FIPS 197. -/
theorem test_sbox : (List.range 256).all (fun a => aesUnsub (aesSub a) = a) = true ∧ aesSub 0 = 0x63 ∧ aesSub 1 = 0x7C ∧ aesSub 0x53 = 0xED := by decide +kernel

/-! ## Ill-formed commands -/

/-- Each check of well-formedness refuses a term: lengths, sizes, ranges, repeats. -/
theorem test_ill_formed :
    let long := ask 0 (zeros 4081)
    ([.boot { good with ports := [] }, .boot { good with chans := [] }, .boot { good with rate := 8 }, .boot { good with serial := [] },
      .boot { good with pairing := some ([], zeros 16) }, .boot { good with pairing := some (zeros 16, []) }, .pvtSample (List.replicate 15 0), .registerWrite 0 3 0 {} [],
      .fetchGrant (.entry (zeros 33) [] true), .secSelftestEnd true [1, 1] {}, .selftestDone [(0, 0)], .selftestDone [(0x1C, 0)],
      .singletonTestSlice 0x0F true, .singletonTestSlice 0x1C true, .bistIntervalTick [0], .bistIntervalTick [10], .hearthAccess 0 0 0 [] [] 0 0,
      .hearthAccess 14 0 0 [] [] 0 0, .reform [1, 1] false, .servoFlit 0 [] (zeros 336), .servoFlit 0 (zeros 336) [], .sampleFlit 0 (zeros 395) true,
      .portTrainingComplete 0 [1, 1] [] [], .portTrainingComplete 0 [] [1, 1] [], .motionReport (zeros 31), .mirrorItem (.entry 0 0 (zeros 32)),
      .mirrorItem (.image []), .mirrorItem (.qpCreate []), .m2TrainingComplete 8 true 0, .dailySingletonTest [0, 0]] : List Instr).all (fun c => !c.wf) = true ∧
    ([.stateSummary long, .paramGet long, .paramSet long, .qpCreate long, .qpDelete long, .cartLoad long, .cartUnload long, .ledgerGet long,
      .ledgerStored long, .eodSearch long, .readChannelStats long, .servoStatus long, .compressStats long, .scrub long, .scaleLogRead long,
      .hearthChannelStatus long, .secGetIdentity long, .secChallenge long, .secLogin long, .secLogout long, .secKeyAgree long, .secCommission long,
      .secSetAuth long, .secKekLoad long, .secKekErase long, .secKeyLoad long, .secKeyErase long, .secSlotInfo long, .secSetMode long, .secZeroize long,
      .secSelftest long, .fwInfo long, .fwDownload long, .fwCommit long, .fwActivate long, .powerSet long, .selftestStart long, .selftestAbort long,
      .selftestResult long, .calExport long, .calWrite long, .laneStatus long, .unitControl long, .twinPair long, .twinSwap long, .twinStatus long,
      .benchControl long, .snapshotRead long] : List Instr).all (fun c => !c.wf) = true := by decide +kernel

/-- Well-formed ones pass. -/
theorem test_well_formed :
    ([.boot good, .pvtSample (List.replicate 16 0), .registerWrite 0 8 0 {} [], .fetchGrant (.entry (zeros 128) [] true), .paramGet (ask 0 (zeros 4080)),
      .hearthAccess 13 0 0 [] [] 0 0, .motionReport (zeros 32), .heartbeat] : List Instr).all Instr.wf = true := by decide +kernel

/-! ## Nothing to decode -/

/-- The table gives no row any bits. -/
theorem test_decode (n w : Nat) : decodeTableWord n w = none := rfl

/-! ## Lane words (R402, R405, Table 14-3), by hand from the rules -/

theorem test_marker_word : markerWord 0x1234 10 0x5A = 0xA5C396F00F34A05A := by decide

/-- With superframe and lane 0 the state is 0b1111: the ones reach bit 17 after 14 shifts and bit 22 after 19. -/
theorem test_link_scrambler : ((scrambleWords (linkSeed 0 0) [0]).map (fun w => w.toNat / 2 ^ 40)) = [0x0003DE] := by decide +kernel

end Sys2Proof.Tests
end

section
/-! SUPPORT. Register writes (R14, R279): what a write of a register's own size leads to, what a plain register keeps of its value, and
which part of the state it changes. -/

namespace Sys2Proof.Machine

/-! ## Masks -/

/-- A conjunction taken apart at bit `i`. -/
theorem and_eq_high_add_low (n m i : Nat) : n &&& m = (n / 2 ^ i &&& m / 2 ^ i) * 2 ^ i + (n % 2 ^ i &&& m % 2 ^ i) := by
  rw [← Nat.and_div_two_pow, ← Nat.and_mod_two_pow, Nat.div_add_mod']

/-- A mask that lies below bit `i` takes nothing of the bits from `i` on. -/
theorem mod_two_pow_and {m i : Nat} (h : m < 2 ^ i) (n : Nat) : n % 2 ^ i &&& m = n &&& m := by
  have lt : n &&& m < 2 ^ i := Nat.lt_of_le_of_lt Nat.and_le_right h
  calc n % 2 ^ i &&& m = n % 2 ^ i &&& m % 2 ^ i := by rw [Nat.mod_eq_of_lt h]
    _ = (n &&& m) % 2 ^ i := Nat.and_mod_two_pow.symm
    _ = n &&& m := Nat.mod_eq_of_lt lt

/-- The bits that PPS_OUT_CTL has: bit 0 and bits [15:8] (Table 16-3). -/
theorem and_ppsOutCtl (n : Nat) : n &&& 0xFF01 = n % 2 + n / 256 % 256 * 256 := by
  have high : n / 256 &&& 0xFF = n / 256 % 256 := Nat.and_two_pow_sub_one_eq_mod (n / 256) 8
  have low : n % 256 &&& 1 = n % 256 % 2 := Nat.and_two_pow_sub_one_eq_mod (n % 256) 1
  have cut : n &&& 0xFF01 = (n / 256 &&& 0xFF) * 256 + (n % 256 &&& 1) := and_eq_high_add_low n 0xFF01 8
  rw [cut, high, low]
  omega

/-- EVQ_BASE keeps bits [63:12] (R293). -/
theorem ofNat_clear_low12 (v : BitVec 64) : BitVec.ofNat 64 (v.toNat / 4096 * 4096) = v &&& ~~~(0xFFF : BitVec 64) := by
  have high : v.toNat / 4096 &&& 0xFFFFFFFFFFFFF = v.toNat / 4096 % 2 ^ 52 := Nat.and_two_pow_sub_one_eq_mod (v.toNat / 4096) 52
  have cut : v.toNat &&& 0xFFFFFFFFFFFFF000 = (v.toNat / 4096 &&& 0xFFFFFFFFFFFFF) * 4096 + (v.toNat % 4096 &&& 0) :=
    and_eq_high_add_low v.toNat 0xFFFFFFFFFFFFF000 12
  have lt := v.isLt
  apply BitVec.eq_of_toNat_eq
  rw [BitVec.toNat_and, show (~~~(0xFFF : BitVec 64)).toNat = 0xFFFFFFFFFFFFF000 from rfl, BitVec.toNat_ofNat, cut, high, Nat.and_zero]
  omega

/-- The low word of a value that a 4-byte register takes. -/
theorem ofNat_low_word (v : BitVec 64) : BitVec.ofNat 32 (v.toNat % 2 ^ 32) = v.setWidth 32 := by
  apply BitVec.eq_of_toNat_eq
  simp

/-- The bits of that word that a register has. -/
theorem toNat_low_word_and (v : BitVec 64) (m : BitVec 32) : (BitVec.ofNat 32 (v.toNat % 2 ^ 32) &&& m).toNat = v.toNat &&& m.toNat := by
  rw [BitVec.toNat_and, BitVec.toNat_ofNat, Nat.mod_mod, mod_two_pow_and m.isLt]

/-! ## Frames of an update of one unit -/

theorem State.setTime_only (s : State) (x : TimeUnit) : Only [.time] s { s with time := x } :=
  ⟨List.prefix_refl _, fun b hb => by cases b <;> simp_all [Block.same]⟩

theorem State.setJnl_only (s : State) (x : Journal) : Only [.jnl] s { s with jnl := x } :=
  ⟨List.prefix_refl _, fun b hb => by cases b <;> simp_all [Block.same]⟩

theorem State.setBlw_only (s : State) (x : Bellows) : Only [.blw] s { s with blw := x } :=
  ⟨List.prefix_refl _, fun b hb => by cases b <;> simp_all [Block.same]⟩

theorem State.setSec_only (s : State) (x : Sec) : Only [.sec] s { s with sec := x } :=
  ⟨List.prefix_refl _, fun b hb => by cases b <;> simp_all [Block.same]⟩

theorem State.setEvq_only (s : State) (x : EvQueue) : Only [.evq] s { s with evq := x } :=
  ⟨List.prefix_refl _, fun b hb => by cases b <;> simp_all [Block.same]⟩

/-- A frame of what follows the header of a write is one of the write. -/
theorem Only.of_linkIn {bs : List Block} {s t : State} (h : Only bs s.linkIn t) : Only bs s t := ((State.linkIn_only s).mono (by simp)).trans h

@[simp] theorem State.linkIn_evq (s : State) : s.linkIn.evq = s.evq := State.linkIn_field _ (fun _ _ => rfl) (fun _ => rfl) s
@[simp] theorem State.linkIn_blw (s : State) : s.linkIn.blw = s.blw := State.linkIn_field _ (fun _ _ => rfl) (fun _ => rfl) s
@[simp] theorem State.linkIn_sec (s : State) : s.linkIn.sec = s.sec := State.linkIn_field _ (fun _ _ => rfl) (fun _ => rfl) s

/-! ## What a write leads to -/

/-- What a write of `n` to the register at offset `o` leads to, where it has the register's own size. -/
def State.ownSizeWrite (o n : Nat) (io : Io) (aux : List Int) (s : State) : State :=
  if o / 0x10000 = 3 then s.doorbellWrite (o % 0x10000) n io aux
  else match o with
    | 0x00024 => s.controlWrite n
    | 0x00030 => nextOf (execEvqConfigWrite (BitVec.ofNat 32 n) s) s
    | 0x5001C => s.timeCommand n
    | 0x50028 => nextOf (execTimeFreqWrite (BitVec.ofNat 32 n) s) s
    | 0x60018 => nextOf (execJnlTrigger s) s
    | 0x6001C => nextOf (execJnlResume s) s
    | 0x8000C => s.zeroizeWrite n
    | _ => s.linkIn.plainWrite o n

/-- The registers outside the doorbell block whose write acts: GLOBAL_CONTROL, EVQ_CONFIG, TIME_CMD, TIME_FREQ, JNL_TRIGGER, JNL_RESUME,
SEC_ZEROIZE. -/
def actingRegisters : List Nat := [0x24, 0x30, 0x5001C, 0x50028, 0x60018, 0x6001C, 0x8000C]

theorem State.ownSizeWrite_plain {o : Nat} (block : o / 0x10000 ≠ 3) (plain : o ∉ actingRegisters) (n : Nat) (io : Io) (aux : List Int)
    (s : State) : s.ownSizeWrite o n io aux = s.linkIn.plainWrite o n := by
  unfold State.ownSizeWrite
  rw [if_neg block]
  split <;> simp_all [actingRegisters]

section
variable {s : State} {off : BitVec 20} {size : Nat} (v : BitVec 64) (io : Io) (aux : List Int)
  (run : s.glob.phase ≠ .inReset) (out : off.toNat < 0x10000 ∨ 0x30000 ≤ off.toNat)
include run out

/-- Outside the mailboxes' buffers, a write of a register's own size is that register's (R14). -/
theorem exec_registerWrite_ownSize {w : Nat} (reg : s.regAt off.toNat = some (size, w)) :
    exec (.registerWrite off size v io aux) s = .next (s.ownSizeWrite off.toNat (v.toNat % 2 ^ (8 * size)) io aux) := by
  have buf : ¬ (0x10000 ≤ off.toNat ∧ off.toNat < 0x30000) := by omega
  simp only [exec, execRegisterWrite, run, buf, reg, if_false, Bool.and_eq_true, decide_eq_true_eq, ne_eq, not_true_eq_false]
  rfl

/-- Where no register of the size begins, a write leaves its header in the journal and no more. -/
theorem exec_registerWrite_noRegister (absent : ∀ n w, s.regAt off.toNat = some (n, w) → n ≠ size) :
    exec (.registerWrite off size v io aux) s = .next s.linkIn := by
  have buf : ¬ (0x10000 ≤ off.toNat ∧ off.toNat < 0x30000) := by omega
  simp only [exec, execRegisterWrite, run, buf, if_false, Bool.and_eq_true, decide_eq_true_eq]
  split
  · rfl
  next n w reg => rw [if_pos (absent n w reg)]

/-- A register that does not act, outside the doorbell block. -/
theorem exec_registerWrite_plain {w : Nat} (reg : s.regAt off.toNat = some (size, w)) (block : off.toNat / 0x10000 ≠ 3)
    (plain : off.toNat ∉ actingRegisters) :
    exec (.registerWrite off size v io aux) s = .next (s.linkIn.plainWrite off.toNat (v.toNat % 2 ^ (8 * size))) := by
  rw [exec_registerWrite_ownSize v io aux run out reg, State.ownSizeWrite_plain block plain]

/-- A register that keeps a value: what it holds afterwards, and the unit it lies in. -/
theorem exec_registerWrite_stores {w x : Nat} {b : Block} (reg : s.regAt off.toNat = some (size, w)) (block : off.toNat / 0x10000 ≠ 3)
    (plain : off.toNat ∉ actingRegisters)
    (kept : (s.linkIn.plainWrite off.toNat (v.toNat % 2 ^ (8 * size))).regAt off.toNat = some (size, x))
    (frame : Only [b] s.linkIn (s.linkIn.plainWrite off.toNat (v.toNat % 2 ^ (8 * size)))) :
    ∃ t, exec (.registerWrite off size v io aux) s = .next t ∧ t.readReg off.toNat size = x ∧ Only [b] s t :=
  ⟨_, exec_registerWrite_plain v io aux run out reg block plain, by simp [State.readReg, kept], frame.of_linkIn⟩

end

end Sys2Proof.Machine
end

section
/-! SUPPORT. The registers that store or clear (Tables 16-3, 15-11, 04-8, 09-10, R293). -/

namespace Sys2Proof.Machine

theorem State.regAt_time {o : Nat} (block : o / 0x10000 = 5) (s : State) : s.regAt o = s.time.reg (o % 0x10000) := by
  simp only [State.regAt, block]

theorem State.plainWrite_time {o : Nat} (lo : 0x50000 ≤ o) (hi : o < 0x50050) (n : Nat) (s : State) :
    s.plainWrite o n = { s with time := s.time.store (o % 0x10000) n } := by
  have mail : ¬ (0x30C00 ≤ o ∧ o < 0x30D00) := by omega
  have msix : ¬ (0x40000 ≤ o ∧ o < 0x40000 + 257 * 16) := by omega
  simp only [State.plainWrite, mail, msix, lo, hi, and_self, if_true, if_false, Bool.and_eq_true, decide_eq_true_eq]

theorem State.plainWrite_blwIntStatus (n : Nat) (s : State) :
    s.plainWrite 0x7000C n = { s with blw := { s.blw with intStatus := s.blw.intStatus &&& ~~~(BitVec.ofNat 32 n) } } := by
  simp [State.plainWrite]

theorem State.plainWrite_secIntStatus (n : Nat) (s : State) :
    s.plainWrite 0x80004 n = { s with sec := { s.sec with intStatus := s.sec.intStatus &&& ~~~(BitVec.ofNat 32 n) } } := by
  simp [State.plainWrite]

theorem State.plainWrite_evqBase (n : Nat) (s : State) : s.plainWrite 0x28 n = s.evqBaseWrite n := by
  simp [State.plainWrite]

/-! ## A register of the time unit after a value has been stored in it -/

theorem TimeUnit.reg_store_setSec (n : Nat) (t : TimeUnit) : (t.store 0x10 (n % 2 ^ 64)).reg 0x10 = some (8, n &&& 2 ^ 48 - 1) := by
  rw [Nat.and_two_pow_sub_one_eq_mod]
  simp [TimeUnit.reg, TimeUnit.store]

theorem TimeUnit.reg_store_setNs (n : Nat) (t : TimeUnit) : (t.store 0x18 (n % 2 ^ 32)).reg 0x18 = some (4, n &&& 2 ^ 32 - 1) := by
  rw [Nat.and_two_pow_sub_one_eq_mod]
  simp [TimeUnit.reg, TimeUnit.store]

theorem TimeUnit.reg_store_phase (n : Nat) (t : TimeUnit) : (t.store 0x20 (n % 2 ^ 64)).reg 0x20 = some (8, n &&& 2 ^ 64 - 1) := by
  rw [Nat.and_two_pow_sub_one_eq_mod]
  simp [TimeUnit.reg, TimeUnit.store]

theorem TimeUnit.reg_store_ppsOutCtl (n : Nat) (t : TimeUnit) : (t.store 0x44 (n % 2 ^ 32)).reg 0x44 = some (4, n &&& 0xFF01) := by
  have bits : (BitVec.ofNat 32 (n % 2 ^ 32 % 2 + n % 2 ^ 32 / 256 % 256 * 256)).toNat = n &&& 0xFF01 := by
    rw [and_ppsOutCtl, BitVec.toNat_ofNat]
    omega
  exact congrArg (fun x => some (4, x)) bits

theorem TimeUnit.reg_store_ppsOutOffset (n : Nat) (t : TimeUnit) : (t.store 0x48 (n % 2 ^ 32)).reg 0x48 = some (4, n &&& 2 ^ 32 - 1) := by
  rw [Nat.and_two_pow_sub_one_eq_mod]
  simp [TimeUnit.reg, TimeUnit.store]

section
variable (v : BitVec 64) (io : Io) (aux : List Int) {s : State} (run : s.glob.phase ≠ .inReset)
include run

/-- As `exec_registerWrite_stores`, for a register of the time unit (Table 16-3, RWS). -/
theorem timeRegisterWrite_stores {off : BitVec 20} {size w x : Nat} (reg : s.time.reg (off.toNat % 0x10000) = some (size, w))
    (lo : 0x50000 ≤ off.toNat) (hi : off.toNat < 0x50050) (plain : off.toNat ∉ actingRegisters)
    (kept : (s.linkIn.time.store (off.toNat % 0x10000) (v.toNat % 2 ^ (8 * size))).reg (off.toNat % 0x10000) = some (size, x)) :
    ∃ t, exec (.registerWrite off size v io aux) s = .next t ∧ t.readReg off.toNat size = x ∧ Only [.time] s t := by
  have block : off.toNat / 0x10000 = 5 := by omega
  refine exec_registerWrite_stores v io aux run (by omega) ((State.regAt_time block s).trans reg) (by omega) plain ?_ ?_
  · rw [State.plainWrite_time lo hi, State.regAt_time block, kept]
  · rw [State.plainWrite_time lo hi]
    exact State.setTime_only _ _

/-- The registers that keep what is written, each with its bits and its unit. -/
theorem registerWrite_readBack : ∀ r ∈ [((0x50010 : BitVec 20), 8, 2 ^ 48 - 1, Block.time), (0x50018, 4, 2 ^ 32 - 1, Block.time),
      (0x50020, 8, 2 ^ 64 - 1, Block.time), (0x50044, 4, 0xFF01, Block.time), (0x50048, 4, 2 ^ 32 - 1, Block.time),
      (0x60000, 4, 3, Block.jnl), (0x70010, 4, 0x7FF, Block.blw), (0x80008, 4, 0x7F, Block.sec)],
    ∃ t, exec (.registerWrite r.1 r.2.1 v io aux) s = .next t ∧ t.readReg r.1.toNat r.2.1 = v.toNat &&& r.2.2.1 ∧ Only [r.2.2.2] s t := by
  simp only [List.forall_mem_cons]
  refine ⟨?setSec, ?setNs, ?phase, ?ppsOutCtl, ?ppsOutOffset, ?jnlControl, ?blwIntMask, ?secIntMask, List.forall_mem_nil _⟩
  case setSec =>
    exact timeRegisterWrite_stores v io aux run (w := s.time.setSec.toNat) rfl (by decide) (by decide) (by decide) (TimeUnit.reg_store_setSec _ _)
  case setNs =>
    exact timeRegisterWrite_stores v io aux run (w := s.time.setNs.toNat) rfl (by decide) (by decide) (by decide) (TimeUnit.reg_store_setNs _ _)
  case phase =>
    exact timeRegisterWrite_stores v io aux run (w := s.time.phase.toNat) rfl (by decide) (by decide) (by decide) (TimeUnit.reg_store_phase _ _)
  case ppsOutCtl =>
    exact timeRegisterWrite_stores v io aux run (w := s.time.ppsOutCtl.toNat) rfl (by decide) (by decide) (by decide)
      (TimeUnit.reg_store_ppsOutCtl _ _)
  case ppsOutOffset =>
    exact timeRegisterWrite_stores v io aux run (w := s.time.ppsOutOffset.toNat) rfl (by decide) (by decide) (by decide)
      (TimeUnit.reg_store_ppsOutOffset _ _)
  case jnlControl =>
    refine exec_registerWrite_stores v io aux run (off := 0x60000) (by decide) (w := s.jnl.control.toNat) rfl (by decide) (by decide) ?_ ?_
    · exact congrArg (fun x => some (4, x)) (toNat_low_word_and v 3)
    · exact State.setJnl_only _ _
  case blwIntMask =>
    refine exec_registerWrite_stores v io aux run (off := 0x70010) (by decide) (w := s.blw.intMask.toNat) rfl (by decide) (by decide) ?_ ?_
    · exact congrArg (fun x => some (4, x)) (toNat_low_word_and v 0x7FF)
    · exact State.setBlw_only _ _
  case secIntMask =>
    refine exec_registerWrite_stores v io aux run (off := 0x80008) (by decide) (w := s.sec.intMask.toNat) rfl (by decide) (by decide) ?_ ?_
    · exact congrArg (fun x => some (4, x)) (toNat_low_word_and v 0x7F)
    · exact State.setSec_only _ _

theorem registerWrite_blwIntStatus : exec (.registerWrite 0x7000C 4 v io aux) s =
    .next { s.linkIn with blw := { s.blw with intStatus := s.blw.intStatus &&& ~~~(v.setWidth 32) } } := by
  rw [exec_registerWrite_plain v io aux run (by decide) (w := s.blw.intStatus.toNat) rfl (by decide) (by decide),
    show (0x7000C : BitVec 20).toNat = 0x7000C from rfl, State.plainWrite_blwIntStatus, ofNat_low_word, State.linkIn_blw]

theorem registerWrite_secIntStatus : exec (.registerWrite 0x80004 4 v io aux) s =
    .next { s.linkIn with sec := { s.sec with intStatus := s.sec.intStatus &&& ~~~(v.setWidth 32) } } := by
  rw [exec_registerWrite_plain v io aux run (by decide) (w := s.sec.intStatus.toNat) rfl (by decide) (by decide),
    show (0x80004 : BitVec 20).toNat = 0x80004 from rfl, State.plainWrite_secIntStatus, ofNat_low_word, State.linkIn_sec]

theorem registerWrite_evqBase : exec (.registerWrite 0x28 8 v io aux) s = .next (s.linkIn.evqBaseWrite v.toNat) := by
  rw [exec_registerWrite_plain v io aux run (by decide) (w := s.evq.base.toNat) rfl (by decide) (by decide),
    show (0x28 : BitVec 20).toNat = 0x28 from rfl, State.plainWrite_evqBase, Nat.mod_eq_of_lt v.isLt]

end

theorem State.evqBaseWrite_base (v : BitVec 64) (s : State) :
    (s.evqBaseWrite v.toNat).evq.base = if s.evq.enable then s.evq.base else v &&& ~~~(0xFFF : BitVec 64) := by
  unfold State.evqBaseWrite
  cases h : s.evq.enable <;> simp [h, ofNat_clear_low12]

theorem State.evqBaseWrite_only (n : Nat) (s : State) : Only [.evq] s (s.evqBaseWrite n) :=
  .ite (.refl _ _) (State.setEvq_only _ _)

end Sys2Proof.Machine
end

section
/-! SUPPORT. The registers that act (R281, R293, R460, R462, R450). -/

namespace Sys2Proof.Machine

/-- The doorbells of the pairs and of the event queue are 4 bytes wide and read zero (Table 10-4). -/
theorem State.regAt_doorbell {o : Nat} (h : o ≤ 0x800) (word : o % 4 = 0) (s : State) : s.regAt (0x30000 + o) = some (4, 0) := by
  have block : (0x30000 + o) / 0x10000 = 3 := by omega
  have inner : (0x30000 + o) % 0x10000 = o := by omega
  have summary : o ≠ 0xD00 := by omega
  have mail : ¬ 0xC00 ≤ o := by omega
  simp [State.regAt, State.doorbellReg, block, inner, summary, mail, h, word]

theorem State.ownSizeWrite_doorbell {o : Nat} (h : o ≤ 0x800) (n : Nat) (io : Io) (aux : List Int) (s : State) :
    s.ownSizeWrite (0x30000 + o) n io aux = s.doorbellWrite o n io aux := by
  have block : (0x30000 + o) / 0x10000 = 3 := by omega
  have inner : (0x30000 + o) % 0x10000 = o := by omega
  unfold State.ownSizeWrite
  rw [if_pos block, inner]

theorem State.doorbellWrite_sqTail (q : Fin 256) (n : Nat) (io : Io) (aux : List Int) (s : State) :
    .next (s.doorbellWrite (8 * q.val) n io aux) = execSqTailDoorbell q (BitVec.ofNat 32 n) s := by
  have below : 8 * q.val < 0x800 := by omega
  have pair : Fin.ofNat 256 (8 * q.val / 8) = q := by ext; simp
  simp only [State.doorbellWrite, below, pair, Nat.mul_mod_right, if_true]
  rfl

theorem State.doorbellWrite_cqHead (q : Fin 256) (n : Nat) (io : Io) (aux : List Int) (s : State) :
    .next (s.doorbellWrite (8 * q.val + 4) n io aux) = execCqHeadDoorbell q (BitVec.ofNat 32 n) s := by
  have below : 8 * q.val + 4 < 0x800 := by omega
  have pair : Fin.ofNat 256 ((8 * q.val + 4) / 8) = q := by ext; simp; omega
  have head : (8 * q.val + 4) % 8 ≠ 0 := by omega
  simp only [State.doorbellWrite, below, pair, head, if_true, if_false]
  rfl

theorem State.doorbellWrite_evqHead (n : Nat) (io : Io) (aux : List Int) (s : State) :
    .next (s.doorbellWrite 0x800 n io aux) = execEvqHeadDoorbell (BitVec.ofNat 32 n) s := by
  simp only [State.doorbellWrite, Nat.lt_irrefl, if_true, if_false]
  rfl

section
variable (v : BitVec 64) (io : Io) (aux : List Int) {s : State} (run : s.glob.phase ≠ .inReset)
include run

theorem exec_registerWrite_doorbell {off : BitVec 20} {o : Nat} (place : off.toNat = 0x30000 + o) (h : o ≤ 0x800) (word : o % 4 = 0) :
    exec (.registerWrite off 4 v io aux) s = .next (s.doorbellWrite o (v.toNat % 2 ^ 32) io aux) := by
  rw [exec_registerWrite_ownSize v io aux run (by omega) (w := 0) (by rw [place, State.regAt_doorbell h word]), place,
    State.ownSizeWrite_doorbell h]

theorem registerWrite_sqTailDoorbell (q : Fin 256) :
    exec (.registerWrite (BitVec.ofNat 20 (0x30000 + 8 * q.val)) 4 v io aux) s = exec (.sqTailDoorbell q (v.setWidth 32)) s := by
  rw [exec_registerWrite_doorbell v io aux run (o := 8 * q.val) (by rw [BitVec.toNat_ofNat]; omega) (by omega) (by omega),
    State.doorbellWrite_sqTail, ofNat_low_word]
  rfl

theorem registerWrite_cqHeadDoorbell (q : Fin 256) :
    exec (.registerWrite (BitVec.ofNat 20 (0x30004 + 8 * q.val)) 4 v io aux) s = exec (.cqHeadDoorbell q (v.setWidth 32)) s := by
  rw [exec_registerWrite_doorbell v io aux run (o := 8 * q.val + 4) (by rw [BitVec.toNat_ofNat]; omega) (by omega) (by omega),
    State.doorbellWrite_cqHead, ofNat_low_word]
  rfl

theorem registerWrite_evqHeadDoorbell : exec (.registerWrite 0x30800 4 v io aux) s = exec (.evqHeadDoorbell (v.setWidth 32)) s := by
  rw [exec_registerWrite_doorbell v io aux run (o := 0x800) rfl (by decide) (by decide), State.doorbellWrite_evqHead, ofNat_low_word]
  rfl

theorem registerWrite_evqConfig : exec (.registerWrite 0x30 4 v io aux) s = exec (.evqConfigWrite (v.setWidth 32)) s := by
  rw [exec_registerWrite_ownSize v io aux run (by decide) (w := s.evq.configWord.toNat) rfl, ← ofNat_low_word]
  rfl

/-- TIME_CMD does what the command does that its value spells (R462). -/
theorem registerWrite_timeCmd {c : Instr} (e : .next (s.timeCommand (v.toNat % 2 ^ 32)) = exec c s) :
    exec (.registerWrite 0x5001C 4 v io aux) s = exec c s := by
  rw [exec_registerWrite_ownSize v io aux run (by decide) (w := 0) rfl, ← e]
  rfl

theorem registerWrite_timeFreq : exec (.registerWrite 0x50028 4 v io aux) s = exec (.timeFreqWrite (v.setWidth 32)) s := by
  rw [exec_registerWrite_ownSize v io aux run (by decide) (w := s.time.adj.toNat) rfl, ← ofNat_low_word]
  rfl

theorem registerWrite_jnlTrigger : exec (.registerWrite 0x60018 4 v io aux) s = exec .jnlTrigger s := by
  rw [exec_registerWrite_ownSize v io aux run (by decide) (w := 0) rfl]
  rfl

theorem registerWrite_jnlResume : exec (.registerWrite 0x6001C 4 v io aux) s = exec .jnlResume s := by
  rw [exec_registerWrite_ownSize v io aux run (by decide) (w := 0) rfl]
  rfl

end
end Sys2Proof.Machine
end

section
open Sys2Proof Sys2Proof.Machine

/-- Settles O24: each register by its own lemma; where none of the size begins, only the header of the write reaches the journal. -/
theorem registerWritesStoreOrAct : Obligations.RegisterWritesStoreOrAct := by
  intro v io aux s run
  refine ⟨registerWrite_readBack v io aux run, ?blwIntStatus, ?secIntStatus, ?evqBase,
    fun q => ⟨registerWrite_sqTailDoorbell v io aux run q, registerWrite_cqHeadDoorbell v io aux run q⟩,
    registerWrite_evqHeadDoorbell v io aux run, registerWrite_evqConfig v io aux run,
    registerWrite_timeCmd 1 io aux run rfl, registerWrite_timeCmd 2 io aux run rfl, registerWrite_timeCmd 4 io aux run rfl,
    registerWrite_timeFreq v io aux run, registerWrite_jnlTrigger v io aux run, registerWrite_jnlResume v io aux run,
    fun off size out absent => ⟨s.linkIn, exec_registerWrite_noRegister v io aux run out absent, State.linkIn_only s⟩⟩
  case blwIntStatus =>
    exact ⟨_, registerWrite_blwIntStatus v io aux run, rfl, (State.setBlw_only _ _).of_linkIn⟩
  case secIntStatus =>
    exact ⟨_, registerWrite_secIntStatus v io aux run, rfl, (State.setSec_only _ _).of_linkIn⟩
  case evqBase =>
    refine ⟨_, registerWrite_evqBase v io aux run, ?_, (State.evqBaseWrite_only _ _).of_linkIn⟩
    rw [State.evqBaseWrite_base, State.linkIn_evq]

end

section
/-! SUPPORT. Byte strings: where a field or a record lies in a concatenation, and the number a little-endian field holds (R11). -/

namespace Sys2Proof.Machine

@[simp] theorem length_leBytes (n v : Nat) : (leBytes n v).length = n := by
  induction n generalizing v with
  | zero => rfl
  | succ n ih => simp [leBytes, ih]

@[simp] theorem length_slice (b : Bytes) (o n : Nat) : (slice b o n).length = n := by
  have cut : ((b.drop o).take n).length ≤ n := List.length_take_le _ _
  rw [slice, List.length_append, zeros_length, Nat.add_sub_cancel' cut]

@[simp] theorem length_fit (n : Nat) (b : Bytes) : (fit n b).length = n := length_slice b 0 n

theorem slice_append_skip {a : Bytes} {o : Nat} (h : a.length ≤ o) (b : Bytes) (n : Nat) :
    slice (a ++ b) o n = slice b (o - a.length) n := by
  simp only [slice, List.drop_append, List.drop_eq_nil_of_le h, List.nil_append]

theorem slice_append_take {a : Bytes} {n : Nat} (h : a.length = n) (b : Bytes) : slice (a ++ b) 0 n = a := by
  subst h; simp [slice, zeros]

theorem slice_all {a : Bytes} {n : Nat} (h : a.length = n) : slice a 0 n = a := by
  subst h; simp [slice, zeros]

theorem fit_of_length_le {b : Bytes} {n : Nat} (h : b.length ≤ n) : fit n b = b ++ zeros (n - b.length) := by
  simp [fit, slice, List.take_of_length_le h]

theorem leNat_leBytes (n v : Nat) : leNat (leBytes n v) = v % 256 ^ n := by
  induction n generalizing v with
  | zero => simp [leBytes, leNat, Nat.mod_one]
  | succ n ih =>
    rw [leBytes, leNat, ih, Nat.pow_succ', Nat.mod_mul]
    simp [byte]

theorem leNat_leBytes_of_lt {n v : Nat} (h : v < 256 ^ n) : leNat (leBytes n v) = v := by rw [leNat_leBytes, Nat.mod_eq_of_lt h]

theorem leNat_leBytes_toNat {n w : Nat} (fits : w ≤ 8 * n) (v : BitVec w) : leNat (leBytes n v.toNat) = v.toNat := by
  have room : 2 ^ w ≤ 256 ^ n := calc
    2 ^ w ≤ 2 ^ (8 * n) := Nat.pow_le_pow_right (by decide) fits
    _ = 256 ^ n := Nat.pow_mul 2 8 n
  exact leNat_leBytes_of_lt (Nat.lt_of_lt_of_le v.isLt room)

/-- In a table of records of `k` bytes, record `i` lies at offset `k * i`. -/
theorem slice_flatten_append {k i : Nat} {x : Bytes} {recs : List Bytes} (size : ∀ y ∈ recs, y.length = k) (at_i : recs[i]? = some x) (rest : Bytes) :
    slice (recs.flatten ++ rest) (k * i) k = x := by
  induction recs generalizing i with
  | nil => simp at at_i
  | cons y ys ih =>
    have len : y.length = k := size y (by simp)
    rw [List.flatten_cons, List.append_assoc]
    cases i with
    | zero =>
      obtain rfl : y = x := by simpa using at_i
      exact slice_append_take len _
    | succ i =>
      rw [slice_append_skip (by rw [len]; exact Nat.le_mul_of_pos_right k i.succ_pos), len, Nat.mul_succ, Nat.add_sub_cancel]
      exact ih (fun z hz => size z (List.mem_cons_of_mem y hz)) (by simpa using at_i)

theorem slice_flatMap_append {α : Type} {f : α → Bytes} {k i : Nat} {c : α} {l : List α} (size : ∀ a, (f a).length = k) (at_i : l[i]? = some c)
    (rest : Bytes) : slice (l.flatMap f ++ rest) (k * i) k = f c := by
  rw [List.flatMap_def]
  exact slice_flatten_append (by simp [size]) (by simp [at_i]) rest

theorem length_flatMap_const {α : Type} {f : α → Bytes} {k : Nat} (size : ∀ a, (f a).length = k) (l : List α) : (l.flatMap f).length = k * l.length := by
  induction l with
  | nil => rfl
  | cons a t ih => rw [List.flatMap_cons, List.length_append, size, ih, List.length_cons, Nat.mul_succ, Nat.add_comm]

end Sys2Proof.Machine
end

section
/-! SUPPORT. A mailbox command that passes the shared checks and is answered after it has changed some units (R337, R480). -/

namespace Sys2Proof.Machine

theorem State.secRefuses_eq_none {op : Nat} (general : op / 256 ≠ 5) (s : State) : s.secRefuses op = none := if_pos general

/-- A command that asks for no role and is not one of security passes the shared checks with a payload in order and flags it defines. -/
theorem mbChecks_passes {op n : Nat} {resOk : Bytes → Bool} {r : MbReq} (general : op / 256 ≠ 5) (len : r.len.toNat = n) (rsv : r.rsv = 0)
    (flags : r.flags = 0 ∨ (r.flags = 1 ∧ hasClear op = true)) (res : resOk (mbData r) = true) (body : MbReq → State → State) (s : State) :
    mbChecks op (sized n) resOk 0 body r s = body r s := by
  have low : ¬ 2 ≤ r.flags.toNat := by rcases flags with f | ⟨f, -⟩ <;> simp [f]
  have defined : (r.flags ≠ 0 && !hasClear op) = false := by rcases flags with f | ⟨-, f⟩ <;> simp [f]
  rw [mbChecks, defined, State.secRefuses_eq_none general]
  simp [sized, len, rsv, low, res, roleOk]

/-- A GO that is served at once and answered after the units of `bs` have changed: its answer, what it changes, and that the answer
itself changes nothing but the mailbox. -/
theorem mbGo_answers_after {op : Nat} {r : MbReq} {s u : State} (h : s.Serves op r) {serve : MbReq → State → State} {st : BitVec 16} {d : Nat}
    {p : Bytes} {bs : List Block} (own : .mail ∉ bs) (work : Only bs (s.accepted' op r) u)
    (served : serve r (s.accepted' op r) = u.respond r.mb st d p) :
    Answered op r st d p s (mbGo op r serve s) ∧ Only (.mail :: bs) s (mbGo op r serve s) ∧ Only [.mail] u (mbGo op r serve s) := by
  rw [(mbGo_serves h serve).trans served]
  have mail : u.mail = modAt s.mail r.mb (Mailbox.busy op r) := (work.2 .mail own).trans (State.accepted'_mail op r s)
  have before : Only (.mail :: bs) s u := ((State.accepted'_only op r s).mono (by simp)).trans (work.mono (by simp_all))
  have answer := State.respond_only r.mb st d p u
  obtain ⟨box, out, signal⟩ := State.respond_spec r.mb st d p u
  have inMail : r.mb.val < s.mail.length := by rw [h.mail]; exact r.mb.isLt
  refine ⟨⟨?_, State.newOut_late before.1 out answer.1, fun armed => ?_⟩, before.trans (answer.mono (by simp)), answer⟩
  · rw [box, mail, modAt_modAt]
    exact modAt_congr (fun _ => rfl)
  · refine signal (by rw [mail, length_modAt]; exact inMail) ?_
    have busy : u.mbox r.mb = Mailbox.busy op r (s.mbox r.mb) := by
      simp [State.mbox, mail, getElem?_modAt, List.getElem?_eq_getElem inMail]
    rw [busy]; exact armed

/-- A command without a payload that, if CLEAR is set, wipes the units of `bs`, and answers with its record of the state before that. -/
theorem mbGo_statistics {op : Nat} {r : MbReq} {s : State} {bs : List Block} {wipe : State → State} {record : State → Bytes}
    {body : MbReq → State → State} (run : s.Serves op r) (general : op / 256 ≠ 5) (defined : hasClear op = true) (len : r.len = 0)
    (rsv : r.rsv = 0) (flags : r.flags = 0 ∨ r.flags = 1) (own : .mail ∉ bs) (wipes : ∀ u, Only bs u (wipe u))
    (eq : ∀ u, body r u = (if r.flags = 1 then wipe u else u).done r.mb (record u)) :
    let u := s.accepted' op r
    let t := mbGo op r (mbChecks op (sized 0) (fun _ => true) 0 body) s
    Answered op r Status.success 0 (record u) s t ∧ Only (.mail :: bs) s t ∧
      (r.flags = 1 → Only [.mail] (wipe u) t) ∧ (r.flags ≠ 1 → Only [.mail] u t) := by
  have served := (mbChecks_passes (resOk := fun _ => true) general (by rw [len]) rsv (flags.imp_right fun one => ⟨one, defined⟩) rfl body
    (s.accepted' op r)).trans (eq _)
  obtain ⟨answered, only, after⟩ := mbGo_answers_after run own (.ite (wipes _) (.refl _ _)) served
  refine ⟨answered, only, fun clear => ?_, fun keep => ?_⟩
  · rwa [if_pos clear] at after
  · rwa [if_neg keep] at after

section
variable (op : Nat) (r : MbReq) (s : State)

@[simp] theorem State.accepted'_rd : (s.accepted' op r).rd = s.rd := (State.accepted'_only op r s).2 .rd (by simp)
@[simp] theorem State.accepted'_servo : (s.accepted' op r).servo = s.servo := (State.accepted'_only op r s).2 .servo (by simp)
@[simp] theorem State.accepted'_comp : (s.accepted' op r).comp = s.comp := (State.accepted'_only op r s).2 .comp (by simp)
@[simp] theorem State.accepted'_hearth : (s.accepted' op r).hearth = s.hearth := (State.accepted'_only op r s).2 .hearth (by simp)
@[simp] theorem State.accepted'_tongs : (s.accepted' op r).tongs = s.tongs := (State.accepted'_only op r s).2 .tongs (by simp)

end

theorem State.setRd_only (s : State) (x : ReadSide) : Only [.rd] s { s with rd := x } :=
  ⟨List.prefix_refl _, fun b hb => by cases b <;> simp_all [Block.same]⟩

theorem State.setComp_only (s : State) (x : Comp) : Only [.comp] s { s with comp := x } :=
  ⟨List.prefix_refl _, fun b hb => by cases b <;> simp_all [Block.same]⟩

theorem State.setHearth_only (s : State) (x : Hearth) : Only [.hearth] s { s with hearth := x } :=
  ⟨List.prefix_refl _, fun b hb => by cases b <;> simp_all [Block.same]⟩

theorem State.setTongs_only (s : State) (x : Tongs) : Only [.tongs] s { s with tongs := x } :=
  ⟨List.prefix_refl _, fun b hb => by cases b <;> simp_all [Block.same]⟩

end Sys2Proof.Machine
end

section
/-! SUPPORT. The records of the statistics commands: their sizes (Tables 05-8, 06-6, 08-6, 13-13, 13-14, 14-14). -/

namespace Sys2Proof.Machine

@[simp] theorem ChanStats.length_bytes (c : ChanStats) : c.bytes.length = 32 := by simp [ChanStats.bytes]
@[simp] theorem ScaleEntry.length_bytes (e : ScaleEntry) : e.bytes.length = 32 := by simp [ScaleEntry.bytes, zeros_length]
@[simp] theorem HChan.length_bytes (doubled : Bool) (c : HChan) : (c.bytes doubled).length = 64 := by simp [HChan.bytes, zeros_length]
@[simp] theorem Port.length_bytes (i : Nat) (p : Port) : (p.bytes i).length = 64 := by simp [Port.bytes, zeros_length]
@[simp] theorem State.length_hearthHeader (s : State) : s.hearthHeader.length = 64 := by
  simp [State.hearthHeader, Hearth.record, zeros_length, ascii]
@[simp] theorem State.length_servoHead (s : State) : s.servoHead.length = 48 := by simp [State.servoHead]
@[simp] theorem State.length_compBytes (s : State) : s.compBytes.length = 64 := by simp [State.compBytes, zeros_length]

end Sys2Proof.Machine
end

section
/-! SUPPORT. The answers of the statistics commands (R177, R202, R244, R398, R399, R426): their records by name, and what CLEAR does. -/

namespace Sys2Proof.Machine

/-! ## READ_CHANNEL_STATS (R177) -/

/-- The records of `n` channels from `first`. -/
def State.channelRecords (first n : Nat) (s : State) : Bytes := ((s.rd.stats.drop first).take n).flatMap ChanStats.bytes

/-- The statistics of `n` channels from `first` cleared. -/
def State.clearStats (first n : Nat) (s : State) : State :=
  { s with rd := { s.rd with stats := s.rd.stats.mapIdx (fun p (c : ChanStats) => if first ≤ p && p < first + n then {} else c) } }

theorem State.length_channelRecords {first n : Nat} {s : State} (range : first + n ≤ s.rd.stats.length) :
    (s.channelRecords first n).length = 32 * n := by
  rw [State.channelRecords, length_flatMap_const ChanStats.length_bytes, List.length_take, List.length_drop, Nat.min_eq_left (by omega)]

theorem State.slice_channelRecords {first n i : Nat} {c : ChanStats} {s : State} (lt : i < n) (stat : s.rd.stats[first + i]? = some c) :
    slice (s.channelRecords first n) (32 * i) 32 = c.bytes := by
  have at_i : ((s.rd.stats.drop first).take n)[i]? = some c := by rw [List.getElem?_take_of_lt lt, List.getElem?_drop, stat]
  simpa [State.channelRecords] using slice_flatMap_append ChanStats.length_bytes at_i []

theorem State.clearStats_only (first n : Nat) (s : State) : Only [.rd] s (s.clearStats first n) := State.setRd_only _ _

theorem State.clearStats_stats {first n k : Nat} {c : ChanStats} {s : State} (stat : s.rd.stats[k]? = some c) :
    (s.clearStats first n).rd.stats[k]? = some (if first ≤ k ∧ k < first + n then {} else c) := by
  simp [State.clearStats, List.getElem?_mapIdx, stat]

/-- What READ_CHANNEL_STATS does before its answer: it clears if asked to, and writes the records if an address is given. -/
def State.channelStatsWork (r : MbReq) (first n addr : Nat) (s : State) : State :=
  let u := if r.flags = 0 then s else s.clearStats first n
  if addr = 0 then u else u.emit (.dma (BitVec.ofNat 64 addr) (s.channelRecords first n))

section
variable (r : MbReq) (first n addr : Nat) (s : State)

theorem State.channelStatsWork_rd : (s.channelStatsWork r first n addr).rd = if r.flags = 0 then s.rd else (s.clearStats first n).rd := by
  unfold State.channelStatsWork
  split <;> split <;> rfl

/-- Channels of the range are cleared where CLEAR is set, and only those. -/
theorem State.channelStatsWork_stats {k : Nat} {c : ChanStats} (flags : r.flags = 0 ∨ r.flags = 1) (stat : s.rd.stats[k]? = some c) :
    (s.channelStatsWork r first n addr).rd.stats[k]? = some (if r.flags = 1 ∧ first ≤ k ∧ k < first + n then {} else c) := by
  rw [State.channelStatsWork_rd]
  rcases flags with keep | clear
  · simp [keep, stat]
  · simp [clear, State.clearStats_stats stat]

/-- Of the read unit only the statistics change. -/
theorem State.channelStatsWork_rest : (s.channelStatsWork r first n addr).rd = { s.rd with stats := (s.channelStatsWork r first n addr).rd.stats } := by
  rw [State.channelStatsWork_rd]
  split <;> rfl

theorem State.channelStatsWork_only : Only [.rd] s (s.channelStatsWork r first n addr) := by
  have cleared : Only [.rd] s (if r.flags = 0 then s else s.clearStats first n) := .ite (.refl _ _) (State.clearStats_only _ _ _)
  exact .ite cleared (cleared.trans ((State.emit_only _ _).mono (by simp)))

theorem State.channelStatsWork_dma {addr : Nat} (given : addr ≠ 0) :
    Output.dma (BitVec.ofNat 64 addr) (s.channelRecords first n) ∈ s.newOut (s.channelStatsWork r first n addr) := by
  simp only [State.channelStatsWork, given, if_false]
  split <;> simp [State.newOut, State.clearStats]

end

theorem serveReadChannelStats_passes {r : MbReq} (len : r.len = 16) (rsv : r.rsv = 0) (flags : r.flags = 0 ∨ r.flags = 1)
    (zero : zeroAt (mbData r) 4 4 = true) (s : State) : serveReadChannelStats r s = chanStatsBody r s :=
  mbChecks_passes (by decide) (by rw [len]; rfl) rsv (flags.imp_right fun one => ⟨one, rfl⟩) zero chanStatsBody s

theorem chanStatsBody_refuses {r : MbReq} {first n addr : Nat} (hf : getLe (mbData r) 0 2 = first) (hn : getLe (mbData r) 2 2 = n)
    (ha : getLe (mbData r) 8 8 = addr) (range : n = 0 ∨ 1024 < first + n ∨ (addr = 0 ∧ 127 < n)) (s : State) :
    chanStatsBody r s = s.invalidOpen 0x0301 1 r := by
  subst hf hn ha
  refine if_pos ?_
  simp only [Bool.or_eq_true, Bool.and_eq_true, decide_eq_true_eq]
  rcases range with none | past | long
  · exact .inl (.inl (.inl none))
  · exact .inl (.inl (.inr past))
  · exact .inl (.inr long)

theorem chanStatsBody_returns {r : MbReq} {first n addr : Nat} (hf : getLe (mbData r) 0 2 = first) (hn : getLe (mbData r) 2 2 = n)
    (ha : getLe (mbData r) 8 8 = addr) (some_n : 0 < n) (range : first + n ≤ 1024) (short : addr = 0 → n ≤ 127) (aligned : addr % 16 = 0)
    (moved : addr ≠ 0 → r.io.ok = true) (s : State) :
    chanStatsBody r s = (s.channelStatsWork r first n addr).done r.mb (leBytes 2 n ++ zeros 6 ++ if addr = 0 then s.channelRecords first n else []) := by
  subst hf hn ha
  unfold chanStatsBody
  rw [if_neg, if_neg]
  · by_cases given : getLe (mbData r) 8 8 = 0
    · simp only [given, if_true, State.channelStatsWork]; rfl
    · simp only [given, if_false, State.channelStatsWork, List.append_nil]; rfl
  · simpa using moved
  · simp only [Bool.or_eq_true, Bool.and_eq_true, decide_eq_true_eq]
    omega

/-- READ_CHANNEL_STATS of `n` channels from `first`, to `addr` or into the response (R177). -/
theorem readChannelStats_returns {r : MbReq} {s : State} {first n addr : Nat} (run : s.Serves 0x0301 r) (len : r.len = 16) (rsv : r.rsv = 0)
    (flags : r.flags = 0 ∨ r.flags = 1) (zero : zeroAt (mbData r) 4 4 = true) (stats : s.rd.stats.length = 1024)
    (hf : getLe (mbData r) 0 2 = first) (hn : getLe (mbData r) 2 2 = n) (ha : getLe (mbData r) 8 8 = addr) (some_n : 0 < n)
    (range : first + n ≤ 1024) (short : addr = 0 → n ≤ 127) (aligned : addr % 16 = 0) (moved : addr ≠ 0 → r.io.ok = true) :
    ∃ (t : State) (recs : Bytes), exec (.readChannelStats r) s = .next t ∧
      Answered 0x0301 r Status.success 0 (leBytes 2 n ++ zeros 6 ++ (if addr = 0 then recs else [])) s t ∧ recs.length = 32 * n ∧
      (addr ≠ 0 → Output.dma (BitVec.ofNat 64 addr) recs ∈ s.newOut t) ∧
      (∀ i c, i < n → s.rd.stats[first + i]? = some c → slice recs (32 * i) 32 = c.bytes) ∧
      (∀ k c, s.rd.stats[k]? = some c → (r.flags = 1 ∧ first ≤ k ∧ k < first + n → t.rd.stats[k]? = some {}) ∧
        (¬ (r.flags = 1 ∧ first ≤ k ∧ k < first + n) → t.rd.stats[k]? = some c)) ∧
      t.rd = { s.rd with stats := t.rd.stats } ∧ Only [.mail, .rd] s t := by
  have served := (serveReadChannelStats_passes len rsv flags zero (s.accepted' 0x0301 r)).trans
    (chanStatsBody_returns hf hn ha some_n range short aligned moved _)
  have accepted := State.accepted'_only 0x0301 r s
  have same := State.accepted'_rd 0x0301 r s
  have rest := State.channelStatsWork_rest r first n addr (s.accepted' 0x0301 r)
  have work := State.channelStatsWork_only r first n addr (s.accepted' 0x0301 r)
  obtain ⟨answered, only, after⟩ := mbGo_answers_after run (by decide) work served
  have left : (mbGo 0x0301 r serveReadChannelStats s).rd = ((s.accepted' 0x0301 r).channelStatsWork r first n addr).rd := after.2 .rd (by decide)
  refine ⟨_, _, rfl, answered, State.length_channelRecords (by rwa [same, stats]), fun given => ?_,
    fun i c lt stat => State.slice_channelRecords lt (by rwa [same]), fun k c stat => ?_, by rwa [← left, same] at rest, only⟩
  · have dma := State.channelStatsWork_dma r first n (s.accepted' 0x0301 r) given
    exact State.newOut_mono (accepted.1.trans work.1) after.1 (State.newOut_right accepted.1 work.1 dma)
  · have now := State.channelStatsWork_stats r first n addr (s.accepted' 0x0301 r) flags (by rwa [same])
    rw [left, now]
    exact ⟨fun inside => by rw [if_pos inside], fun outside => by rw [if_neg outside]⟩

/-! ## SERVO_STATUS (Table 06-6) -/

/-- The answer of SERVO_STATUS. -/
def State.servoBytes (s : State) : Bytes := s.servoHead ++ leBytes 8 s.servo.offtrackCount.toNat ++ leBytes 8 s.servo.time.toNat

theorem serveServoStatus_done {r : MbReq} (len : r.len = 0) (rsv : r.rsv = 0) (plain : r.flags = 0) (s : State) :
    serveServoStatus r s = s.done r.mb s.servoBytes :=
  mbChecks_passes (by decide) (by rw [len]; rfl) rsv (.inl plain) rfl servoStatusBody s

@[simp] theorem State.length_servoBytes (s : State) : s.servoBytes.length = 64 := by simp [State.servoBytes]

theorem State.servoBytes_fields (s : State) :
    slice s.servoBytes 0 2 = [byte s.servo.mode, byte (s.servo.wrap.getD 0xFF)] ∧ getLe s.servoBytes 2 2 = s.servo.valid.toNat ∧
    slice s.servoBytes 4 4 = leBytes 4 (ofSigned 32 s.servo.o) ∧ slice s.servoBytes 24 4 = leBytes 4 (ofSigned 32 s.servo.vel) ∧
    getLe s.servoBytes 28 4 = s.servo.f.toNat ∧ slice s.servoBytes 32 8 = leBytes 8 (ofSigned 64 s.servo.lpos) ∧
    getLe s.servoBytes 48 8 = s.servo.offtrackCount.toNat ∧ getLe s.servoBytes 56 8 = s.servo.time.toNat := by
  have head : slice s.servoBytes 0 2 = [byte s.servo.mode, byte (s.servo.wrap.getD 0xFF)] := by
    simp [State.servoBytes, State.servoHead, slice, zeros]
  have skip (b : Bytes) (o n : Nat) : slice (byte s.servo.mode :: byte (s.servo.wrap.getD 0xFF) :: b) (o + 2) n = slice b o n := rfl
  refine ⟨head, ?_⟩
  simp [State.servoBytes, State.servoHead, getLe, skip, slice_append_skip, slice_append_take, slice_all, leNat_leBytes_toNat]

/-! ## SCALE_LOG_READ (Table 13-13) -/

/-- The answer of SCALE_LOG_READ: count, overflow count and entries. -/
def Hearth.scaleLogBytes (h : Hearth) : Bytes :=
  leBytes 1 h.scale.length ++ zeros 3 ++ leBytes 4 h.scaleOver.toNat ++ zeros 8 ++ fit 1024 (h.scale.flatMap ScaleEntry.bytes)

theorem scaleReadBody_eq (r : MbReq) (s : State) :
    scaleReadBody r s = (if r.flags = 1 then { s with hearth := { s.hearth with scale := [], scaleOver := 0 } } else s).done r.mb s.hearth.scaleLogBytes := rfl

@[simp] theorem Hearth.length_scaleLogBytes (h : Hearth) : h.scaleLogBytes.length = 1040 := by simp [Hearth.scaleLogBytes, zeros_length]

theorem Hearth.scaleLogBytes_count {h : Hearth} (full : h.scale.length ≤ 32) : getLe h.scaleLogBytes 0 1 = h.scale.length := by
  simp only [Hearth.scaleLogBytes, getLe, List.append_assoc]
  rw [slice_append_take (length_leBytes _ _), leNat_leBytes_of_lt (by omega)]

theorem Hearth.scaleLogBytes_overflow (h : Hearth) : getLe h.scaleLogBytes 4 4 = h.scaleOver.toNat := by
  simp [Hearth.scaleLogBytes, getLe, slice_append_skip, slice_append_take, leNat_leBytes_toNat, zeros_length]

theorem Hearth.scaleLogBytes_entry {i : Nat} {e : ScaleEntry} {h : Hearth} (full : h.scale.length ≤ 32) (entry : h.scale[i]? = some e) :
    slice h.scaleLogBytes (16 + 32 * i) 32 = e.bytes := by
  have room : (h.scale.flatMap ScaleEntry.bytes).length ≤ 1024 := by
    rw [length_flatMap_const ScaleEntry.length_bytes]; omega
  rw [Hearth.scaleLogBytes, slice_append_skip (by simp [zeros_length]), fit_of_length_le room]
  simpa [zeros_length] using slice_flatMap_append ScaleEntry.length_bytes entry _

/-! ## HEARTH_CHANNEL_STATUS (Table 13-14) -/

/-- The answer of HEARTH_CHANNEL_STATUS: the header and a record per channel. -/
def State.hearthStatusBytes (s : State) : Bytes := s.hearthHeader ++ s.hearth.chans.flatMap (fun c => c.bytes s.hearth.doubled)

theorem hearthStatusBody_eq (r : MbReq) (s : State) : hearthStatusBody r s =
    (if r.flags = 1 then { s with hearth := { s.hearth with chans := s.hearth.chans.map HChan.cleared } } else s).done r.mb s.hearthStatusBytes := rfl

theorem State.hearthStatusBytes_channel {i : Nat} {c : HChan} {s : State} (chan : s.hearth.chans[i]? = some c) :
    slice s.hearthStatusBytes (64 + 64 * i) 64 = c.bytes s.hearth.doubled := by
  rw [State.hearthStatusBytes, slice_append_skip (by simp)]
  simpa using slice_flatMap_append (HChan.length_bytes s.hearth.doubled) chan []

/-! ## COMPRESS_STATS (Table 08-6) -/

theorem State.compBytes_fields (s : State) :
    getLe s.compBytes 0 8 = s.comp.compressed.toNat ∧ getLe s.compBytes 8 8 = s.comp.stored.toNat ∧ getLe s.compBytes 16 4 = s.comp.probeAb.toNat ∧
    getLe s.compBytes 20 4 = s.comp.lateAb.toNat ∧ getLe s.compBytes 24 4 = s.comp.mismatches.toNat ∧ getLe s.compBytes 36 4 = s.comp.streamErrs.toNat ∧
    getLe s.compBytes 48 8 = s.comp.rawBytes.toNat ∧ getLe s.compBytes 56 8 = s.comp.cBytes.toNat := by
  simp [State.compBytes, getLe, slice_append_skip, slice_append_take, slice_all, leNat_leBytes_toNat, zeros_length]

theorem compStatsBody_eq {r : MbReq} (flags : r.flags = 0 ∨ r.flags = 1) (s : State) :
    compStatsBody r s = (if r.flags = 1 then { s with comp := {} } else s).done r.mb s.compBytes := by
  rcases flags with f | f <;> simp [compStatsBody, f]

/-! ## LANE_STATUS (Table 14-14) -/

/-- The answer of LANE_STATUS: the header and a record per port. -/
def Tongs.laneStatusBytes (g : Tongs) : Bytes :=
  [byte (b2n g.calFailed)] ++ zeros 7 ++ slice g.eeprom 0x10 8 ++ (g.ports.mapIdx Port.bytes).flatten

theorem laneStatusBody_eq (r : MbReq) (s : State) : laneStatusBody r s =
    (if r.flags = 1 then { s with tongs := { s.tongs with ports := s.tongs.ports.map Port.cleared } } else s).done r.mb s.tongs.laneStatusBytes := rfl

theorem Tongs.laneStatusBytes_calFailed (g : Tongs) : getLe g.laneStatusBytes 0 1 = b2n g.calFailed := by
  have bit : b2n g.calFailed < 256 := by cases g.calFailed <;> decide
  simp [Tongs.laneStatusBytes, getLe, slice, leNat, byte, Nat.mod_eq_of_lt bit, zeros]

theorem Tongs.laneStatusBytes_port {i : Nat} {c : Port} {g : Tongs} (port : g.ports[i]? = some c) :
    slice g.laneStatusBytes (16 + 64 * i) 64 = c.bytes i := by
  rw [Tongs.laneStatusBytes, slice_append_skip (by simp [zeros_length])]
  have at_i : (g.ports.mapIdx Port.bytes)[i]? = some (c.bytes i) := by simp [List.getElem?_mapIdx, port]
  have size : ∀ y ∈ g.ports.mapIdx Port.bytes, y.length = 64 := by
    intro y hy
    obtain ⟨j, hj, rfl⟩ := List.mem_mapIdx.mp hy
    exact Port.length_bytes j _
  simpa [zeros_length] using slice_flatten_append size at_i []

end Sys2Proof.Machine
end

section
open Sys2Proof Sys2Proof.Machine

/-- Settles O42: each command passes the shared checks, clears its unit if asked to and answers with the record of the state it found. -/
theorem statisticsAreReturnedAndCleared : Obligations.StatisticsAreReturnedAndCleared := by
  intro r s rsv flags
  refine ⟨fun run len zero stats => ⟨fun some_n range short aligned moved => ?channelStats, fun range => ?channelRange⟩,
    fun run len plain => ?servoStatus, fun run len => ?compressStats, fun run len full => ?scaleLog, fun run len => ?hearthStatus,
    fun run len => ?laneStatus⟩
  case channelStats =>
    exact readChannelStats_returns run len rsv flags zero stats rfl rfl rfl some_n range short aligned moved
  case channelRange =>
    have served := (serveReadChannelStats_passes len rsv flags zero (s.accepted' 0x0301 r)).trans (chanStatsBody_refuses rfl rfl rfl range _)
    obtain ⟨answered, only⟩ := mbGo_answers run served
    exact ⟨_, _, rfl, answered, only⟩
  case servoStatus =>
    obtain ⟨answered, only⟩ := mbGo_answers run (serveServoStatus_done len rsv plain _)
    obtain ⟨mode, valid, o, vel, f, lpos, count, time⟩ := State.servoBytes_fields (s.accepted' 0x0302 r)
    rw [State.accepted'_servo] at mode valid o vel f lpos count time
    exact ⟨_, _, rfl, answered, State.length_servoBytes _, mode, valid, o, vel, f, lpos, count, time, only⟩
  case compressStats =>
    obtain ⟨answered, only, cleared, kept⟩ := mbGo_statistics run (by decide) rfl len rsv flags (by decide) (fun u => State.setComp_only u {})
      (compStatsBody_eq flags)
    obtain ⟨compressed, stored, probeAb, lateAb, mismatches, streamErrs, rawBytes, cBytes⟩ := State.compBytes_fields (s.accepted' 0x0303 r)
    rw [State.accepted'_comp] at compressed stored probeAb lateAb mismatches streamErrs rawBytes cBytes
    exact ⟨_, _, rfl, answered, State.length_compBytes _, compressed, stored, probeAb, lateAb, mismatches, streamErrs, rawBytes, cBytes,
      fun clear => (cleared clear).2 .comp (by decide), fun keep => ((kept keep).2 .comp (by decide)).trans (State.accepted'_comp ..), only⟩
  case scaleLog =>
    obtain ⟨answered, only, cleared, kept⟩ := mbGo_statistics run (by decide) rfl len rsv flags (by decide) (fun u => State.setHearth_only u _)
      (scaleReadBody_eq r)
    rw [State.accepted'_hearth] at answered
    refine ⟨_, _, rfl, answered, Hearth.length_scaleLogBytes _, Hearth.scaleLogBytes_count full, Hearth.scaleLogBytes_overflow _,
      fun i e => Hearth.scaleLogBytes_entry full, fun clear => ?_, fun keep => ((kept keep).2 .hearth (by decide)).trans (State.accepted'_hearth ..), only⟩
    rw [← State.accepted'_hearth 0x0402 r s]
    exact (cleared clear).2 .hearth (by decide)
  case hearthStatus =>
    obtain ⟨answered, only, cleared, kept⟩ := mbGo_statistics run (by decide) rfl len rsv flags (by decide) (fun u => State.setHearth_only u _)
      (hearthStatusBody_eq r)
    have same := State.accepted'_hearth 0x0403 r s
    refine ⟨_, _, rfl, answered, fun i c chan => ?_, fun clear => ?_, fun keep => ((kept keep).2 .hearth (by decide)).trans same, only⟩
    · rw [← same] at chan ⊢
      exact State.hearthStatusBytes_channel chan
    · rw [← same]
      exact (cleared clear).2 .hearth (by decide)
  case laneStatus =>
    obtain ⟨answered, only, cleared, kept⟩ := mbGo_statistics run (by decide) rfl len rsv flags (by decide) (fun u => State.setTongs_only u _)
      (laneStatusBody_eq r)
    have same := State.accepted'_tongs 0x0803 r s
    rw [same] at answered
    refine ⟨_, _, rfl, answered, Tongs.laneStatusBytes_calFailed _, fun i c => Tongs.laneStatusBytes_port, fun clear => ?_,
      fun keep => ((kept keep).2 .tongs (by decide)).trans same, only⟩
    rw [← same]
    exact (cleared clear).2 .tongs (by decide)

end

section
/-! SUPPORT. A record command that is due: the checks it has passed, its end with a completion entry, and the mark that it has begun (R290,
R309, R322, R480). -/

namespace Sys2Proof.Machine

/-! ## Frames of an update of one unit -/

/-- The frames of two steps, each with its own parts. -/
theorem Only.append {bs cs : List Block} {s t u : State} (h : Only bs s t) (k : Only cs t u) : Only (bs ++ cs) s u :=
  (h.mono fun _ => List.mem_append_left cs).trans (k.mono fun _ => List.mem_append_right bs)

theorem State.setRecs_only (s : State) (x : Records) : Only [.recs] s { s with recs := x } :=
  ⟨List.prefix_refl _, fun b hb => by cases b <;> simp_all [Block.same]⟩

theorem State.setCart_only (s : State) (x : Cart) : Only [.cart] s { s with cart := x } :=
  ⟨List.prefix_refl _, fun b hb => by cases b <;> simp_all [Block.same]⟩

theorem State.setForge_only (s : State) (x : Forge) : Only [.forge] s { s with forge := x } :=
  ⟨List.prefix_refl _, fun b hb => by cases b <;> simp_all [Block.same]⟩

theorem State.setEnv_only (s : State) (x : Env) : Only [] s { s with env := x } :=
  ⟨List.prefix_refl _, fun b _ => by cases b <;> rfl⟩

theorem State.modCmd_only (q tag : Nat) (f : Cmd → Cmd) (s : State) : Only [.recs] s (s.modCmd q tag f) := State.setRecs_only _ _

/-! ## Commands that have begun -/

/-- A command with the mark that it has begun. -/
def Cmd.begun (c : Cmd) : Cmd := { c with started := true }

theorem State.cmd?_key {q tag : Nat} {c : Cmd} {s : State} (h : s.cmd? q tag = some c) : c.pair = q ∧ c.tag = tag := by
  simpa using List.find?_some h

/-- The command of a pair and tag after an update of it that keeps what it is found by. -/
theorem State.cmd?_modCmd_self {q tag : Nat} {f : Cmd → Cmd} (pair : ∀ c, (f c).pair = c.pair) (tags : ∀ c, (f c).tag = c.tag) {c : Cmd} {s : State}
    (h : s.cmd? q tag = some c) : (s.modCmd q tag f).cmd? q tag = some (f c) := by
  have found : (fun d : Cmd => decide (d.pair = q) && decide (d.tag = tag)) ∘ (fun d => if d.pair = q && d.tag = tag then f d else d) =
      fun d => decide (d.pair = q) && decide (d.tag = tag) := by
    funext d
    by_cases here : (d.pair = q && d.tag = tag) = true
    · rw [Function.comp_apply, if_pos here, pair, tags]
    · rw [Function.comp_apply, if_neg here]
  obtain ⟨rfl, rfl⟩ := State.cmd?_key h
  rw [State.cmd?, State.modCmd, List.find?_map, found, show s.recs.cmds.find? _ = some c from h]
  simp

/-- The only outstanding LOCATE, once begun, is the one that waits for the tape. -/
theorem State.waitingLocate_begun {c : Cmd} {s : State} (outstanding : c ∈ s.recs.cmds) (code : c.op = 0x07)
    (only : ∀ d ∈ s.recs.cmds, d.op = 0x07 → d = c) : (s.modCmd c.pair c.tag Cmd.begun).waitingLocate = some c.begun := by
  have unique : ∀ d ∈ (s.modCmd c.pair c.tag Cmd.begun).recs.cmds, d.op = 0x07 → d = c.begun := by
    intro d mem locate
    obtain ⟨e, he, rfl⟩ := List.mem_map.mp mem
    split at locate
    · rw [if_pos ‹_›, only e he locate]
    · obtain rfl := only e he locate
      simp_all
  have begun : c.begun ∈ (s.modCmd c.pair c.tag Cmd.begun).recs.cmds := List.mem_map.mpr ⟨c, outstanding, by simp⟩
  cases waits : (s.modCmd c.pair c.tag Cmd.begun).waitingLocate with
  | none => exact absurd (List.find?_eq_none.mp waits _ begun) (by simp [Cmd.begun, code])
  | some d =>
    have locate : d.op = 0x07 ∧ d.started = true := by simpa using List.find?_some waits
    rw [unique d (List.mem_of_find?_eq_some waits) locate.1]

/-! ## A command that is due -/

section
variable {op : Nat} {q : Fin 256} {tag : BitVec 16} {io : Io} {s : State} {c : Cmd} {p : Pair} (due : s.Executes op q tag io c p)
include due

theorem State.Executes.key : c.pair = q.val ∧ c.tag = tag.toNat := State.cmd?_key due.cmd

/-- A command that is due does what is its own. -/
theorem State.Executes.recCmd_eq (body : Cmd → State → State) : recCmd op q tag io body s = body c (s.withPairIo q io) := by
  have checks : (s.withPairIo q io).commonCheck c p.rev = none := due.checks
  simp [recCmd, due.cmd, due.pair, due.code, due.admitted, due.live, due.served, checks]

/-- Its end, in a state that has neither put anything out nor touched a pair: the completion, the commands left, the frame. -/
theorem State.Executes.ends {u : State} {d : Cmd} (pairs : u.pairs = s.pairs) (out : u.out = s.out) (env : u.env = (s.withPairIo q io).env)
    (outstanding : u.cmd? q tag.toNat = some d) (st : BitVec 16) (res ext : Nat) :
    Completed q tag.toNat st res ext s (c.end st res ext u) ∧ (c.end st res ext u).recs = (u.dropCmd q tag.toNat).recs ∧
      Only [.pairs, .recs] u (c.end st res ext u) := by
  have same (k : Nat) : u.pair? k = s.pair? k := by rw [State.pair?, State.pair?, pairs]
  have writes : q.val ∉ u.env.cqFail := by simp [env, State.withPairIo, due.writes]
  have completes := State.complete_spec ((same q).trans due.pair) outstanding due.live writes st res ext
  obtain ⟨pair, tags⟩ := due.key
  rw [← pair, ← tags] at completes ⊢
  obtain ⟨⟨entry, gone, others⟩, recs, only⟩ := completes
  simp only [State.newOut, out, same] at entry others
  exact ⟨⟨entry, gone, others⟩, recs, only⟩

/-- A command that is answered without any other effect (R290). -/
theorem State.Executes.answered (st : BitVec 16) (res ext : Nat) :
    Completed q tag.toNat st res ext s (c.end st res ext (s.withPairIo q io)) ∧
      (c.end st res ext (s.withPairIo q io)).recs = { s.recs with cmds := (c.end st res ext (s.withPairIo q io)).recs.cmds } ∧
      Only [.pairs, .recs] s (c.end st res ext (s.withPairIo q io)) := by
  obtain ⟨completed, recs, only⟩ := due.ends (u := s.withPairIo q io) rfl rfl rfl due.cmd st res ext
  exact ⟨completed, by rw [recs]; rfl, (State.setEnv_only s _).append only⟩

/-- It is found with the mark that it has begun. -/
theorem State.Executes.cmd?_begun : (s.modCmd c.pair c.tag Cmd.begun).cmd? q tag.toNat = some c.begun := by
  obtain ⟨pair, tags⟩ := due.key
  rw [pair, tags]
  exact State.cmd?_modCmd_self (f := Cmd.begun) (fun _ => rfl) (fun _ => rfl) due.cmd

end

end Sys2Proof.Machine
end

section
/-! SUPPORT. The beginning of a LOCATE and of a RECORD READ (R205, R212, R264, R322 to R325). -/

namespace Sys2Proof.Machine

/-- While the formatter writes, what needs the tape asks writing to end (R322). -/
theorem State.endWriting_writing {s : State} (writing : s.forge.writing = true) :
    s.endWriting = { s with forge := { s.forge with ending := true } } := if_pos writing

theorem State.preemptRead_none {s : State} (reads : s.rd.jobs = []) : s.preemptRead = s := by
  simp only [State.preemptRead, reads]

section
variable {c : Cmd} {s : State}

theorem locateBody_openRecord (write : bitAt c.dwA 0 = true) (opened : s.recsIn .opened ≠ []) :
    locateBody c s = c.end Status.sequenceError 0 0 s := by
  simp [locateBody, write, opened]

theorem locateBody_writing (read : bitAt c.dwA 0 = false) (writing : s.forge.writing = true) :
    locateBody c s = { s.modCmd c.pair c.tag Cmd.begun with forge := { s.forge with ending := true } } := by
  have begun : (s.modCmd c.pair c.tag Cmd.begun).forge.writing = true := writing
  calc locateBody c s = (s.modCmd c.pair c.tag Cmd.begun).endWriting := by simp [locateBody, read, writing]; rfl
    _ = _ := State.endWriting_writing begun

/-- A LOCATE(write) that can have the record limit and the tape waits for the tape and gets it at once (R323, R324). -/
theorem locateBody_recordLimit (write : bitAt c.dwA 0 = true) (closed : s.recsIn .opened = []) (valid : s.cart.image.eodValid = true)
    (limit : c.num = s.cart.image.recordLimit) (idle : s.forge.writing = false) (reads : s.rd.jobs = []) :
    locateBody c s = (s.modCmd c.pair c.tag Cmd.begun).pumpTape := by
  have unread : (s.modCmd c.pair c.tag Cmd.begun).preemptRead = s.modCmd c.pair c.tag Cmd.begun := State.preemptRead_none reads
  rw [← unread]
  simp [locateBody, write, closed, valid, limit, idle]
  rfl

/-- The tape goes to a LOCATE that waits when nothing holds the tape and no search was asked for (R322). -/
theorem State.pumpTape_locate {d : Cmd} (idle : s.forge.writing = false) (searching : s.cart.searching = false)
    (checking : s.cart.eodChecking = false) (locate : s.rd.locate = none) (pending : s.cart.searchPending = false)
    (waits : s.waitingLocate = some d) : s.pumpTape = beginLocate d s := by
  simp [State.pumpTape, idle, searching, checking, locate, pending, waits]

/-- The state in which a LOCATE(write) to the record limit has set the write start point (R324). -/
def State.startAtLimit (c : Cmd) (s : State) : State :=
  { s with recs := { s.recs with startSet := some c.num }, cart := { s.cart with startPos := none } }

theorem State.startAtLimit_only : Only [.recs, .cart] s (s.startAtLimit c) :=
  (State.setRecs_only s { s.recs with startSet := some c.num }).append (State.setCart_only _ { s.cart with startPos := none })

/-- At a known end of data, a LOCATE(write) to the record limit is answered with the append position, and the write start point is the
record limit (R324, log 82). -/
theorem beginLocate_recordLimit (write : bitAt c.dwA 0 = true) (valid : s.cart.image.eodValid = true)
    (limit : c.num = s.cart.image.recordLimit) (pending : s.cart.searchPending = false) (checked : s.cart.eodChecked = true) :
    beginLocate c s = c.end Status.success (s.cart.appendPos.wrap + s.cart.appendPos.heat * 256) (ofSigned 32 s.cart.appendPos.lpos) (s.startAtLimit c) := by
  simp [beginLocate, State.searchFirst, State.eodFirst, State.startAtLimit, write, valid, limit, pending, checked]

/-- The read that a RECORD READ queues (R325). -/
def Cmd.readJob (c : Cmd) (cut : Bool) : ReadJob :=
  { pair := c.pair, tag := c.tag, num := c.num, first := c.dwA % 2 ^ 14, count := c.dwB, cut := cut, addr := BitVec.ofNat 64 c.addr, len := c.xferLen,
    report := BitVec.ofNat 64 c.report }

/-- The state in which a read has been queued last and no write start point is left (R324, R325). -/
def State.queueRead (c : Cmd) (j : ReadJob) (s : State) : State :=
  { s with recs := { (s.modCmd c.pair c.tag Cmd.begun).recs with startSet := none }, cart := { s.cart with startPos := none },
           rd := { s.rd with jobs := s.rd.jobs ++ [j] } }

theorem State.queueRead_only (j : ReadJob) : Only [.recs, .cart, .rd] s (s.queueRead c j) :=
  ⟨List.prefix_refl _, fun b hb => by cases b <;> simp_all [Block.same, State.queueRead]⟩

variable (new : ∀ j ∈ s.rd.jobs, ¬ (j.pair = c.pair ∧ j.tag = c.tag))
include new

theorem readBody_cutThrough (cut : bitAt c.dwA 16 = true) (approved : s.sec.approved = true) :
    readBody c s = c.end Status.cutThroughRefused 0 0 s := by
  simp_all [readBody, State.cutRefused]

theorem readBody_writing (whole : bitAt c.dwA 16 = false) (writing : s.forge.writing = true) :
    readBody c s = { s.queueRead c (c.readJob false) with forge := { s.forge with ending := true } } := by
  have queued : (s.queueRead c (c.readJob false)).forge.writing = true := writing
  have unqueued : ¬ s.rd.jobs.any (fun j => j.pair = c.pair && j.tag = c.tag) = true := by simpa using new
  calc readBody c s = (s.queueRead c (c.readJob false)).endWriting := by
        simp [readBody, unqueued, whole, State.cancelStart, writing]; rfl
    _ = _ := State.endWriting_writing queued

end

section
variable {q : Fin 256} {tag : BitVec 16} {io : Io} {s : State} {c : Cmd} {p : Pair}

/-- LOCATE(write) to the record limit with the tape free (R323, R324, log 82). -/
theorem locate_recordLimit (due : s.Executes 0x07 q tag io c p) (write : bitAt c.dwA 0 = true) (closed : s.recsIn .opened = [])
    (valid : s.cart.image.eodValid = true) (limit : c.num = s.cart.image.recordLimit) (idle : s.forge.writing = false) (reads : s.rd.jobs = [])
    (locate : s.rd.locate = none) (searching : s.cart.searching = false) (checking : s.cart.eodChecking = false)
    (pending : s.cart.searchPending = false) (checked : s.cart.eodChecked = true) (only : ∀ d ∈ s.recs.cmds, d.op = 0x07 → d = c) :
    ∃ t, exec (.locate q tag io) s = .next t ∧
      Completed q tag.toNat Status.success (s.cart.appendPos.wrap + s.cart.appendPos.heat * 256) (ofSigned 32 s.cart.appendPos.lpos) s t ∧
      t.recs.startSet = some c.num ∧ t.recs.recs = s.recs.recs ∧ Only [.pairs, .recs, .cart] s t := by
  let u := (s.withPairIo q io).modCmd c.pair c.tag Cmd.begun
  have waits : u.waitingLocate = some c.begun := State.waitingLocate_begun (List.mem_of_find?_eq_some due.cmd) due.code only
  have asks : locateBody c (s.withPairIo q io) = u.pumpTape := locateBody_recordLimit write closed valid limit idle reads
  have gets : u.pumpTape = beginLocate c.begun u := State.pumpTape_locate idle searching checking locate pending waits
  have run := ((due.recCmd_eq locateBody).trans asks).trans (gets.trans (beginLocate_recordLimit write valid limit pending checked))
  obtain ⟨completed, recs, frame⟩ := due.ends (u := u.startAtLimit c) rfl rfl rfl due.cmd?_begun Status.success
    (s.cart.appendPos.wrap + s.cart.appendPos.heat * 256) (ofSigned 32 s.cart.appendPos.lpos)
  have before : Only [.recs, .recs, .cart] s (u.startAtLimit c) :=
    ((State.setEnv_only s _).append (State.modCmd_only c.pair c.tag Cmd.begun _)).append State.startAtLimit_only
  have start := congrArg Records.startSet recs
  have kept := congrArg Records.recs recs
  exact ⟨_, congrArg Host.Outcome.next run, completed, start, kept, (before.append frame).mono (by simp)⟩

/-- LOCATE while the formatter writes (R322). -/
theorem locate_writing (due : s.Executes 0x07 q tag io c p) (read : bitAt c.dwA 0 = false) (writing : s.forge.writing = true) :
    ∃ t, exec (.locate q tag io) s = .next t ∧ t.cmd? q tag.toNat = some { c with started := true } ∧
      t.recs = { s.recs with cmds := t.recs.cmds } ∧ t.forge = { s.forge with ending := true } ∧ Only [.recs, .forge] s t :=
  ⟨_, congrArg Host.Outcome.next ((due.recCmd_eq _).trans (locateBody_writing read writing)), due.cmd?_begun, rfl, rfl,
    ((State.setEnv_only s _).append (State.setRecs_only _ _)).append (State.setForge_only _ _)⟩

/-- RECORD READ while the formatter writes (R205, R322, R325). -/
theorem recordRead_writing (due : s.Executes 0x08 q tag io c p) (writing : s.forge.writing = true)
    (new : ∀ j ∈ s.rd.jobs, ¬ (j.pair = c.pair ∧ j.tag = c.tag)) (whole : bitAt c.dwA 16 = false) :
    ∃ (t : State) (j : ReadJob), exec (.recordRead q tag io) s = .next t ∧ t.rd = { s.rd with jobs := s.rd.jobs ++ [j] } ∧ j.pair = q ∧
      j.tag = tag.toNat ∧ j.num = c.num ∧ j.first = c.dwA % 2 ^ 14 ∧ j.count = c.dwB ∧ j.cut = false ∧ j.addr = BitVec.ofNat 64 c.addr ∧
      j.len = c.xferLen ∧ j.report = BitVec.ofNat 64 c.report ∧ t.cmd? q tag.toNat = some { c with started := true } ∧
      t.recs.startSet = none ∧ t.recs.recs = s.recs.recs ∧ t.forge = { s.forge with ending := true } ∧ Only [.recs, .forge, .rd, .cart] s t :=
  ⟨_, c.readJob false, congrArg Host.Outcome.next ((due.recCmd_eq _).trans (readBody_writing new whole writing)), rfl, due.key.1, due.key.2, rfl, rfl, rfl,
    rfl, rfl, rfl, rfl, due.cmd?_begun, rfl, rfl, rfl,
    (((State.setEnv_only s _).append (State.queueRead_only _)).append (State.setForge_only _ _)).mono (by simp)⟩

end

end Sys2Proof.Machine
end

section
open Sys2Proof Sys2Proof.Machine

/-- Settles O32: a due command does its own; each clause is one way in which a LOCATE or a RECORD READ begins. -/
theorem locateAndRecordReadStart : Obligations.LocateAndRecordReadStart := by
  intro q tag io s c p
  refine ⟨locate_recordLimit, fun due write opened => ?openRecord, locate_writing, recordRead_writing, fun due new cut approved => ?cutThrough⟩
  case openRecord =>
    exact ⟨_, congrArg Host.Outcome.next ((due.recCmd_eq _).trans (locateBody_openRecord write opened)), due.answered Status.sequenceError 0 0⟩
  case cutThrough =>
    exact ⟨_, congrArg Host.Outcome.next ((due.recCmd_eq _).trans (readBody_cutThrough new cut approved)),
      due.answered Status.cutThroughRefused 0 0⟩

end

section
/-! SUPPORT. Motion requests and positioning (R142, R207, R214): what they change, and that no mailbox is answered by them. -/

namespace Sys2Proof.Machine

theorem State.setMotion_only (s : State) (x : Motion) : Only [.motion] s { s with motion := x } :=
  ⟨List.prefix_refl _, fun b hb => by cases b <;> simp_all [Block.same]⟩

theorem State.signal_no_response (v m : Nat) (s : State) : Output.response m ∉ s.newOut (s.signal v) := by
  unfold State.signal
  split
  · simp
  · split
    · simp [State.newOut]
    · simp

/-- An output that is no mailbox's answer, then a signal. -/
theorem State.emit_signal_no_response {s u : State} {o : Output} {m : Nat} (v : Nat) (same : u.out = s.out) (other : Output.response m ≠ o) :
    Output.response m ∉ s.newOut ((u.emit o).signal v) := by
  have first : s.out <+: (u.emit o).out := ⟨[o], by simp [same]⟩
  rw [State.newOut_trans first (State.signal_only v _).1, List.mem_append, not_or]
  exact ⟨by simp [State.newOut, same, other], State.signal_no_response v m _⟩

section
variable (q m w : Nat) (mm : Int) (r : MotionReq) (s : State)

theorem State.writeMotion_only : Only [.motion, .pairs] s (s.writeMotion q r) := by
  unfold State.writeMotion
  split
  · exact .refl _ _
  · exact (((State.modPair_only q _ s).append (State.setMotion_only _ _)).append ((State.emit_only _ _).append (State.signal_only q _))).mono (by simp)

theorem State.writeMotion_no_response : Output.response m ∉ s.newOut (s.writeMotion q r) := by
  unfold State.writeMotion
  split
  · simp
  · exact State.emit_signal_no_response q rfl (by simp)

theorem State.motionReq_only : Only [.motion, .pairs] s (s.motionReq r) := by
  have hold : Only [.motion, .pairs] s { s with motion := { s.motion with held := holdMotion s.motion.held r } } :=
    (State.setMotion_only s _).mono (by simp)
  unfold State.motionReq
  split
  · exact hold
  · split
    · exact .refl _ _
    · exact .ite hold (State.writeMotion_only _ r s)

theorem State.motionReq_no_response : Output.response m ∉ s.newOut (s.motionReq r) := by
  unfold State.motionReq
  split
  · simp [State.newOut]
  · split
    · simp
    · split
      · simp [State.newOut]
      · exact State.writeMotion_no_response _ m r s

/-- The state in which a position's motion is requested. -/
def State.towards (s : State) : State :=
  { s.applyParams .reread with
    heat := { s.heat with wrap := w }, rd := { s.rd with reading := true, streaming := false, raStopped := false } }

theorem State.towards_only : Only [.params, .heat, .rd] s (s.towards w) :=
  ⟨List.prefix_refl _, fun b hb => by cases b <;> simp_all [Block.same, State.towards, State.applyParams]⟩

theorem State.positionFor_after_towards : Only [.motion, .pairs] (s.towards w) (s.positionFor w mm) := State.motionReq_only _ _

theorem State.positionFor_only : Only [.params, .heat, .rd, .motion, .pairs] s (s.positionFor w mm) :=
  (State.towards_only w s).append (State.positionFor_after_towards w mm s)

/-- The end-of-data search as it begins, before its motion. -/
def State.searchBegun : State :=
  { s.clearReadAhead with
    cart := { s.cart with searching := true },
    rd := { s.clearReadAhead.rd with
      locate := none, nextHeat := heatKey s.cart.image.syncedPos.wrap s.cart.image.syncedPos.heat, heatNow := s.cart.image.syncedPos.heat,
      lastFrame := s.cart.image.syncedPos.heat, scanned := 0, parseNext := some s.cart.image.syncedPos.serial } }

theorem State.startSearch_eq : s.startSearch = s.searchBegun.positionFor s.cart.image.syncedPos.wrap s.cart.image.syncedPos.lpos := rfl

end
end Sys2Proof.Machine
end

section
/-! SUPPORT. The end-of-data search's beginning and the tape when nobody waits for it (R205, R216, R218, R220). -/

namespace Sys2Proof.Machine

section
variable (s : State)

theorem State.searchBegun_only : Only [.cart, .rd] s s.searchBegun :=
  ⟨List.prefix_refl _, fun b hb => by cases b <;> simp_all [Block.same, State.searchBegun, State.clearReadAhead]⟩

theorem State.startSearch_only : Only [.cart, .rd, .params, .heat, .motion, .pairs] s s.startSearch := by
  rw [State.startSearch_eq]
  exact ((State.searchBegun_only s).append (State.positionFor_only _ _ _)).mono (by simp)

theorem State.startSearch_cart : s.startSearch.cart = { s.cart with searching := true } :=
  (State.positionFor_only _ _ _).2 .cart (by simp)

theorem State.startSearch_reading : s.startSearch.rd.reading = true :=
  congrArg ReadSide.reading ((State.positionFor_after_towards _ _ _).2 .rd (by simp))

theorem State.startSearch_parseNext : s.startSearch.rd.parseNext = some s.cart.image.syncedPos.serial :=
  congrArg ReadSide.parseNext ((State.positionFor_after_towards _ _ _).2 .rd (by simp))

theorem State.startSearch_heat : s.startSearch.heat = { s.heat with wrap := s.cart.image.syncedPos.wrap } :=
  (State.positionFor_after_towards _ _ _).2 .heat (by simp)

theorem State.startSearch_no_response (m : Nat) : Output.response m ∉ s.newOut s.startSearch :=
  State.motionReq_no_response m _ (s.searchBegun.towards s.cart.image.syncedPos.wrap)

end

/-! ## Nobody waits for the tape -/

/-- Nothing waits for the tape: no search, no read, no LOCATE, no record to be formed, no CART_UNLOAD. -/
structure State.NoneWaits (s : State) : Prop where
  search : s.cart.searchPending = false
  reads : s.rd.jobs = []
  locate : s.waitingLocate = none
  formed : s.formable = false
  unload : s.unloadMb = none

theorem State.unloadMb_congr {s t : State} (mail : t.mail = s.mail) : t.unloadMb = s.unloadMb := by
  unfold State.unloadMb State.mbox
  rw [mail]

theorem State.waitingLocate_congr {s t : State} (cmds : t.recs.cmds = s.recs.cmds) : t.waitingLocate = s.waitingLocate := by
  rw [State.waitingLocate, cmds]; rfl

theorem State.formable_congr {s t : State} (recs : t.recs.recs = s.recs.recs) : t.formable = s.formable := by
  simp only [State.formable, State.recsIn, State.lowestOpen, recs]

/-- Waiting is a matter of the pending search, the queued reads, the records and commands, and the mailboxes. -/
theorem State.NoneWaits.congr {s t : State} (nobody : s.NoneWaits) (search : t.cart.searchPending = false) (reads : t.rd.jobs = s.rd.jobs)
    (recs : t.recs.recs = s.recs.recs) (cmds : t.recs.cmds = s.recs.cmds) (unload : t.unloadMb = none) : t.NoneWaits where
  search := search
  reads := reads.trans nobody.reads
  locate := (State.waitingLocate_congr cmds).trans nobody.locate
  formed := (State.formable_congr recs).trans nobody.formed
  unload := unload

theorem State.pumpReads_nil {s : State} (reads : s.rd.jobs = []) : s.pumpReads = s := by
  simp only [State.pumpReads, pumpReadsN, reads]

theorem State.beginWriting_unformed {s : State} (formed : s.formable = false) : s.beginWriting = s := by
  simp [State.beginWriting, State.startWriting, formed]

theorem State.NoneWaits.pumpTape_eq {s : State} (nobody : s.NoneWaits) : s.pumpTape = s := by
  simp [State.pumpTape, nobody.search, nobody.locate, State.pumpReads_nil nobody.reads, State.beginWriting_unformed nobody.formed, nobody.unload]

/-- Reading is over: the tape stops, and a speed request is dropped. -/
def State.reelIn (s : State) : State :=
  let u := { s with rd := { s.rd with reading := false, streaming := false } }
  (if u.tapeStopped then u else u.stopTape).dropSpeedRequest

theorem State.leaveTape_eq (s : State) : s.leaveTape = s.reelIn.pumpTape := rfl

theorem State.reelIn_after_reading (s : State) :
    Only [.motion, .pairs, .blw] { s with rd := { s.rd with reading := false, streaming := false } } s.reelIn :=
  .append (.ite (.refl _ _) (State.motionReq_only _ _)) (State.setBlw_only _ _)

theorem State.reelIn_only (s : State) : Only [.rd, .motion, .pairs, .blw] s s.reelIn :=
  (State.setRd_only s _).append (State.reelIn_after_reading s)

/-- When nobody waits for the tape, the end of a check or a search leaves it. -/
theorem State.NoneWaits.leaveTape_only {s : State} (nobody : s.NoneWaits) : Only [.rd, .motion, .pairs, .blw] s s.leaveTape := by
  have frame := State.reelIn_only s
  have cart : s.reelIn.cart = s.cart := frame.2 .cart (by simp)
  have recs : s.reelIn.recs = s.recs := frame.2 .recs (by simp)
  have mail : s.reelIn.mail = s.mail := frame.2 .mail (by simp)
  have reads := congrArg ReadSide.jobs ((State.reelIn_after_reading s).2 .rd (by simp))
  have still : s.reelIn.NoneWaits := nobody.congr (by rw [cart]; exact nobody.search) reads (by rw [recs]) (by rw [recs])
    ((State.unloadMb_congr mail).trans nobody.unload)
  rwa [State.leaveTape_eq, still.pumpTape_eq]

end Sys2Proof.Machine
end

section
/-! SUPPORT. What the check of the EOD block and the end of the search leave (R216, R217, R219, R220, Table 07-5). -/

namespace Sys2Proof.Machine

@[simp] theorem TapePos.length_bytes (p : TapePos) : p.bytes.length = 16 := by simp [TapePos.bytes, zeros_length]
@[simp] theorem EodResult.length_bytes (e : EodResult) : e.bytes.length = 48 := by simp [EodResult.bytes, zeros_length]

/-! ## Reports -/

/-- A report of a step's second half is one of the step, where the first half held no event of its code. -/
theorem Reported.of_after {code a b : Nat} {s u t : State} (first : s.out <+: u.out) (second : u.out <+: t.out)
    (held : ∀ g ∈ u.evq.held, g.code = BitVec.ofNat 16 code → g ∈ s.evq.held) (h : Reported code a b u t) : Reported code a b s t := by
  rcases h with ⟨e, ph, out, what⟩ | ⟨e, waits, own, why⟩
  · exact .inl ⟨e, ph, State.newOut_right first second out, what⟩
  · refine .inr ⟨e, waits, own, why.imp_right ?_⟩
    rintro ⟨g, old, same, less⟩
    exact ⟨g, held g old (same.trans own), same, less⟩

/-- A report stands while the event queue is left alone. -/
theorem Reported.mono {code a b : Nat} {s t v : State} (first : s.out <+: t.out) (second : t.out <+: v.out) (evq : v.evq = t.evq)
    (h : Reported code a b s t) : Reported code a b s v := by
  rcases h with ⟨e, ph, out, what⟩ | ⟨e, waits, what⟩
  · exact .inl ⟨e, ph, State.newOut_left first second out, what⟩
  · exact .inr ⟨e, by rw [evq]; exact waits, what⟩

/-- Holding an event leaves the held events of other codes. -/
theorem State.holdEvent_others {e g : Event} {s : State} (here : g ∈ (s.holdEvent e).evq.held) (other : g.code ≠ e.code) : g ∈ s.evq.held := by
  have listed : g ∈ (if s.evq.held.any (fun h => h.code = e.code && e.code ≠ 0x0001) then
      s.evq.held.map (fun h => if h.code = e.code && e.code ≠ 0x0001 then { h with count := h.count + e.count } else h)
      else s.evq.held ++ [e]) := by
    unfold State.holdEvent at here
    dsimp only at here
    split at here <;> exact here
  split at listed
  · obtain ⟨h, mem, rfl⟩ := List.mem_map.mp listed
    split at other
    · simp_all
    · rwa [if_neg ‹_›]
  · rcases List.mem_append.mp listed with old | new
    · exact old
    · exact absurd (congrArg Event.code (List.mem_singleton.mp new)) other

theorem State.writeEvent_held (e : Event) (s : State) : (s.writeEvent e).evq.held = s.evq.held := by
  have quiet (o : Output) (n : Nat) (p : Bytes) (m : MirrorItem) (u : State) : (((u.emit o).order n p).mirror m).evq = u.evq :=
    (((State.emit_only o u).trans (State.order_only n p _)).trans (State.mirror_only m _)).2 .evq (by simp)
  have signals (u : State) : (u.signal 256).evq = u.evq := (State.signal_only 256 u).2 .evq (by simp)
  unfold State.writeEvent
  dsimp only
  rw [signals]
  split <;> simp only [quiet]

/-- An event leaves the held events of other codes. -/
theorem State.event_others {code a b : Nat} {g : Event} {s : State} (here : g ∈ (s.event code a b).evq.held) (other : g.code ≠ BitVec.ofNat 16 code) :
    g ∈ s.evq.held := by
  have mirrored (m : MirrorItem) : (s.mirror m).evq = s.evq := (State.mirror_only m s).2 .evq (by simp)
  unfold State.event State.postEvent at here
  dsimp only at here
  split at here
  · simpa only [mirrored] using State.holdEvent_others here other
  · split at here
    · simpa only [mirrored] using State.holdEvent_others here other
    · rwa [State.writeEvent_held, mirrored] at here

/-! ## An image is issued (R76) -/

theorem State.issueImage_only (s : State) : Only [.cart, .evq] s s.issueImage :=
  (State.setCart_only s _).append ((State.mirror_only _ _).append (State.event_only _ _ _ _ (by decide)))

/-- An issued image takes a new sequence number and counts as the last. -/
theorem State.issueImage_cart (s : State) : ∃ seq, s.issueImage.cart = { s.cart with
    image := { s.cart.image with seq := seq }, issued := ({ s.cart.image with seq := seq } :: s.cart.issued).take 8, lastIssued := some seq,
    changed := false } :=
  ⟨_, ((State.mirror_only _ _).append (State.event_only _ _ _ _ (by decide))).2 .cart (by simp)⟩

/-- Only LEDGER_ISSUED joins the held events. -/
theorem State.issueImage_others {g : Event} {s : State} (here : g ∈ s.issueImage.evq.held) (other : g.code ≠ 0x0303) : g ∈ s.evq.held := by
  have old := State.event_others here other
  rwa [(State.mirror_only _ _).2 .evq (by simp)] at old

/-! ## The answers to the mailboxes that waited (R220) -/

theorem answerSearch_only (l : List Nat) (s : State) : Only [.mail] s (answerSearch l s) := by
  induction l generalizing s with
  | nil => exact .refl _ _
  | cons m r ih => exact (State.respond_only _ _ _ _ s).trans (ih _)

/-- An answer takes a mailbox from those in which a CART_UNLOAD waits. -/
theorem State.respond_unloadMb {m : Nat} {st : BitVec 16} {d : Nat} {p : Bytes} {s : State} (nobody : s.unloadMb = none) :
    (s.respond m st d p).unloadMb = none := by
  have box (k : Nat) : (s.respond m st d p).mbox k = s.mbox k ∨ ((s.respond m st d p).mbox k).state = 2 := by
    unfold State.mbox
    rw [(State.respond_spec m st d p s).1, getElem?_modAt]
    split
    · cases s.mail[k]? with
      | none => exact .inl rfl
      | some b => exact .inr rfl
    · exact .inl rfl
  refine List.find?_eq_none.mpr fun k mem => ?_
  rcases box k with same | done
  · simpa only [same] using List.find?_eq_none.mp nobody k mem
  · simp [done]

theorem answerSearch_unloadMb {s : State} (nobody : s.unloadMb = none) (l : List Nat) : (answerSearch l s).unloadMb = none := by
  induction l generalizing s with
  | nil => exact nobody
  | cons m r ih => exact ih (State.respond_unloadMb nobody)

/-! ## EOD_SEARCH (R220) -/

theorem serveEodSearch_eq {r : MbReq} (len : r.len = 0) (plain : Plain r) (s : State) : serveEodSearch r s = eodSearchBody r s :=
  mbChecks_passes (by decide) (by rw [len]; rfl) plain.1 (.inl plain.2) rfl eodSearchBody s

theorem State.accepted'_cart (op : Nat) (r : MbReq) (s : State) : (s.accepted' op r).cart = s.cart := (State.accepted'_only op r s).2 .cart (by simp)
theorem State.accepted'_forge (op : Nat) (r : MbReq) (s : State) : (s.accepted' op r).forge = s.forge := (State.accepted'_only op r s).2 .forge (by simp)
theorem State.accepted'_heat (op : Nat) (r : MbReq) (s : State) : (s.accepted' op r).heat = s.heat := (State.accepted'_only op r s).2 .heat (by simp)

/-- The state in which a mailbox's EOD_SEARCH waits for the search (R220). -/
def State.searchAsked (m : Nat) (s : State) : State := { s with cart := { s.cart with searchMb := s.cart.searchMb ++ [m] } }

/-- A search that a host asks for gets the tape first (R220). -/
theorem State.pumpTape_search {s : State} (idle : s.forge.writing = false) (searching : s.cart.searching = false)
    (checking : s.cart.eodChecking = false) (locate : s.rd.locate = none) (pending : s.cart.searchPending = true) (asked : s.cart.searchMb ≠ []) :
    s.pumpTape = s.startSearch := by
  simp [State.pumpTape, idle, searching, checking, locate, pending, asked]

section
variable {r : MbReq} {s : State} (plain : Plain r) (run : s.Serves 0x0205 r) (len : r.len = 0)
include plain run len

/-- EOD_SEARCH with no search pending or running. -/
theorem eodSearch_last (pending : s.cart.searchPending = false) (searching : s.cart.searching = false) :
    ∃ t, exec (.eodSearch r) s = .next t ∧ Answered 0x0205 r Status.success 0 s.cart.eod.bytes s t ∧ s.cart.eod.bytes.length = 48 ∧
      Only [.mail] s t := by
  have served : serveEodSearch r (s.accepted' 0x0205 r) = (s.accepted' 0x0205 r).respond r.mb Status.success 0 s.cart.eod.bytes := by
    rw [serveEodSearch_eq len plain]
    simp [eodSearchBody, State.accepted'_cart, pending, searching, State.done]
  obtain ⟨answered, only⟩ := mbGo_answers run served
  exact ⟨_, rfl, answered, EodResult.length_bytes _, only⟩

/-- EOD_SEARCH with a search pending and the tape free. -/
theorem eodSearch_begins (pending : s.cart.searchPending = true) (searching : s.cart.searching = false) (checking : s.cart.eodChecking = false)
    (idle : s.forge.writing = false) (locate : s.rd.locate = none) :
    ∃ t, exec (.eodSearch r) s = .next t ∧ Underway 0x0205 r s t ∧
      t.cart = { s.cart with searching := true, searchMb := s.cart.searchMb ++ [r.mb.val] } ∧
      t.rd.reading = true ∧ t.rd.parseNext = some s.cart.image.syncedPos.serial ∧ t.heat = { s.heat with wrap := s.cart.image.syncedPos.wrap } ∧
      Only [.mail, .cart, .rd, .heat, .params, .motion, .pairs] s t := by
  let u := s.accepted' 0x0205 r
  let v := u.searchAsked r.mb.val
  have cart : u.cart = s.cart := State.accepted'_cart _ _ _
  have forge : u.forge = s.forge := State.accepted'_forge _ _ _
  have heat : u.heat = s.heat := State.accepted'_heat _ _ _
  have rd : u.rd = s.rd := State.accepted'_rd _ _ _
  have asks : serveEodSearch r u = v.pumpTape := by
    rw [serveEodSearch_eq len plain]
    exact if_pos (by simp [cart, pending])
  have gets : v.pumpTape = v.startSearch :=
    State.pumpTape_search (by rwa [← forge] at idle) (by rwa [← cart] at searching) (by rwa [← cart] at checking) (by rwa [← rd] at locate)
      (by rwa [← cart] at pending) (by simp [v, State.searchAsked])
  have go : exec (.eodSearch r) s = .next v.startSearch := congrArg Host.Outcome.next ((mbGo_serves run _).trans (asks.trans gets))
  have frame : Only [.mail, .cart] s v := (State.accepted'_only _ _ _).append (State.setCart_only u _)
  refine ⟨_, go, ⟨?mailbox, ?silent⟩, ?cart, State.startSearch_reading v, ?serial, ?heat, (frame.append (State.startSearch_only v)).mono (by simp)⟩
  case mailbox =>
    exact ((State.startSearch_only v).2 .mail (by simp)).trans (State.accepted'_mail 0x0205 r s)
  case silent =>
    intro m
    have nobody := State.startSearch_no_response v m
    rwa [State.newOut, show v.out = s.out from State.accepted'_out _ _ _] at nobody
  case cart =>
    rw [← cart]
    exact State.startSearch_cart v
  case serial =>
    rw [← cart]
    exact State.startSearch_parseNext v
  case heat =>
    rw [← cart, ← heat]
    exact State.startSearch_heat v

end

/-! ## EOD_BLOCK_CHECK (R216) -/

/-- The cartridge once its EOD block has been found at the image's position (R216, Table 07-5). -/
def Cart.blockFound (c : Cart) : Cart :=
  { c with
    eodChecking := false, eodChecked := true, appendPos := c.image.eodPos,
    eod := { outcome := 0, session := c.image.session, recordLimit := c.image.recordLimit, append := c.image.eodPos } }

/-- The cartridge once no EOD block has been found there: the image is stale, the end of data unknown (R216). -/
def Cart.blockMissing (c : Cart) : Cart := { c with eodChecking := false, stale := true, searchPending := true }

theorem eodBlockCheck_idle {s : State} (idle : s.cart.eodChecking = false) (found : Bool) (io : Io) : exec (.eodBlockCheck found io) s = .next s := by
  simp [exec, execEodBlockCheck, idle]

section
variable {s : State} (io : Io) (checking : s.cart.eodChecking = true)
include checking

/-- The EOD block is where the image says. -/
theorem eodBlockCheck_found (nobody : s.NoneWaits) :
    ∃ t, exec (.eodBlockCheck true io) s = .next t ∧ t.cart.eodChecking = false ∧ t.cart.eodChecked = true ∧
      t.cart.appendPos = s.cart.image.eodPos ∧ t.cart.eod.outcome = 0 ∧ t.cart.eod.recordLimit = s.cart.image.recordLimit ∧
      t.cart.image = s.cart.image ∧ Only [.cart, .rd, .motion, .pairs, .blw] s t := by
  let u : State := { s.withIo io with cart := s.cart.blockFound }
  have go : exec (.eodBlockCheck true io) s = .next u.leaveTape := by
    simp [exec, execEodBlockCheck, checking]; rfl
  have still : u.NoneWaits := nobody.congr nobody.search rfl rfl rfl nobody.unload
  have cart : u.leaveTape.cart = s.cart.blockFound := still.leaveTape_only.2 .cart (by simp)
  have frame : Only [.cart] s u := (State.setEnv_only s _).append (State.setCart_only _ s.cart.blockFound)
  refine ⟨_, go, ?_⟩
  rw [cart]
  exact ⟨rfl, rfl, rfl, rfl, rfl, rfl, frame.append still.leaveTape_only⟩

/-- The EOD block is not there: the image is stale and the search begins. -/
theorem eodBlockCheck_absent :
    ∃ t, exec (.eodBlockCheck false io) s = .next t ∧ t.cart.eodChecking = false ∧ t.cart.stale = true ∧ t.cart.searchPending = true ∧
      t.cart.searching = true ∧ Reported 0x0301 s.cart.image.seq 0 s t ∧ Only [.cart, .rd, .heat, .params, .motion, .pairs, .evq] s t := by
  let u : State := { s.withIo io with cart := s.cart.blockMissing }
  have go : exec (.eodBlockCheck false io) s = .next (u.event 0x0301 s.cart.image.seq 0).startSearch := by
    simp [exec, execEodBlockCheck, checking]; rfl
  have posts := State.event_only 0x0301 s.cart.image.seq 0 u (by decide)
  have cart : (u.event 0x0301 s.cart.image.seq 0).startSearch.cart = { s.cart.blockMissing with searching := true } := by
    rw [State.startSearch_cart, show (u.event 0x0301 s.cart.image.seq 0).cart = s.cart.blockMissing from posts.2 .cart (by simp)]
  have search := State.startSearch_only (u.event 0x0301 s.cart.image.seq 0)
  have reported : Reported 0x0301 s.cart.image.seq 0 s (u.event 0x0301 s.cart.image.seq 0) := State.event_reported 0x0301 s.cart.image.seq 0 u
  have frame : Only [.cart] s u := (State.setEnv_only s _).append (State.setCart_only _ s.cart.blockMissing)
  refine ⟨_, go, ?_⟩
  rw [cart]
  exact ⟨rfl, rfl, rfl, rfl, reported.mono posts.1 search.1 (search.2 .evq (by simp)), ((frame.append posts).append search).mono (by simp)⟩

end

/-! ## EOD_SEARCH_END (R217, R219) -/

theorem eodSearchEnd_idle {s : State} (idle : s.cart.searching = false ∨ s.searchSettled = false) (noBlock : Bool) (io : Io) :
    exec (.eodSearchEnd noBlock io) s = .next s := by
  simp only [exec, execEodSearchEnd]
  rcases idle with h | h <;> simp [h]

/-- The descriptors of the records found present. -/
def State.searchPresent (s : State) : List Item := (s.judged.takeWhile Prod.snd).map Prod.fst

/-- The record limit that a search fixes: the first absent record (R219). -/
def State.searchLimit (s : State) : Nat := match s.judged.find? (fun e => !e.2) with
  | some e => itemRec e.1.head
  | none => ((s.searchPresent.getLast?).map (fun i => itemRec i.head + 1)).getD s.cart.image.syncedLimit

/-- The result of a search that has ended with an outcome (Table 07-5). -/
def State.searchResult (o : Nat) (s : State) : EodResult :=
  { outcome := o, stale := s.cart.stale,
    unclosed := ((dataBillets s.rd.billets).getLast?).any (fun b => (trainAt s.fmt s.rd.billets b).isNone),
    session := min (s.sessionBase + 1) 0xFFFFFFFF, recordLimit := s.searchLimit, found := s.searchPresent.length,
    withoutC3 := (s.searchPresent.filter (fun i => s.noC3 i)).length, heats := s.rd.scanned, append := s.searchAppend s.searchPresent }

/-- The cartridge after a search with a result, before its image is issued (R219). -/
def Cart.found (e : EodResult) (c : Cart) : Cart :=
  { c with
    image := { c.image with recordLimit := e.recordLimit, eodValid := false, sessionOpen := false, session := e.session }, changed := true,
    searching := false, searchPending := false, searchMb := [], eod := e, appendPos := e.append, reserved := some e.session }

/-- The state in which that image is issued. -/
def State.searched (io : Io) (e : EodResult) (s : State) : State :=
  { s.withIo io with cart := s.cart.found e, recs := { s.recs with next := e.recordLimit } }

/-- The cartridge once the image of a search's result has been issued with a sequence number. -/
def Cart.foundIssued (seq : Nat) (e : EodResult) (c : Cart) : Cart :=
  { c.found e with
    image := { (c.found e).image with seq := seq }, issued := ({ (c.found e).image with seq := seq } :: c.issued).take 8, lastIssued := some seq,
    changed := false }

/-- The state in which a search's image is issued and EOD_SEARCH_DONE posted. -/
def State.announced (io : Io) (e : EodResult) (s : State) : State := ((s.searched io e).issueImage).event 0x0302 e.recordLimit e.session

section
variable (io : Io) (e : EodResult) (s : State)

theorem State.searched_only : Only [.cart, .recs] s (s.searched io e) :=
  ⟨List.prefix_refl _, fun b hb => by cases b <;> simp_all [Block.same, State.searched, State.withIo]⟩

theorem State.announced_after_searched : Only [.cart, .evq] (s.searched io e) (s.announced io e) :=
  ((State.issueImage_only _).append (State.event_only _ _ _ _ (by decide))).mono (by simp)

theorem State.announced_only : Only [.cart, .recs, .evq] s (s.announced io e) :=
  ((State.searched_only io e s).append (State.announced_after_searched io e s)).mono (by simp)

theorem State.announced_recs : (s.announced io e).recs = { s.recs with next := e.recordLimit } :=
  (State.announced_after_searched io e s).2 .recs (by simp)

theorem State.announced_cart : ∃ seq, (s.announced io e).cart = s.cart.foundIssued seq e := by
  obtain ⟨seq, image⟩ := State.issueImage_cart (s.searched io e)
  have posts : (s.announced io e).cart = (s.searched io e).issueImage.cart := (State.event_only _ _ _ _ (by decide)).2 .cart (by simp)
  exact ⟨seq, posts.trans image⟩

theorem State.announced_reported : Reported 0x0302 e.recordLimit e.session s (s.announced io e) := by
  have issues := (State.searched_only io e s).append (State.issueImage_only (s.searched io e))
  have posts := State.event_only 0x0302 e.recordLimit e.session (s.searched io e).issueImage (by decide)
  have other : BitVec.ofNat 16 0x0302 ≠ (0x0303 : BitVec 16) := by decide
  exact (State.event_reported 0x0302 e.recordLimit e.session _).of_after issues.1 posts.1 fun g here own =>
    State.issueImage_others (s := s.searched io e) here (by rwa [own])

end

/-- The end of a search: the image, the event, the answers, and the tape to whoever waits. -/
theorem eodSearchEnd_eq {s : State} {noBlock : Bool} {o : Nat} (io : Io) (searching : s.cart.searching = true) (settled : s.searchSettled = true)
    (outcome : s.searchOutcome noBlock = some o) :
    exec (.eodSearchEnd noBlock io) s = .next (answerSearch s.cart.searchMb (s.announced io (s.searchResult o))).leaveTape := by
  simp only [exec, execEodSearchEnd, searching, settled, outcome, Bool.not_true, Bool.or_self, Bool.false_eq_true, if_false]
  rfl

theorem State.searchLimit_absent {s : State} {e : Item × Bool} (absent : s.judged.find? (fun e => !e.2) = some e) :
    s.searchLimit = itemRec e.1.head := by
  simp only [State.searchLimit, absent]

/-- After the answers to a search nobody waits for the tape who did not before. -/
theorem State.noneWaits_answered {s : State} (io : Io) (e : EodResult) (reads : s.rd.jobs = []) (locate : s.waitingLocate = none)
    (unload : s.unloadMb = none) (formed : s.formable = false) : (answerSearch s.cart.searchMb (s.announced io e)).NoneWaits := by
  have answers := answerSearch_only s.cart.searchMb (s.announced io e)
  have announces := State.announced_only io e s
  obtain ⟨seq, issued⟩ := State.announced_cart io e s
  have cart := (answers.2 .cart (by simp)).trans issued
  have recs := (answers.2 .recs (by simp)).trans (State.announced_recs io e s)
  have rd := (answers.2 .rd (by simp)).trans (announces.2 .rd (by simp))
  have cmds := congrArg Records.cmds recs
  have list := congrArg Records.recs recs
  exact {
    search := congrArg Cart.searchPending cart
    reads := (congrArg ReadSide.jobs rd).trans reads
    locate := (State.waitingLocate_congr cmds).trans locate
    formed := (State.formable_congr list).trans formed
    unload := answerSearch_unloadMb ((State.unloadMb_congr (announces.2 .mail (by simp))).trans unload) _ }

/-- EOD_SEARCH_END with an outcome and nobody waiting for the tape. -/
theorem eodSearchEnd_ends {s : State} {noBlock : Bool} {o : Nat} (io : Io) (searching : s.cart.searching = true) (settled : s.searchSettled = true)
    (outcome : s.searchOutcome noBlock = some o) (reads : s.rd.jobs = []) (locate : s.waitingLocate = none) (unload : s.unloadMb = none)
    (formed : s.formable = false) :
    ∃ t seq, exec (.eodSearchEnd noBlock io) s = .next t ∧ t.cart = s.cart.foundIssued seq (s.searchResult o) ∧
      t.recs = { s.recs with next := s.searchLimit } ∧ Reported 0x0302 s.searchLimit (s.searchResult o).session s t ∧
      Only [.cart, .recs, .rd, .motion, .pairs, .blw, .mail, .evq] s t := by
  have announces := State.announced_only io (s.searchResult o) s
  have reported := State.announced_reported io (s.searchResult o) s
  obtain ⟨seq, cart⟩ := State.announced_cart io (s.searchResult o) s
  have ends : Only [.mail, .rd, .motion, .pairs, .blw] (s.announced io (s.searchResult o))
      (answerSearch s.cart.searchMb (s.announced io (s.searchResult o))).leaveTape :=
    (answerSearch_only _ _).append (State.noneWaits_answered io _ reads locate unload formed).leaveTape_only
  exact ⟨_, seq, eodSearchEnd_eq io searching settled outcome, (ends.2 .cart (by simp)).trans cart,
    (ends.2 .recs (by simp)).trans (State.announced_recs io _ s), reported.mono announces.1 ends.1 (ends.2 .evq (by simp)),
    (announces.append ends).mono (by simp)⟩

end Sys2Proof.Machine
end

section
open Sys2Proof Sys2Proof.Machine

/-- Settles O41: the request, the check and the search's end each by its own lemma; the tape is left because nobody waits for it. -/
theorem endOfDataSearch : Obligations.EndOfDataSearch := by
  refine ⟨fun r s plain run len => ⟨eodSearch_last plain run len, eodSearch_begins plain run len⟩, fun io s =>
    ⟨fun idle b => eodBlockCheck_idle idle b io, fun checking reads pending locate unload => ⟨fun formed => ?found, eodBlockCheck_absent io checking⟩,
      fun idle b => eodSearchEnd_idle idle b io, fun b o searching settled outcome reads locate unload formed => ?ends⟩⟩
  case found =>
    exact eodBlockCheck_found io checking ⟨pending, reads, locate, formed, unload⟩
  case ends =>
    obtain ⟨t, seq, run, cart, recs, reported, only⟩ := eodSearchEnd_ends io searching settled outcome reads locate unload formed
    refine ⟨t, run, ?_⟩
    rw [cart, recs]
    exact ⟨rfl, rfl, rfl, rfl, rfl, rfl, rfl, rfl, rfl, rfl, rfl, fun e => State.searchLimit_absent, reported, only⟩

end

section
/-! SUPPORT. The host interface's shared operations once more: what a signal, its cancellation, an event and a counted error leave and set,
one unit at a time (R276, R285, R286, R293). -/

namespace Sys2Proof.Machine

/-! ## Frames of an update of one unit -/

theorem State.setGlob_only (s : State) (x : Glob) : Only [.glob] s { s with glob := x } :=
  ⟨List.prefix_refl _, fun b hb => by cases b <;> simp_all [Block.same]⟩

theorem State.setArb_only (s : State) (x : Arbiter) : Only [.arb] s { s with arb := x } :=
  ⟨List.prefix_refl _, fun b hb => by cases b <;> simp_all [Block.same]⟩

theorem State.withPairs_only (s : State) (x : List (Option Pair)) : Only [.pairs] s { s with pairs := x } :=
  ⟨List.prefix_refl _, fun b hb => by cases b <;> simp_all [Block.same]⟩

@[simp] theorem State.linkIn_glob (s : State) : s.linkIn.glob = s.glob := State.linkIn_field _ (fun _ _ => rfl) (fun _ => rfl) s
@[simp] theorem State.linkIn_pairs (s : State) : s.linkIn.pairs = s.pairs := State.linkIn_field _ (fun _ _ => rfl) (fun _ => rfl) s
@[simp] theorem State.linkIn_pwr (s : State) : s.linkIn.pwr = s.pwr := State.linkIn_field _ (fun _ _ => rfl) (fun _ => rfl) s

@[simp] theorem State.pair?_linkIn (q : Nat) (s : State) : s.linkIn.pair? q = s.pair? q := by rw [State.pair?, State.linkIn_pairs]; rfl

/-- What leaves the pairs alone leaves each pair as it was. -/
theorem Only.pair? {bs : List Block} {s t : State} (h : Only bs s t) (other : .pairs ∉ bs) (q : Nat) : t.pair? q = s.pair? q := by
  rw [State.pair?, h.2 .pairs other]; rfl

/-! ## Signals (R285) -/

/-- A vector of the table that is signalled has sent its message or is pending. -/
theorem State.signal_signalled {v : Nat} {s : State} (vector : v < s.glob.msix.length) : Signalled v s (s.signal v) := by
  have entry : s.glob.msix[v]? = some s.glob.msix[v] := List.getElem?_eq_getElem vector
  unfold State.signal
  rw [entry]
  dsimp only
  split
  · exact .inr ⟨{ s.glob.msix[v] with pending := true }, by simp [getElem?_modAt, entry], rfl⟩
  · exact .inl (by simp)

/-- A signal put off to the end of a step counts for the step. -/
theorem Signalled.of_after {v : Nat} {s u t : State} (first : s.out <+: u.out) (second : u.out <+: t.out) (h : Signalled v u t) : Signalled v s t :=
  h.imp_left (State.newOut_right first second)

theorem State.cancelSignal_pending {v : Nat} {e : MsixEntry} {s : State} (entry : (s.cancelSignal v).glob.msix[v]? = some e) : e.pending = false := by
  simp only [State.cancelSignal, getElem?_modAt, if_true, Option.map_eq_some_iff] at entry
  obtain ⟨_, -, rfl⟩ := entry
  rfl

/-! ## Counted errors and events (R286, R293) -/

/-- What the host alone sets of the event queue: head, base, enable and size. -/
def EvQueue.hostSide (e : EvQueue) : EvQueue := { e with tail := 0, phase := true, error := false, held := [] }

theorem State.holdEvent_hostSide (e : Event) (s : State) : (s.holdEvent e).evq.hostSide = s.evq.hostSide := by
  unfold State.holdEvent
  dsimp only
  split <;> rfl

theorem State.writeEvent_hostSide (e : Event) (s : State) : (s.writeEvent e).evq.hostSide = s.evq.hostSide := by
  have quiet (o : Output) (n : Nat) (p : Bytes) (m : MirrorItem) (u : State) : (((u.emit o).order n p).mirror m).evq = u.evq :=
    (((State.emit_only o u).trans (State.order_only n p _)).trans (State.mirror_only m _)).2 .evq (by simp)
  have signals (u : State) : (u.signal 256).evq = u.evq := (State.signal_only 256 u).2 .evq (by simp)
  unfold State.writeEvent
  dsimp only
  rw [signals]
  split <;> (simp only [quiet]; rfl)

/-- An event moves nothing that the host sets; its failing write stops the queue. -/
theorem State.event_hostSide (code a b : Nat) (s : State) : (s.event code a b).evq.hostSide = s.evq.hostSide := by
  have mirrored (m : MirrorItem) : (s.mirror m).evq = s.evq := (State.mirror_only m s).2 .evq (by simp)
  unfold State.event State.postEvent
  dsimp only
  split
  · rw [State.holdEvent_hostSide, mirrored]
  · split
    · have fails := congrArg EvQueue.hostSide (mirrored (.event (BitVec.ofNat 16 code) 0 a b))
      rw [State.holdEvent_hostSide]
      exact fails
    · rw [State.writeEvent_hostSide, mirrored]

theorem State.event_evq_head (code a b : Nat) (s : State) : (s.event code a b).evq.head = s.evq.head := by
  have head := congrArg EvQueue.head (State.event_hostSide code a b s)
  exact head

theorem State.event_doorbellErrors {code : Nat} (other : BitVec.ofNat 16 code ≠ 0x0001) (a b : Nat) (s : State) :
    (s.event code a b).glob.doorbellErrors = s.glob.doorbellErrors := by
  have quiet : (s.event code a b).glob.quiet = s.glob.quiet := (State.event_only code a b s other).2 .glob (by simp)
  have errors := congrArg Glob.doorbellErrors quiet
  exact errors

end Sys2Proof.Machine
end

section
/-! SUPPORT. The loss of a UCIe module (R276). -/

namespace Sys2Proof.Machine

/-- A module that is down already is lost without effect. -/
theorem ucieModuleLoss_down {m : Bool} {s : State} (down : (if m then s.glob.m1Up else s.glob.m0Up) = false) :
    exec (.ucieModuleLoss m) s = .next s := by
  simp [exec, execUcieModuleLoss, down]

/-- With the other module up the link goes on at its rate, degraded. -/
theorem ucieModuleLoss_degrades {s : State} (m0 : s.glob.m0Up = true) (m1 : s.glob.m1Up = true) (m : Bool) :
    exec (.ucieModuleLoss m) s =
      .next (({ s with glob := { s.glob with m0Up := m, m1Up := !m, linkDegraded := true } } : State).event 0x0502 (if m then 1 else 2)
        s.glob.rate) := by
  cases m <;> simp [exec, execUcieModuleLoss, m0, m1, b2n]

/-- The last module lost leaves no module up. -/
theorem ucieModuleLoss_last {m : Bool} {s : State} (m0 : s.glob.m0Up = !m) (m1 : s.glob.m1Up = m) :
    exec (.ucieModuleLoss m) s = .next { s with glob := { s.glob with m0Up := false, m1Up := false } } := by
  cases m <;> simp_all [exec, execUcieModuleLoss]

end Sys2Proof.Machine
end

section
open Sys2Proof Sys2Proof.Machine

/-- Settles O15: one lemma for each way in which a module is lost; the event changes the event queue only. -/
theorem hostLinkLoss : Obligations.HostLinkLoss := by
  intro m s
  refine ⟨fun m0 m1 => ?degraded, ucieModuleLoss_down, fun m0 m1 => ?last⟩
  case degraded =>
    let u : State := { s with glob := { s.glob with m0Up := m, m1Up := !m, linkDegraded := true } }
    have posts := State.event_only 0x0502 (if m then 1 else 2) s.glob.rate u (by decide)
    exact ⟨_, ucieModuleLoss_degrades m0 m1 m, posts.2 .glob (by decide), State.event_reported 0x0502 _ _ u, (State.setGlob_only s _).append posts⟩
  case last =>
    exact ⟨_, ucieModuleLoss_last m0 m1, rfl, State.setGlob_only s _⟩

end

section
/-! SUPPORT. Doorbells (R281, R283 to R286, R293). -/

namespace Sys2Proof.Machine

/-! ## Doorbells that are taken -/

section
variable {q : Fin 256} {v : BitVec 32} {s : State}

/-- An SQ tail that may be taken is taken; in P0 and on the motion pair nobody is woken. -/
theorem sqTailDoorbell_taken {p : Pair} (pair : s.pair? q = some p) (ok : p.tailOk v.toNat = true)
    (awake : p.motion = true ∨ (s.pwr.state = 0 ∧ s.pwr.entering = none)) :
    exec (.sqTailDoorbell q v) s = .next (s.linkIn.modPair q (fun p => { p with sqTail := v.toNat, awaitDoorbell := false })) := by
  simp only [exec, execSqTailDoorbell, State.pair?_linkIn, pair, ok, if_true]
  rcases awake with motion | ⟨p0, settled⟩
  · simp [motion]
  · simp [p0, settled]

/-- The pair after a CQ head that may be taken. -/
def Pair.headAt (v : Nat) (p : Pair) : Pair := { p with cqHead := v, unsignalled := if v = p.cqTail then 0 else p.unsignalled }

/-- A CQ head that may be taken is taken; at the tail the signal still pending is cancelled. -/
theorem cqHeadDoorbell_taken {p : Pair} (pair : s.pair? q = some p) (ok : p.headOk v.toNat = true) (data : p.motion = false) :
    exec (.cqHeadDoorbell q v) s =
      .next (let u := s.linkIn.modPair q (Pair.headAt v.toNat); if v.toNat = p.cqTail then u.cancelSignal q else u) := by
  simp only [exec, execCqHeadDoorbell, State.pair?_linkIn, pair, ok, data, if_true, Bool.false_eq_true, if_false]
  rfl

theorem State.drainEvents_nil {s : State} (empty : s.evq.held = []) : s.drainEvents = s := by
  rw [State.drainEvents, empty, drainHeld]

/-- An event-queue head that may be taken is taken; at the tail vector 256 may be cancelled. -/
theorem evqHeadDoorbell_taken (ring : v.toNat < s.evq.size)
    (ok : ringDiff s.evq.size v.toNat s.evq.head ≤ ringDiff s.evq.size s.evq.tail s.evq.head) (empty : s.evq.held = []) :
    exec (.evqHeadDoorbell v) s =
      .next (let u : State := { s.linkIn with evq := { s.evq with head := v.toNat } }
        if v.toNat = s.evq.tail && !s.glob.mbSignal then u.cancelSignal 256 else u) := by
  simp only [exec, execEvqHeadDoorbell, State.linkIn_evq, State.linkIn_glob, ring, ok, decide_true, Bool.and_self, if_true]
  rw [State.drainEvents_nil]
  split <;> exact empty

end
end Sys2Proof.Machine
end

section
open Sys2Proof Sys2Proof.Machine

/-- Settles O21: each doorbell by its own lemma; the header it arrives with reaches the journal only. -/
theorem doorbellsMoveIndices : Obligations.DoorbellsMoveIndices := by
  intro q v s
  refine ⟨fun p pair ok awake => ?sqTail, fun p pair ok data => ?cqHead, fun ring ok empty => ?evqHead⟩
  case sqTail =>
    exact ⟨_, sqTailDoorbell_taken pair ok awake, by simp, (State.modPair_only _ _ _).of_linkIn⟩
  case cqHead =>
    let u := s.linkIn.modPair q (Pair.headAt v.toNat)
    have cancels : Only [] u (if v.toNat = p.cqTail then u.cancelSignal q else u) := .ite (State.cancelSignal_only _ _) (.refl _ _)
    have same (k : Nat) := cancels.pair? (by simp) k
    refine ⟨_, cqHeadDoorbell_taken pair ok data, ((State.modPair_only q _ s.linkIn).append cancels).of_linkIn, fun k other => ?_, ?_,
      fun tail e entry => ?_⟩
    · rw [same, State.pair?_modPair_other other, State.pair?_linkIn]
    · rw [same, State.pair?_modPair_self, State.pair?_linkIn, pair]
      rfl
    · simp only [tail, if_true] at entry
      exact State.cancelSignal_pending entry
  case evqHead =>
    let u : State := { s.linkIn with evq := { s.evq with head := v.toNat } }
    have cancels : Only [] u (if v.toNat = s.evq.tail && !s.glob.mbSignal then u.cancelSignal 256 else u) :=
      .ite (State.cancelSignal_only _ _) (.refl _ _)
    exact ⟨_, evqHeadDoorbell_taken ring ok empty, cancels.2 .evq (by simp), ((State.setEvq_only s.linkIn _).append cancels).of_linkIn⟩

end

section
/-! SUPPORT. Doorbells that are ignored (R286). -/

namespace Sys2Proof.Machine

/-- A state that differs from another by one ignored doorbell, as R286 asks. -/
structure CountsIgnored (who v : Nat) (s t : State) : Prop where
  pairs : t.pairs = s.pairs
  head : t.evq.head = s.evq.head
  errors : t.glob.doorbellErrors = satAdd 32 s.glob.doorbellErrors 1
  reported : Reported 0x0500 who v s t
  glob : t.glob.quiet = { s.glob with doorbellErrors := t.glob.doorbellErrors }.quiet
  only : Only [.glob, .evq] s t

theorem State.doorbellInvalid_linkIn (who v : Nat) (s : State) : CountsIgnored who v s (s.linkIn.doorbellInvalid who v) := by
  let u := s.linkIn.countError
  have posts : Only [.evq] u (u.event 0x0500 who v) := State.event_only _ _ _ _ (by decide)
  have head : (u.event 0x0500 who v).evq.head = u.evq.head := State.event_evq_head 0x0500 who v u
  have counted : u.glob = { s.glob with doorbellErrors := satAdd 32 s.glob.doorbellErrors 1 } := by simp [u, State.countError]
  have errors : (u.event 0x0500 who v).glob.doorbellErrors = satAdd 32 s.glob.doorbellErrors 1 := by
    rw [State.event_doorbellErrors (by decide), counted]
  have quiet : (u.event 0x0500 who v).glob.quiet = u.glob.quiet := posts.2 .glob (by simp)
  have frame : Only [.glob, .evq] s u := ((State.countError_only _).mono (by simp)).of_linkIn
  exact {
    pairs := (posts.2 .pairs (by simp)).trans (State.linkIn_pairs s)
    head := head.trans (congrArg EvQueue.head (State.linkIn_evq s))
    errors := errors
    reported := (State.event_reported 0x0500 who v u).of_after frame.1 posts.1 fun g here _ => by rwa [← State.linkIn_evq s]
    glob := by rw [State.doorbellInvalid, errors, quiet, counted]
    only := frame.trans (posts.mono (by simp)) }

theorem two_pow_le_65536 {n : Nat} (h : n ≤ 16) : 2 ^ n ≤ 65536 := Nat.pow_le_pow_right (by decide) h

theorem Pair.tailOk_eq_false {p : Pair} {v : Nat} (size : p.sqLog ≤ 16)
    (bad : 65536 ≤ v ∨ 2 ^ p.sqLog ≤ v ∨ 2 ^ p.sqLog - 1 < p.unfetched + ringDiff (2 ^ p.sqLog) v p.sqTail) : p.tailOk v = false := by
  have ring : 2 ^ p.sqLog ≤ 65536 := two_pow_le_65536 size
  simp only [Pair.tailOk, Bool.and_eq_false_iff, decide_eq_false_iff_not]
  omega

/-- A ring index that R286 refuses: with a bit above 15, outside the ring, or past the tail. -/
theorem ringHead_refused {n v head tail : Nat} (ring : n ≤ 65536) (bad : 65536 ≤ v ∨ n ≤ v ∨ ringDiff n tail head < ringDiff n v head) :
    (decide (v < n) && decide (ringDiff n v head ≤ ringDiff n tail head)) = false := by
  simp only [Bool.and_eq_false_iff, decide_eq_false_iff_not]
  omega

section
variable {q : Fin 256} {v : BitVec 32} {s : State}

theorem sqTailDoorbell_ignored (bad : s.pair? q = none ∨ ∃ p, s.pair? q = some p ∧ p.tailOk v.toNat = false) :
    exec (.sqTailDoorbell q v) s = .next (s.linkIn.doorbellInvalid q v.toNat) := by
  simp only [exec, execSqTailDoorbell, State.pair?_linkIn]
  rcases bad with absent | ⟨p, pair, refused⟩
  · rw [absent]
  · simp [pair, refused]

theorem cqHeadDoorbell_ignored (bad : s.pair? q = none ∨ ∃ p, s.pair? q = some p ∧ p.headOk v.toNat = false) :
    exec (.cqHeadDoorbell q v) s = .next (s.linkIn.doorbellInvalid q v.toNat) := by
  simp only [exec, execCqHeadDoorbell, State.pair?_linkIn]
  rcases bad with absent | ⟨p, pair, refused⟩
  · rw [absent]
  · simp [pair, refused]

theorem evqHeadDoorbell_ignored
    (bad : (decide (v.toNat < s.evq.size) && decide (ringDiff s.evq.size v.toNat s.evq.head ≤ ringDiff s.evq.size s.evq.tail s.evq.head)) = false) :
    exec (.evqHeadDoorbell v) s = .next (s.linkIn.doorbellInvalid 0x100 v.toNat) := by
  simp only [exec, execEvqHeadDoorbell, State.linkIn_evq, bad, Bool.false_eq_true, if_false]

end
end Sys2Proof.Machine
end

section
open Sys2Proof Sys2Proof.Machine

/-- Settles O22: every doorbell that R286 names leads to the same ignored write. -/
theorem ignoredDoorbellsAreCounted : Obligations.IgnoredDoorbellsAreCounted := by
  intro q v c who s bad
  have run : exec c s = .next (s.linkIn.doorbellInvalid who v.toNat) := by
    rcases bad with ⟨rfl, rfl, why⟩ | ⟨rfl, rfl, why⟩ | ⟨rfl, rfl, size, why⟩
    · exact sqTailDoorbell_ignored (why.imp_right fun ⟨p, pair, size, bad⟩ => ⟨p, pair, Pair.tailOk_eq_false size bad⟩)
    · exact cqHeadDoorbell_ignored (why.imp_right fun ⟨p, pair, size, bad⟩ => ⟨p, pair, ringHead_refused (two_pow_le_65536 size) bad⟩)
    · exact evqHeadDoorbell_ignored (ringHead_refused (two_pow_le_65536 size) why)
  obtain ⟨pairs, head, errors, reported, glob, only⟩ := State.doorbellInvalid_linkIn who v.toNat s
  exact ⟨_, run, pairs, head, errors, reported, glob, only⟩

end

section
/-! SUPPORT. EVQ_CONFIG and the held events it may post (R293). -/

namespace Sys2Proof.Machine

/-! ## Held events that are posted -/

/-- An event's writing changes the event queue and the list of deferred errors, whatever its code. -/
theorem State.writeEvent_evq_recs (e : Event) (s : State) : Only [.evq, .recs] s (s.writeEvent e) := by
  by_cases deferred : e.code = 0x0001
  · unfold State.writeEvent
    simp only [deferred, if_true]
    exact (((State.setEvq_only s _).append ((State.emit_only _ _).append ((State.order_only _ _ _).append (State.mirror_only _ _)))).append
      ((State.setRecs_only _ _).append (State.signal_only _ _))).mono (by simp)
  · exact (State.writeEvent_only e s deferred).mono (by simp)

theorem drainHeld_only (l : List Event) (s : State) : Only [.evq, .recs] s (drainHeld l s) := by
  induction l generalizing s with
  | nil => exact .refl _ _
  | cons e r ih =>
    refine .ite (.refl _ _) (.ite ((State.setEvq_only s _).mono (by simp)) ?_)
    exact ((State.setEvq_only s _).mono (by simp)).trans ((State.writeEvent_evq_recs e _).trans (ih _))

/-- Posting what is held moves nothing that the host sets. -/
theorem drainHeld_hostSide (l : List Event) (s : State) : (drainHeld l s).evq.hostSide = s.evq.hostSide := by
  induction l generalizing s with
  | nil => rfl
  | cons e r ih =>
    rw [drainHeld]
    split
    · rfl
    · split
      · rfl
      · rw [ih, State.writeEvent_hostSide]
        rfl

theorem State.drainEvents_only (s : State) : Only [.evq, .recs] s s.drainEvents := drainHeld_only _ s

theorem State.drainEvents_hostSide (s : State) : s.drainEvents.evq.hostSide = s.evq.hostSide := drainHeld_hostSide _ s

/-- A disabled queue posts nothing. -/
theorem State.drainEvents_disabled {s : State} (off : s.evq.enable = false) : s.drainEvents = s := by
  unfold State.drainEvents
  cases s.evq.held <;> simp [drainHeld, EvQueue.canPost, off]

/-! ## The write -/

/-- The size of an event queue takes effect while it is disabled. -/
def EvQueue.resized (n : Nat) (e : EvQueue) : EvQueue := if e.enable then e else { e with log2 := BitVec.ofNat 5 n }

/-- A disabled event queue that is enabled begins its ring (log 22). -/
def EvQueue.begun (on : Bool) (e : EvQueue) : EvQueue := if on && !e.enable then { e with head := 0, tail := 0, phase := true } else e

/-- The event queue after an EVQ_CONFIG write that is not ignored. -/
def EvQueue.configured (v : BitVec 32) (e : EvQueue) : EvQueue :=
  let e := (e.resized (v.toNat % 32)).begun (v.getLsbD 31)
  { e with enable := v.getLsbD 31, error := e.error && v.getLsbD 31 }

section
variable (v : BitVec 32) (e : EvQueue)

theorem EvQueue.configured_base : (e.configured v).base = e.base := by
  unfold EvQueue.configured EvQueue.begun EvQueue.resized
  split <;> split <;> rfl

theorem EvQueue.configured_log2 : (e.configured v).log2 = if e.enable then e.log2 else BitVec.ofNat 5 (v.toNat % 32) := by
  unfold EvQueue.configured EvQueue.begun EvQueue.resized
  split <;> split <;> rfl

theorem EvQueue.configured_held : (e.configured v).held = e.held := by
  unfold EvQueue.configured EvQueue.begun EvQueue.resized
  split <;> split <;> rfl

theorem EvQueue.configured_error_off {v : BitVec 32} (off : v.getLsbD 31 = false) : (e.configured v).error = false := by
  simp only [EvQueue.configured, off, Bool.and_false]

theorem EvQueue.configured_on {v : BitVec 32} {e : EvQueue} (on : v.getLsbD 31 = true) (was : e.enable = false) :
    (e.configured v).head = 0 ∧ (e.configured v).tail = 0 ∧ (e.configured v).phase = true := by
  simp [EvQueue.configured, EvQueue.begun, EvQueue.resized, on, was]

end

section
variable {v : BitVec 32} {s : State}

theorem evqConfigWrite_ignored (bad : (v.getLsbD 31 = true ∧ s.evq.baseWritten = false) ∨ v.toNat % 32 < 6 ∨ 16 < v.toNat % 32) :
    exec (.evqConfigWrite v) s = .next s.linkIn.countError := by
  simp only [exec, execEvqConfigWrite, State.linkIn_evq]
  rw [if_pos]
  simpa [or_assoc] using bad

theorem evqConfigWrite_taken (good : ¬ ((v.getLsbD 31 = true ∧ s.evq.baseWritten = false) ∨ v.toNat % 32 < 6 ∨ 16 < v.toNat % 32)) :
    exec (.evqConfigWrite v) s = .next ({ s.linkIn with evq := s.evq.configured v } : State).drainEvents := by
  simp only [exec, execEvqConfigWrite, State.linkIn_evq]
  rw [if_neg (by simpa [or_assoc] using good)]
  rfl

end
end Sys2Proof.Machine
end

section
open Sys2Proof Sys2Proof.Machine

/-- Settles O23: an ignored write counts an error; after any other the held events are posted, which moves nothing that the host sets. -/
theorem eventQueueConfiguration : Obligations.EventQueueConfiguration := by
  intro v s
  refine ⟨fun bad => ?ignored, fun good => ?taken⟩
  case ignored =>
    refine ⟨_, evqConfigWrite_ignored bad, ?_, (State.countError_only _).of_linkIn⟩
    simp [State.countError]
  case taken =>
    let u : State := { s.linkIn with evq := s.evq.configured v }
    have held : u.evq.held = s.evq.held := EvQueue.configured_held v s.evq
    have host : u.drainEvents.evq.hostSide = (s.evq.configured v).hostSide := State.drainEvents_hostSide u
    have enable := congrArg EvQueue.enable host
    have base := congrArg EvQueue.base host
    have log2 := congrArg EvQueue.log2 host
    refine ⟨_, evqConfigWrite_taken good, enable, base.trans (EvQueue.configured_base v _), log2.trans (EvQueue.configured_log2 v _),
      fun off => ?disabled, fun on was empty => ?anew,
      ((State.setEvq_only s.linkIn _).append (State.drainEvents_only u)).of_linkIn.mono (by simp)⟩
    case disabled =>
      rw [State.drainEvents_disabled (s := u) off]
      exact ⟨EvQueue.configured_error_off s.evq off, held⟩
    case anew =>
      rw [State.drainEvents_nil (held.trans empty)]
      exact EvQueue.configured_on on was

end

section
/-! SUPPORT. The range-lock table and the coalescing time (R285, R288, R309). -/

namespace Sys2Proof.Machine

/-- A command of another pair or tag is found as before an update that keeps what commands are found by. -/
theorem State.cmd?_modCmd_other {q tag q' tag' : Nat} {f : Cmd → Cmd} (pair : ∀ c, (f c).pair = c.pair) (tags : ∀ c, (f c).tag = c.tag)
    (other : q' ≠ q ∨ tag' ≠ tag) (s : State) : (s.modCmd q tag f).cmd? q' tag' = s.cmd? q' tag' := by
  have keep (c : Cmd) : (decide ((if c.pair = q && c.tag = tag then f c else c).pair = q') &&
      decide ((if c.pair = q && c.tag = tag then f c else c).tag = tag')) = (decide (c.pair = q') && decide (c.tag = tag')) := by
    split <;> simp [pair, tags]
  simp only [State.cmd?, State.modCmd]
  induction s.recs.cmds with
  | nil => rfl
  | cons c r ih =>
    rw [List.map_cons, List.find?_cons, List.find?_cons, keep, ih]
    split
    next found =>
      have elsewhere : ¬ (decide (c.pair = q) && decide (c.tag = tag)) = true := by
        simp only [Bool.and_eq_true, decide_eq_true_eq] at found ⊢
        omega
      rw [if_neg elsewhere]
    · rfl

/-- A command with the mark that the lock table has admitted it. -/
def Cmd.withAdmission (c : Cmd) : Cmd := { c with admitted := true }

section
variable {q : Fin 256} {tag : BitVec 16} {s : State}

theorem lockAdmission_admits {c : Cmd} (waits : s.cmd? q tag.toNat = some c) (free : s.admissible c = true) :
    exec (.lockAdmission q tag) s = .next (s.modCmd q tag.toNat Cmd.withAdmission) := by
  simp only [exec, execLockAdmission, waits, free, if_true]
  rfl

theorem lockAdmission_waits {c : Cmd} (waits : s.cmd? q tag.toNat = some c) (held : s.admissible c = false) :
    exec (.lockAdmission q tag) s = .next s := by
  simp [exec, execLockAdmission, waits, held]

theorem coalescingTimeExpiry_signals {p : Pair} (pair : s.pair? q = some p) (data : p.motion = false) (owed : p.unsignalled ≠ 0) :
    exec (.coalescingTimeExpiry q) s = .next ((s.modPair q (fun p => { p with unsignalled := 0 })).signal q) := by
  simp [exec, execCoalescingTimeExpiry, pair, data, owed]

theorem coalescingTimeExpiry_idle {p : Pair} (pair : s.pair? q = some p) (idle : p.motion = true ∨ p.unsignalled = 0) :
    exec (.coalescingTimeExpiry q) s = .next s := by
  rcases idle with motion | none
  · simp [exec, execCoalescingTimeExpiry, pair, motion]
  · simp [exec, execCoalescingTimeExpiry, pair, none]

end
end Sys2Proof.Machine
end

section
open Sys2Proof Sys2Proof.Machine

/-- Settles O26: the lock table marks the command it admits; the coalescing time counts what it signals. -/
theorem admissionAndCoalescing : Obligations.AdmissionAndCoalescing := by
  refine ⟨fun q tag s c waits => ⟨fun free => ?admits, lockAdmission_waits waits⟩,
    fun q s p pair table => ⟨fun data owed => ?signals, coalescingTimeExpiry_idle pair⟩⟩
  case admits =>
    exact ⟨_, lockAdmission_admits waits free, State.cmd?_modCmd_self (f := Cmd.withAdmission) (fun _ => rfl) (fun _ => rfl) waits,
      fun q' tag' other => State.cmd?_modCmd_other (f := Cmd.withAdmission) (fun _ => rfl) (fun _ => rfl) other s, rfl, State.modCmd_only _ _ _ _⟩
  case signals =>
    let u := s.modPair q (fun p => { p with unsignalled := 0 })
    have counts : Only [.pairs] s u := State.modPair_only q _ s
    have signals := State.signal_only q u
    have same (k : Nat) := signals.pair? (by simp) k
    have vector : q.val < u.glob.msix.length := by rw [show u.glob = s.glob from rfl, table]; omega
    refine ⟨_, coalescingTimeExpiry_signals pair data owed, ?_, fun k other => ?_, (State.signal_signalled vector).of_after counts.1 signals.1,
      counts.append signals⟩
    · rw [same, State.pair?_modPair_self, pair]
      rfl
    · rw [same, State.pair?_modPair_other other]

end

section
/-! SUPPORT. Which pairs there are and how far each has fetched (R280, R282): completions, interrupts and motion requests leave that alone. -/

namespace Sys2Proof.Machine

/-- The fetch position of a pair, if it exists. -/
def State.fetched (q : Nat) (s : State) : Option Nat := (s.pair? q).map Pair.sqFetch

theorem State.isSome_fetched (q : Nat) (s : State) : (s.fetched q).isSome = (s.pair? q).isSome := Option.isSome_map

theorem Only.fetched {bs : List Block} {s t : State} (h : Only bs s t) (other : .pairs ∉ bs) (k : Nat) : t.fetched k = s.fetched k := by
  rw [State.fetched, h.pair? other]; rfl

theorem State.fetched_modPair {f : Pair → Pair} (keeps : ∀ p, (f p).sqFetch = p.sqFetch) (q k : Nat) (s : State) :
    (s.modPair q f).fetched k = s.fetched k := by
  rw [State.fetched, State.pair?_modPair]
  split
  · rw [Option.map_map, State.fetched, show Pair.sqFetch ∘ f = Pair.sqFetch from funext keeps]
  · rfl

/-- A completion entry, written or failing, moves no fetch position; with its failure QUEUE_ERROR is posted. -/
theorem State.writeEntry_keeps (q tag : Nat) (ctx : BitVec 32) (st : BitVec 16) (res : BitVec 64) (ext : BitVec 32) (rep : Bool) (s : State) :
    Only [.pairs, .evq] s (s.writeEntry q tag ctx st res ext rep) ∧ ∀ k, (s.writeEntry q tag ctx st res ext rep).fetched k = s.fetched k := by
  have posts (u : State) : Only [.evq] u (u.event 0x0501 q 0) := State.event_only _ _ _ _ (by decide)
  have puts (m m' : MirrorItem) (o : Output) (u : State) : Only [] u (((u.mirror m).emit o).mirror m') :=
    (State.mirror_only _ _).trans ((State.emit_only _ _).trans (State.mirror_only _ _))
  have moves {f : Pair → Pair} {t : State} (rest : Only [.evq] (s.modPair q f) t) (keeps : ∀ p, (f p).sqFetch = p.sqFetch) :
      Only [.pairs, .evq] s t ∧ ∀ k, t.fetched k = s.fetched k :=
    ⟨(State.modPair_only q f s).append rest, fun k => (rest.fetched (by simp) k).trans (State.fetched_modPair keeps q k s)⟩
  unfold State.writeEntry
  split
  · exact ⟨.refl _ _, fun _ => rfl⟩
  · split
    · exact ⟨.refl _ _, fun _ => rfl⟩
    · split
      · exact moves (posts _) fun _ => rfl
      · dsimp only
        split
        · exact moves (((puts _ _ _ _).trans (State.signal_only q _)).mono (by simp)) fun _ => rfl
        · exact moves ((puts _ _ _ _).mono (by simp)) fun _ => rfl

end Sys2Proof.Machine
end

section
/-! SUPPORT. A grant of the fetch arbiter (R282, R291, R292, R309, R480). -/

namespace Sys2Proof.Machine

/-- The arbiter's choice takes no number yet. -/
theorem State.choose_nextGrant {q : Nat} {a : Arbiter} {s : State} (choice : s.choose = some (q, a)) : a.nextGrant = s.arb.nextGrant := by
  have mapped {o : Option Nat} {f : Nat → Arbiter} (h : o.map (fun k => (k, f k)) = some (q, a))
      (keeps : ∀ k, (f k).nextGrant = s.arb.nextGrant) : a.nextGrant = s.arb.nextGrant := by
    obtain ⟨k, -, e⟩ := Option.map_eq_some_iff.mp h
    rw [← (Prod.mk.inj e).2, keeps]
  unfold State.choose at choice
  dsimp only at choice
  split at choice
  · exact mapped choice fun _ => rfl
  · split at choice
    · split at choice
      · obtain ⟨-, rfl⟩ := Prod.mk.inj (Option.some.inj choice)
        rfl
      · exact mapped choice fun _ => rfl
    · exact mapped choice fun _ => rfl

/-- A fetched entry has taken its place: its number, its pair's next fetch position, the journal's entries, the mirror's (R282, R292,
R449). -/
def State.arrived (q : Nat) (e : Bytes) (s : State) : State :=
  let n := s.arb.nextGrant
  let s := { s with arb := { s.arb with nextGrant := n + 1 } }.modPair q Pair.advanceSq
  ((s.journal 0x03 q e).order 1 (leBytes 8 n ++ leBytes 2 q)).mirror (.entry q n e)

section
variable (q : Nat) (e : Bytes) (s : State)

theorem State.arrived_after_advance :
    Only [] ({ s with arb := { s.arb with nextGrant := s.arb.nextGrant + 1 } }.modPair q Pair.advanceSq) (s.arrived q e) :=
  (State.journal_only _ _ _ _).trans ((State.order_only _ _ _).trans (State.mirror_only _ _))

theorem State.arrived_only : Only [.arb, .pairs] s (s.arrived q e) :=
  ((State.setArb_only s _).append (State.modPair_only q _ _)).append (State.arrived_after_advance q e s)

theorem State.arrived_arb : (s.arrived q e).arb = { s.arb with nextGrant := s.arb.nextGrant + 1 } :=
  (State.arrived_after_advance q e s).2 .arb (by simp)

theorem State.arrived_pair : (s.arrived q e).pair? q = (s.pair? q).map Pair.advanceSq := by
  rw [(State.arrived_after_advance q e s).pair? (by simp), State.pair?_modPair_self]
  rfl

theorem State.arrived_recs : (s.arrived q e).recs = s.recs := (State.arrived_only q e s).2 .recs (by simp)

theorem State.arrived_pwr : (s.arrived q e).pwr = s.pwr := (State.arrived_only q e s).2 .pwr (by simp)

theorem State.arrived_env : (s.arrived q e).env = s.env := by
  unfold State.arrived State.order
  dsimp only
  rw [State.mirror_field (fun u => u.env) (fun _ _ => rfl), State.journal_field (fun u => u.env) (fun _ _ => rfl),
    State.journal_field (fun u => u.env) (fun _ _ => rfl)]
  rfl

theorem State.arrived_cmd? (k tag : Nat) : (s.arrived q e).cmd? k tag = s.cmd? k tag := by
  rw [State.cmd?, State.arrived_recs]; rfl

end

/-- A command as it joins the outstanding ones: with its lock entry, a SYNC's highest number, and its admission (R309, R316). -/
def Cmd.joined (s : State) (c : Cmd) : Cmd :=
  let c := { c with lock := c.lockFor s, syncM := if c.op = 0x06 then s.highestSealed else none }
  { c with admitted := s.admissible c }

theorem State.joinCmd_eq (c : Cmd) (s : State) : s.joinCmd c = { s with recs := { s.recs with cmds := s.recs.cmds ++ [c.joined s] } } := rfl

theorem State.joinCmd_only (c : Cmd) (s : State) : Only [.recs] s (s.joinCmd c) := State.setRecs_only s _

/-- Where no command is outstanding, nothing holds one back. -/
theorem State.admissible_alone {s : State} (alone : s.recs.cmds = []) (c : Cmd) : s.admissible c = true := by
  unfold State.admissible
  rw [alone]
  cases c.lock <;> simp

/-- The status with which a fetched command is answered that does not join: its tag is in use, or its opcode is none (R480). -/
def State.fetchRefusal (q : Nat) (c : Cmd) (s : State) : BitVec 16 :=
  if (s.cmd? q c.tag).isSome then Status.tagInUse else Status.invalidOpcode

section
variable {q : Nat} {a : Arbiter} {p : Pair} {b : Bytes} {l : List SglEntry} {ok : Bool} {s : State}

theorem fetchGrant_none {f : FetchIo} (nobody : s.choose = none) : exec (.fetchGrant f) s = .next s := by
  simp only [exec, execFetchGrant, nobody]

theorem fetchGrant_readFailed (choice : s.choose = some (q, a)) (pair : s.pair? q = some p) :
    exec (.fetchGrant .readFailed) s = .next ((s.modPair q (fun p => { p with error := true })).event 0x0501 q 0) := by
  simp only [exec, execFetchGrant, choice, pair]

theorem fetchGrant_entry (choice : s.choose = some (q, a)) (pair : s.pair? q = some p) :
    exec (.fetchGrant (.entry b l ok)) s = .next (({ s with arb := a } : State).arrive q p b l ok) := by
  simp only [exec, execFetchGrant, choice, pair]

variable {c : Cmd} (fetched : c = cmdOf q s.arb.nextGrant (fit p.sqEntryBytes b) l ok)
include fetched

/-- An arrival in its stages: a tag in use, no opcode, or a command that joins, decides an ABORT and may wake (R309, R329, R357, R480). -/
theorem arrive_eq : s.arrive q p b l ok =
    let u := s.arrived q c.entry
    let t := if c.op = 0x0B then (u.joinCmd c).decideAbort c else u.joinCmd c
    if (u.cmd? q c.tag).isSome then u.writeEntry q c.tag (BitVec.ofNat 32 (getLe c.entry 4 4)) Status.tagInUse 0 0 false
    else if c.op = 0 || 0x0B < c.op then u.writeEntry q c.tag (BitVec.ofNat 32 (getLe c.entry 4 4)) Status.invalidOpcode 0 0 false
    else if c.op ≠ 0x0A && (t.pwr.state = 1 || t.pwr.entering = some 1) then t.wake else t := by
  subst fetched
  rfl

theorem arrive_refused (bad : (s.cmd? q c.tag).isSome ∨ c.op = 0 ∨ 0x0B < c.op) : s.arrive q p b l ok =
    (s.arrived q c.entry).writeEntry q c.tag (BitVec.ofNat 32 (getLe c.entry 4 4)) (s.fetchRefusal q c) 0 0 false := by
  rw [arrive_eq fetched, State.fetchRefusal]
  dsimp only
  rw [State.arrived_cmd?]
  by_cases used : (s.cmd? q c.tag).isSome = true
  · rw [if_pos used, if_pos used]
  · have opcode : (decide (c.op = 0) || decide (0x0B < c.op)) = true := by simpa using bad.resolve_left used
    rw [if_neg used, if_neg used, if_pos opcode]

theorem arrive_joins (p0 : s.pwr.state = 0) (settled : s.pwr.entering = none) (new : s.cmd? q c.tag = none) (low : 0 < c.op) (high : c.op < 0x0B) :
    s.arrive q p b l ok = (s.arrived q c.entry).joinCmd c := by
  have pwr : ((s.arrived q c.entry).joinCmd c).pwr = s.pwr := State.arrived_pwr _ _ _
  have command : ¬ c.op = 0 ∧ ¬ 0x0B < c.op ∧ ¬ c.op = 0x0B := by omega
  rw [arrive_eq fetched]
  simp [State.arrived_cmd?, new, command, pwr, p0, settled]

/-- A command that does not join is answered with an entry of its own; the pair has fetched it all the same. -/
theorem arrive_answers (pair : s.pair? q = some p) (live : p.error = false) (writes : q ∉ s.env.cqFail)
    (bad : (s.cmd? q c.tag).isSome ∨ c.op = 0 ∨ 0x0B < c.op) :
    (s.arrive q p b l ok).arb.nextGrant = s.arb.nextGrant + 1 ∧ (s.arrive q p b l ok).fetched q = some p.advanceSq.sqFetch ∧
      (∃ x, Output.completion x ∈ s.newOut (s.arrive q p b l ok) ∧ x.pair = q ∧ x.tag = c.tag ∧ x.status = s.fetchRefusal q c) ∧
      Only [.arb, .pairs] s (s.arrive q p b l ok) := by
  have arrives := State.arrived_only q c.entry s
  have fetching : (s.arrived q c.entry).pair? q = some p.advanceSq := by rw [State.arrived_pair, pair]; rfl
  have able : q ∉ (s.arrived q c.entry).env.cqFail := by rwa [State.arrived_env]
  have keeps := (State.writeEntry_keeps q c.tag (BitVec.ofNat 32 (getLe c.entry 4 4)) (s.fetchRefusal q c) 0 0 false (s.arrived q c.entry)).2 q
  obtain ⟨⟨now, written⟩, -, -, -, answers⟩ :=
    State.writeEntry_spec fetching live able c.tag (BitVec.ofNat 32 (getLe c.entry 4 4)) (s.fetchRefusal q c) 0 0 false
  rw [arrive_refused fetched bad]
  refine ⟨?_, ?_, ⟨_, State.newOut_right arrives.1 answers.1 written, rfl, rfl, rfl⟩, (arrives.append answers).mono (by simp)⟩
  · rw [show State.arb _ = _ from answers.2 .arb (by simp), State.arrived_arb]
  · rw [keeps, State.fetched, fetching]
    rfl

end
end Sys2Proof.Machine
end

section
open Sys2Proof Sys2Proof.Machine

/-- Settles O25: the arbiter's choice takes no number, the entry's arrival one; what follows is an entry of its own or the command's place. -/
theorem fetchTakesArrivalOrder : Obligations.FetchTakesArrivalOrder := by
  intro f s
  refine ⟨fetchGrant_none, fun q a p choice pair => ⟨?failed, ?entry⟩⟩
  case failed =>
    rintro rfl
    have stops : Only [.pairs] s (s.modPair q (fun p => { p with error := true })) := State.modPair_only q _ s
    have posts := State.event_only 0x0501 q 0 (s.modPair q (fun p => { p with error := true })) (by decide)
    have reported := State.event_reported 0x0501 q 0 (s.modPair q (fun p => { p with error := true }))
    refine ⟨_, fetchGrant_readFailed choice pair, ?_, reported, fun k other => ?_, stops.append posts⟩
    · rw [posts.pair? (by simp), State.pair?_modPair_self, pair]
      rfl
    · rw [posts.pair? (by simp), State.pair?_modPair_other other]
  case entry =>
    rintro b l ok rfl e c live writes
    let u : State := { s with arb := a }
    have number : u.arb.nextGrant = s.arb.nextGrant := State.choose_nextGrant choice
    have fetched : c = cmdOf q u.arb.nextGrant (fit p.sqEntryBytes b) l ok := by rw [number]
    have chooses : Only [.arb] s u := State.setArb_only s a
    refine ⟨fun bad => ?answered, fun new low high p0 settled => ?joins⟩
    case answered =>
      obtain ⟨takes, moved, written, only⟩ := arrive_answers fetched pair live writes bad
      exact ⟨_, fetchGrant_entry choice pair, takes.trans (by rw [number]), moved, written, (chooses.append only).mono (by simp)⟩
    case joins =>
      have arrives := State.arrived_only q e u
      have go : exec (.fetchGrant (.entry b l ok)) s = .next ((u.arrived q e).joinCmd c) :=
        (fetchGrant_entry choice pair).trans (congrArg Host.Outcome.next (arrive_joins fetched p0 settled new low high))
      refine ⟨_, c.joined (u.arrived q e), go, ?_, ?_, ?_, rfl, rfl, rfl, rfl, rfl, fun alone => ?_,
        ((chooses.append arrives).append (State.joinCmd_only c _)).mono (by simp)⟩
      · exact (congrArg Arbiter.nextGrant (State.arrived_arb q e u)).trans (by rw [number])
      · rw [(State.joinCmd_only c _).pair? (by simp), State.arrived_pair, show u.pair? q = some p from pair]
        rfl
      · rw [State.joinCmd_eq, State.arrived_recs]
      · exact State.admissible_alone (by rw [State.arrived_recs]; exact alone) _

end

section
/-! SUPPORT. The creation of a pair (R280, Table 10-8). -/

namespace Sys2Proof.Machine

/-! ## Numbers in a payload -/

theorem leNat_lt (b : Bytes) : leNat b < 256 ^ b.length := by
  induction b with
  | nil => simp [leNat]
  | cons x b ih =>
    have lt := x.isLt
    rw [leNat, List.length_cons, Nat.pow_succ]
    omega

theorem getLe_lt (b : Bytes) (o n : Nat) : getLe b o n < 256 ^ n := by
  have lt := leNat_lt (slice b o n)
  rwa [length_slice] at lt

/-! ## The accepted state -/

section
variable (op : Nat) (r : MbReq) (s : State)

theorem State.accepted'_pairs : (s.accepted' op r).pairs = s.pairs := (State.accepted'_only op r s).2 .pairs (by simp)
theorem State.accepted'_bench : (s.accepted' op r).bench = s.bench := (State.accepted'_only op r s).2 .bench (by simp)
theorem State.pair?_accepted' (q : Nat) : (s.accepted' op r).pair? q = s.pair? q := (State.accepted'_only op r s).pair? (by simp) q

theorem State.accepted'_enabled : (s.accepted' op r).glob.enabled = s.glob.enabled := by
  have quiet : (s.accepted' op r).glob.quiet = s.glob.quiet := (State.accepted'_only op r s).2 .glob (by simp)
  have enabled := congrArg Glob.enabled quiet
  exact enabled

end

/-! ## A pair put in its place -/

/-- The pair that a QP_CREATE describes (Table 10-8). -/
def Pair.ofPayload (p : Bytes) : Pair :=
  { rev := getLe p 1 1, motion := decide (getLe p 2 1 = 1), urgent := decide (getLe p 3 1 = 1), weight := getLe p 4 1, sqLog := getLe p 5 1,
    cqLog := getLe p 6 1, coCount := getLe p 7 1, coTime := getLe p 24 2, sqBase := BitVec.ofNat 64 (getLe p 8 8),
    cqBase := BitVec.ofNat 64 (getLe p 16 8) }

theorem State.createPair_eq (p : Bytes) (s : State) :
    s.createPair p = { s with pairs := modAt s.pairs (getLe p 0 1) (fun _ => some (Pair.ofPayload p)) } := rfl

/-- A base address fills its field. -/
theorem toNat_ofNat_getLe (p : Bytes) (o : Nat) : (BitVec.ofNat 64 (getLe p o 8)).toNat = getLe p o 8 := by
  have fits : getLe p o 8 < 2 ^ 64 := getLe_lt p o 8
  rw [BitVec.toNat_ofNat, Nat.mod_eq_of_lt fits]

/-- The place of a pair set: the place itself, where there is one, and the others. -/
theorem State.pair?_place (q : Nat) (x : Option Pair) (s : State) (k : Nat) :
    ({ s with pairs := modAt s.pairs q (fun _ => x) } : State).pair? k = if q = k then (s.pairs[k]?).bind (fun _ => x) else s.pair? k := by
  simp only [State.pair?, getElem?_modAt]
  split
  · cases s.pairs[k]? <;> rfl
  · rfl

/-! ## QP_CREATE -/

section
variable {r : MbReq} {s : State}

theorem serveQpCreate_eq (plain : Plain r) (len : r.len = 32) (zero : zeroAt (mbData r) 26 6 = true) (s : State) :
    serveQpCreate r s = qpCreateBody r s :=
  mbChecks_passes (by decide) (by rw [len]; rfl) plain.1 (.inl plain.2) zero qpCreateBody s

theorem qpCreateBody_disabled (disabled : s.glob.enabled = false) : qpCreateBody r s = s.refuse 0x0101 Status.sequenceError r := by
  simp [qpCreateBody, disabled]

section
variable (enabled : s.glob.enabled = true) (bench : s.bench.on = false)
include enabled bench

theorem qpCreateBody_inUse (used : (s.pair? (getLe (mbData r) 0 1)).isSome) : qpCreateBody r s = s.refuse 0x0101 Status.resourceBusy r := by
  simp [qpCreateBody, enabled, bench, used]

variable (free : s.pair? (getLe (mbData r) 0 1) = none) (data : getLe (mbData r) 2 1 ≠ 1)
include free data

theorem qpCreateBody_badField {o : Nat} (bad : qpBadField (mbData r) = some o) :
    qpCreateBody r s = s.respond r.mb Status.invalidField (o + 1) [] := by
  simp [qpCreateBody, enabled, bench, free, data, bad]

theorem qpCreateBody_creates (good : qpBadField (mbData r) = none) :
    qpCreateBody r s = ((s.createPair (mbData r)).mirror (.qpCreate (mbData r))).done r.mb [] := by
  simp [qpCreateBody, enabled, bench, free, data, good]

end

/-- A request that is answered without any other effect. -/
theorem qpCreate_answers (plain : Plain r) (run : s.Serves 0x0101 r) (len : r.len = 32) (zero : zeroAt (mbData r) 26 6 = true)
    {st : BitVec 16} {d : Nat} (answer : qpCreateBody r (s.accepted' 0x0101 r) = (s.accepted' 0x0101 r).respond r.mb st d []) :
    ∃ t, exec (.qpCreate r) s = .next t ∧ Answered 0x0101 r st d [] s t ∧ Only [.mail] s t :=
  ⟨_, rfl, mbGo_answers run ((serveQpCreate_eq plain len zero _).trans answer)⟩

/-- QP_CREATE of a data pair with a free number and every field in range. -/
theorem qpCreate_creates (plain : Plain r) (run : s.Serves 0x0101 r) (len : r.len = 32) (zero : zeroAt (mbData r) 26 6 = true)
    (enabled : s.glob.enabled = true) (bench : s.bench.on = false) (places : s.pairs.length = 256) (free : s.pair? (getLe (mbData r) 0 1) = none)
    (good : qpBadField (mbData r) = none) (data : getLe (mbData r) 2 1 = 0) :
    ∃ t, exec (.qpCreate r) s = .next t ∧ Answered 0x0101 r Status.success 0 [] s t ∧
      t.pair? (getLe (mbData r) 0 1) = some (Pair.ofPayload (mbData r)) ∧ (∀ k, k ≠ getLe (mbData r) 0 1 → t.pair? k = s.pair? k) ∧
      Only [.mail, .pairs] s t := by
  let q := getLe (mbData r) 0 1
  let u := s.accepted' 0x0101 r
  let v := (u.createPair (mbData r)).mirror (.qpCreate (mbData r))
  have creates : qpCreateBody r u = v.done r.mb [] :=
    qpCreateBody_creates ((State.accepted'_enabled _ r s).trans enabled) (by rwa [State.accepted'_bench]) (by rwa [State.pair?_accepted'])
      (by omega) good
  have mirrors : Only [] (u.createPair (mbData r)) v := State.mirror_only _ _
  have work : Only [.pairs] u v := (State.withPairs_only u _).append mirrors
  obtain ⟨answered, only, after⟩ := mbGo_answers_after run (by decide) work ((serveQpCreate_eq plain len zero u).trans creates)
  have pairs (k : Nat) : (mbGo 0x0101 r serveQpCreate s).pair? k =
      if q = k then (s.pairs[k]?).bind (fun _ => some (Pair.ofPayload (mbData r))) else s.pair? k := by
    rw [after.pair? (by decide), mirrors.pair? (by decide), State.createPair_eq, State.pair?_place, State.accepted'_pairs, State.pair?_accepted']
  have place : q < s.pairs.length := by rw [places]; exact getLe_lt (mbData r) 0 1
  refine ⟨_, rfl, answered, ?_, fun k other => ?_, only⟩
  · rw [pairs, if_pos rfl, List.getElem?_eq_getElem place]
    rfl
  · rw [pairs, if_neg (Ne.symm other)]

end
end Sys2Proof.Machine
end

section
/-! SUPPORT. The deletion of a pair: its commands and its OPEN records end, and nothing of any other pair but what it posts (R280, R330,
Table 11-9). -/

namespace Sys2Proof.Machine

/-! ## What the end of a command leaves (Table 11-9) -/

/-- The parts of the state that the end of a command may change. -/
def cmdEndBlocks : List Block := [.recs, .rd, .sec, .motion, .pairs, .evq]

/-- Between two states commands have ended: records, pairs and fetch positions are as they were. -/
structure CmdsEnd (s t : State) : Prop where
  only : Only cmdEndBlocks s t
  recs : t.recs.recs = s.recs.recs
  fetched : ∀ k, t.fetched k = s.fetched k

theorem CmdsEnd.refl (s : State) : CmdsEnd s s := ⟨.refl _ _, rfl, fun _ => rfl⟩

theorem CmdsEnd.trans {s t u : State} (h : CmdsEnd s t) (k : CmdsEnd t u) : CmdsEnd s u :=
  ⟨h.only.trans k.only, k.recs.trans h.recs, fun q => (k.fetched q).trans (h.fetched q)⟩

/-- A step that leaves records, commands and pairs alone. -/
theorem CmdsEnd.of_only {bs : List Block} {s t : State} (h : Only bs s t) (few : ∀ b ∈ bs, b ∈ cmdEndBlocks) (recs : .recs ∉ bs)
    (pairs : .pairs ∉ bs) : CmdsEnd s t :=
  ⟨h.mono few, by rw [show t.recs = s.recs from h.2 .recs recs], h.fetched pairs⟩

/-- A step that changes the commands alone. -/
theorem CmdsEnd.of_recs (s : State) {x : Records} (same : x.recs = s.recs.recs) : CmdsEnd s { s with recs := x } :=
  ⟨(State.setRecs_only s x).mono (by simp [cmdEndBlocks]), same, fun _ => rfl⟩

theorem State.setRd_ends (s : State) (x : ReadSide) : CmdsEnd s { s with rd := x } :=
  .of_only (State.setRd_only s x) (by simp [cmdEndBlocks]) (by simp) (by simp)

theorem State.releaseKey_only (slot : Nat) (gen : BitVec 16) (s : State) : Only [.sec] s (s.releaseKey slot gen) := State.setSec_only s _

theorem State.dropCmd_ends (q tag : Nat) (s : State) : CmdsEnd s (s.dropCmd q tag) := .of_recs s rfl

theorem State.complete_ends (q tag : Nat) (st : BitVec 16) (res : BitVec 64) (ext : BitVec 32) (s : State) :
    CmdsEnd s (s.complete q tag st res ext) := by
  unfold State.complete
  split
  · exact .refl s
  next c _ =>
    obtain ⟨only, fetched⟩ := State.writeEntry_keeps q tag (BitVec.ofNat 32 (getLe c.entry 4 4)) st res ext c.inDoubt s
    have writes : CmdsEnd s (s.writeEntry q tag (BitVec.ofNat 32 (getLe c.entry 4 4)) st res ext c.inDoubt) :=
      ⟨only.mono (by simp [cmdEndBlocks]), by rw [show State.recs _ = s.recs from only.2 .recs (by simp)], fetched⟩
    unfold State.writeCompletion
    dsimp only
    split
    · exact writes
    · exact writes.trans (State.dropCmd_ends q tag _)

theorem State.writeMotion_fetched (q : Nat) (r : MotionReq) (s : State) (k : Nat) : (s.writeMotion q r).fetched k = s.fetched k := by
  unfold State.writeMotion
  split
  · rfl
  · have after (x : Motion) (o : Output) (u : State) : Only [.motion] u (({ u with motion := x }.emit o).signal q) :=
      (State.setMotion_only u x).append ((State.emit_only _ _).append (State.signal_only q _))
    exact ((after _ _ _).fetched (by simp) k).trans (State.fetched_modPair (f := Pair.advanceCq) (fun _ => rfl) q k s)

theorem State.motionReq_ends (r : MotionReq) (s : State) : CmdsEnd s (s.motionReq r) := by
  have holds : CmdsEnd s { s with motion := { s.motion with held := holdMotion s.motion.held r } } :=
    .of_only (State.setMotion_only s _) (by simp [cmdEndBlocks]) (by simp) (by simp)
  have posts (q : Nat) : CmdsEnd s (s.writeMotion q r) := by
    have only := State.writeMotion_only q r s
    exact ⟨only.mono (by simp [cmdEndBlocks]), by rw [show State.recs _ = s.recs from only.2 .recs (by simp)], State.writeMotion_fetched q r s⟩
  unfold State.motionReq
  split
  · exact holds
  · split
    · exact .refl s
    · split
      · exact holds
      · exact posts _

theorem State.endRead_ends (j : ReadJob) (st : BitVec 16) (o : Nat) (s : State) : CmdsEnd s (s.endRead j st o) := by
  have reports (p : Prop) [Decidable p] (x : Output) : CmdsEnd s (if p then s.emit x else s) :=
    .of_only (.ite (State.emit_only x s) (.refl _ _)) (by simp) (by simp) (by simp)
  have releases (slot : Nat) (gen : BitVec 16) (u : State) : CmdsEnd u (u.releaseKey slot gen) :=
    .of_only (State.releaseKey_only slot gen u) (by simp [cmdEndBlocks]) (by simp) (by simp)
  unfold State.endRead
  dsimp only
  refine .trans ?_ (State.complete_ends _ _ _ _ _ _)
  refine .trans ?_ (State.setRd_ends _ _)
  split
  · exact (reports _ _).trans (releases _ _ _)
  · exact reports _ _

theorem State.endCmd_ends (q tag : Nat) (st : BitVec 16) (s : State) : CmdsEnd s (s.endCmd q tag st) := by
  refine .trans (.of_recs s (x := { s.recs with syncs := s.recs.syncs.filter (fun y => !(y.pair = q && y.tag = tag)) }) rfl) ?_
  unfold State.endCmd
  dsimp only
  split
  · exact (State.setRd_ends _ _).trans (State.endRead_ends _ _ _ _)
  · refine .trans ?_ (State.complete_ends _ _ _ _ _ _)
    split
    · split
      · exact (State.setRd_ends _ _).trans (State.motionReq_ends _ _)
      · exact .refl _
    · exact .refl _

theorem abortCmds_ends (st : BitVec 16) (l : List Cmd) (s : State) : CmdsEnd s (abortCmds st l s) := by
  induction l generalizing s with
  | nil => exact .refl s
  | cons c r ih => exact (State.endCmd_ends _ _ _ s).trans (ih _)

/-! ## Records that end (Table 11-9) -/

theorem State.freeStage_only (r : Nat) (s : State) : Only [.recs, .hearth] s (s.freeStage r) := by
  unfold State.freeStage
  split
  · exact .refl _ _
  · exact (State.setRecs_only s _).append (State.setHearth_only _ _)

theorem State.releaseRecKey_only (x : Rec) (s : State) : Only [.sec] s (s.releaseRecKey x) := .ite (State.releaseKey_only _ _ s) (.refl _ _)

theorem State.endRec_only (r : Nat) (st : RecState) (s : State) : Only [.recs, .hearth, .sec] s (s.endRec r st) := by
  unfold State.endRec
  split
  · exact .refl _ _
  · exact (((State.freeStage_only r s).append (State.releaseRecKey_only _ _)).append (State.setRecs_only _ _)).mono (by simp)

/-- A record that has ended in a state. -/
def Rec.ended (st : RecState) (x : Rec) : Rec := { x with chunks := [], state := st, cus := [], extents := [] }

theorem State.endRec_recs {r : Nat} {st : RecState} {x : Rec} {s : State} (found : s.rec? r = some x) :
    (s.endRec r st).recs.recs = s.recs.recs.map (fun y => if y.num = r then y.ended st else y) := by
  have kept (u : State) : (u.releaseRecKey x).recs = u.recs := (State.releaseRecKey_only x u).2 .recs (by simp)
  simp only [State.endRec, State.freeStage, found, State.modRec, kept, List.map_map]
  refine List.map_congr_left fun y _ => ?_
  by_cases own : y.num = r
  · simp [own, Rec.ended]
  · simp [own]

/-- A record that is OPEN after another has ended was there before, under another number. -/
theorem State.endRec_opened {r : Nat} {st : RecState} {y : Rec} {s : State} (closed : st ≠ .opened) (here : y ∈ (s.endRec r st).recs.recs)
    (opened : y.state = .opened) : y ∈ s.recs.recs ∧ y.num ≠ r := by
  cases found : s.rec? r with
  | none =>
    have same : s.endRec r st = s := by simp only [State.endRec, found]
    rw [same] at here
    exact ⟨here, by simpa using List.find?_eq_none.mp found y here⟩
  | some x =>
    rw [State.endRec_recs found] at here
    obtain ⟨z, before, rfl⟩ := List.mem_map.mp here
    split at opened
    · exact absurd opened closed
    next other => rw [if_neg other]; exact ⟨before, other⟩

theorem abandonRecs_only (l : List Rec) (s : State) : Only [.recs, .hearth, .sec] s (abandonRecs l s) := by
  induction l generalizing s with
  | nil => exact .refl _ _
  | cons x r ih => exact (State.endRec_only _ _ s).trans (((State.mirror_only _ _).mono (by simp)).trans (ih _))

theorem abandonRecs_opened {l : List Rec} {y : Rec} {s : State} (here : y ∈ (abandonRecs l s).recs.recs) (opened : y.state = .opened) :
    y ∈ s.recs.recs ∧ ∀ x ∈ l, y.num ≠ x.num := by
  induction l generalizing s with
  | nil => exact ⟨here, by simp⟩
  | cons x r ih =>
    obtain ⟨before, others⟩ := ih here
    have mirrored : ((s.endRec x.num .abandoned).mirror (.abandon x.num)).recs = (s.endRec x.num .abandoned).recs :=
      (State.mirror_only _ _).2 .recs (by simp)
    rw [mirrored] at before
    obtain ⟨first, other⟩ := State.endRec_opened (by decide) before opened
    exact ⟨first, List.forall_mem_cons.mpr ⟨other, others⟩⟩

/-! ## QP_DELETE -/

/-- The parts of the state that the deletion of a pair may change. -/
def deleteBlocks : List Block := [.pairs, .recs, .rd, .sec, .hearth, .evq, .motion]

section
variable (q : Nat) (s : State)

/-- The deletion before the pair goes: its commands, those on its OPEN records, and the records have ended. -/
def State.pairEnded : State :=
  let mine := (s.recsIn .opened).filter (fun r => r.pair = q)
  let s := abortCmds Status.abortedQueueDeleted (s.recs.cmds.filter (fun c => c.pair = q)) s
  let s := abortCmds Status.abortedQueueDeleted (s.recs.cmds.filter (fun c => (match c.lock with
    | some l => mine.any (fun r => r.num = l.num)
    | none => false))) s
  abandonRecs mine s

theorem State.deletePair_eq : s.deletePair q =
    { s.pairEnded q with
      pairs := modAt (s.pairEnded q).pairs q (fun _ => none)
      recs := { (s.pairEnded q).recs with cmds := (s.pairEnded q).recs.cmds.filter (fun c => c.pair ≠ q) } } := rfl

/-- Commands end first, then the pair's OPEN records. -/
theorem State.pairEnded_stages : ∃ u, CmdsEnd s u ∧ s.pairEnded q = abandonRecs ((s.recsIn .opened).filter (fun r => r.pair = q)) u :=
  ⟨_, (abortCmds_ends _ _ s).trans (abortCmds_ends _ _ _), rfl⟩

theorem State.deletePair_only : Only deleteBlocks s (s.deletePair q) := by
  obtain ⟨u, ends, stages⟩ := State.pairEnded_stages q s
  have before : Only deleteBlocks s (s.pairEnded q) := by
    rw [stages]
    exact (ends.only.append (abandonRecs_only _ u)).mono (by simp [deleteBlocks, cmdEndBlocks])
  have goes : Only [.pairs, .recs] (s.pairEnded q) (s.deletePair q) := by
    rw [State.deletePair_eq]
    exact (State.withPairs_only _ (modAt (s.pairEnded q).pairs q (fun _ => none))).append (State.setRecs_only _ _)
  exact before.trans (goes.mono (by simp [deleteBlocks]))

theorem State.deletePair_pair : (s.deletePair q).pair? q = none := by
  have place : (s.deletePair q).pair? q = (s.pairEnded q).pairs[q]?.bind (fun _ => none) :=
    (State.pair?_place q none (s.pairEnded q) q).trans (if_pos rfl)
  rw [place, Option.bind_fun_none]

theorem State.deletePair_others {k : Nat} (other : k ≠ q) : ((s.deletePair q).pair? k).isSome = (s.pair? k).isSome := by
  obtain ⟨u, ends, stages⟩ := State.pairEnded_stages q s
  have place : (s.deletePair q).pair? k = (s.pairEnded q).pair? k := (State.pair?_place q none (s.pairEnded q) k).trans (if_neg (Ne.symm other))
  have records : (s.pairEnded q).pair? k = u.pair? k := by rw [stages, (abandonRecs_only _ u).pair? (by simp)]
  rw [place, records, ← State.isSome_fetched, ends.fetched, State.isSome_fetched]

theorem State.deletePair_cmds : ∀ c ∈ (s.deletePair q).recs.cmds, c.pair ≠ q := by
  intro c mem
  simpa using (List.mem_filter.mp mem).2

/-- A record still OPEN was OPEN before, and not of this pair: all of its own have been abandoned. -/
theorem State.deletePair_recs : ∀ y ∈ (s.deletePair q).recs.recs, y.state = .opened → y.pair ≠ q := by
  intro y here opened own
  obtain ⟨u, ends, stages⟩ := State.pairEnded_stages q s
  have here' : y ∈ (s.pairEnded q).recs.recs := here
  rw [stages] at here'
  obtain ⟨before, others⟩ := abandonRecs_opened here' opened
  rw [ends.recs] at before
  exact others y (by simp [State.recsIn, before, opened, own]) rfl

end

/-- While the formatter writes, the tape goes to nobody else (R322). -/
theorem State.pumpTape_writing {s : State} (writing : s.forge.writing = true) : s.pumpTape = s := by
  simp [State.pumpTape, writing]

section
variable {r : MbReq} {s : State}

theorem serveQpDelete_eq (plain : Plain r) (len : r.len = 8) (zero : zeroAt (mbData r) 1 7 = true) (s : State) :
    serveQpDelete r s = qpDeleteBody r s :=
  mbChecks_passes (by decide) (by rw [len]; rfl) plain.1 (.inl plain.2) zero qpDeleteBody s

theorem qpDeleteBody_absent (absent : s.pair? (getLe (mbData r) 0 1) = none) : qpDeleteBody r s = s.respond r.mb Status.invalidField 1 [] := by
  simp only [qpDeleteBody, absent]

theorem qpDeleteBody_data {x : Pair} (pair : s.pair? (getLe (mbData r) 0 1) = some x) (data : x.motion = false) (writing : s.forge.writing = true) :
    let q := getLe (mbData r) 0 1
    qpDeleteBody r s = (((s.withPairIo q r.io).deletePair q).mirror (.qpDelete q)).done r.mb [] := by
  intro q
  let u := (s.withPairIo q r.io).deletePair q
  have deletes : Only deleteBlocks s u := ((State.setEnv_only s _).mono (by simp)).trans (State.deletePair_only q _)
  have forge : (u.mirror (.qpDelete q)).forge = s.forge := (deletes.trans ((State.mirror_only _ u).mono (by simp))).2 .forge (by decide)
  have rests : (u.mirror (.qpDelete q)).pumpTape = u.mirror (.qpDelete q) := State.pumpTape_writing (by rw [forge, writing])
  simp only [qpDeleteBody, pair, data, Bool.false_eq_true, if_false]
  exact congrArg (State.done r.mb []) rests

variable (plain : Plain r) (run : s.Serves 0x0102 r) (len : r.len = 8) (zero : zeroAt (mbData r) 1 7 = true)
include plain run len zero

theorem qpDelete_absent (absent : s.pair? (getLe (mbData r) 0 1) = none) :
    ∃ t, exec (.qpDelete r) s = .next t ∧ Answered 0x0102 r Status.invalidField 1 [] s t ∧ Only [.mail] s t :=
  ⟨_, rfl, mbGo_answers run ((serveQpDelete_eq plain len zero _).trans (qpDeleteBody_absent ((State.pair?_accepted' _ r s _).trans absent)))⟩

/-- QP_DELETE of a data pair while the formatter writes. -/
theorem qpDelete_deletes {x : Pair} (pair : s.pair? (getLe (mbData r) 0 1) = some x) (data : x.motion = false) (writing : s.forge.writing = true) :
    ∃ t, exec (.qpDelete r) s = .next t ∧ Answered 0x0102 r Status.success 0 [] s t ∧ t.pair? (getLe (mbData r) 0 1) = none ∧
      (∀ c ∈ t.recs.cmds, c.pair ≠ getLe (mbData r) 0 1) ∧ (∀ y ∈ t.recs.recs, y.state = .opened → y.pair ≠ getLe (mbData r) 0 1) ∧
      (∀ k, k ≠ getLe (mbData r) 0 1 → (t.pair? k).isSome = (s.pair? k).isSome) ∧ Only (.mail :: deleteBlocks) s t := by
  let q := getLe (mbData r) 0 1
  let u := (s.accepted' 0x0102 r).withPairIo q r.io
  let v := (u.deletePair q).mirror (.qpDelete q)
  have deletes : qpDeleteBody r (s.accepted' 0x0102 r) = v.done r.mb [] :=
    qpDeleteBody_data ((State.pair?_accepted' _ r s q).trans pair) data (by rw [State.accepted'_forge, writing])
  have mirrors : Only [] (u.deletePair q) v := State.mirror_only _ _
  have work : Only deleteBlocks (s.accepted' 0x0102 r) v :=
    ((State.setEnv_only _ _).mono (by simp)).trans ((State.deletePair_only q u).trans (mirrors.mono (by simp)))
  obtain ⟨answered, only, after⟩ := mbGo_answers_after run (by decide) work ((serveQpDelete_eq plain len zero _).trans deletes)
  have pairs (k : Nat) : (mbGo 0x0102 r serveQpDelete s).pair? k = (u.deletePair q).pair? k := by
    rw [after.pair? (by decide), mirrors.pair? (by decide)]
  have recs : (mbGo 0x0102 r serveQpDelete s).recs = (u.deletePair q).recs := (after.2 .recs (by decide)).trans (mirrors.2 .recs (by decide))
  have before (k : Nat) : u.pair? k = s.pair? k := State.pair?_accepted' _ r s k
  refine ⟨_, rfl, answered, (pairs q).trans (State.deletePair_pair q u), ?_, ?_, fun k other => ?_, only⟩
  · rw [recs]
    exact State.deletePair_cmds q u
  · rw [recs]
    exact State.deletePair_recs q u
  · rw [pairs, State.deletePair_others q u other, before]

end
end Sys2Proof.Machine
end

section
open Sys2Proof Sys2Proof.Machine

/-- Settles O38: each answer by its own lemma; a deletion ends commands and records, which moves no other pair's place. -/
theorem pairsCreatedAndDeleted : Obligations.PairsCreatedAndDeleted := by
  intro r s plain p q
  refine ⟨fun run len zero => ⟨fun enabled bench places free good data => ?creates, fun disabled => ?disabled, fun enabled bench used => ?inUse,
    fun o enabled bench free data bad => ?badField⟩, fun run len zero => ⟨fun x pair data writing => ?deletes, qpDelete_absent plain run len zero⟩⟩
  case creates =>
    obtain ⟨t, go, answered, pair, others, only⟩ := qpCreate_creates plain run len zero enabled bench places free good data
    have type : getLe p 2 1 ≠ 1 := by omega
    exact ⟨t, _, go, answered, pair, rfl, decide_eq_false type, rfl, rfl, rfl, rfl, rfl, rfl, toNat_ofNat_getLe p 8, toNat_ofNat_getLe p 16,
      rfl, rfl, rfl, rfl, rfl, rfl, others, only⟩
  case disabled =>
    obtain ⟨t, answers⟩ := qpCreate_answers plain run len zero (qpCreateBody_disabled ((State.accepted'_enabled _ r s).trans disabled))
    exact ⟨t, _, answers⟩
  case inUse =>
    obtain ⟨t, answers⟩ := qpCreate_answers plain run len zero (qpCreateBody_inUse ((State.accepted'_enabled _ r s).trans enabled)
      (by rwa [State.accepted'_bench]) (by rwa [State.pair?_accepted']))
    exact ⟨t, _, answers⟩
  case badField =>
    exact qpCreate_answers plain run len zero (qpCreateBody_badField ((State.accepted'_enabled _ r s).trans enabled)
      (by rwa [State.accepted'_bench]) (by rwa [State.pair?_accepted']) data bad)
  case deletes =>
    obtain ⟨t, go, answered, gone, cmds, recs, others, only⟩ := qpDelete_deletes plain run len zero pair data writing
    exact ⟨t, go, answered, gone, cmds, recs, others, only.mono (by simp [deleteBlocks])⟩

end
